-- ==== Sys2Proof/Word.lean ====
section
/-!
DEFINITION. The words of the machine: the 32-bit register word, the 64-bit lane mask and their plainest arithmetic (R4, R42, R122).
-/
namespace Sys2Proof

/-- A register, instruction or scalar word (00, Numbers and sizes). -/
abbrev Word := BitVec 32

/-- A byte of memory. -/
abbrev Byte := BitVec 8

/-- A 64-bit register pair (R4). -/
abbrev Pair := BitVec 64

/-- A set of lanes of a group: bit l stands for lane l (R122). -/
abbrev Mask := BitVec 64

/-- A code virtual address, 57 bits (R109, R157). -/
abbrev CodeVa := BitVec 57

/-- The address n words after a. -/
def CodeVa.addWords (a : CodeVa) (n : Int) : CodeVa := a + BitVec.ofInt 57 (4 * n)

/-- The mask of one lane. -/
def Mask.one (l : Nat) : Mask := (1#64) <<< l

/-- The lanes below n. -/
def Mask.below (n : Nat) : Mask := BitVec.ofNat 64 (2 ^ n - 1)

/-- Whether lane l is in the set. -/
def Mask.has (m : Mask) (l : Nat) : Bool := m.getLsbD l

/-- The lanes of a set in ascending order. -/
def Mask.lanes (m : Mask) : List Nat := (List.range 64).filter m.has

/-- The number of lanes of a set. -/
def Mask.size (m : Mask) : Nat := m.lanes.length

/-- The lowest lane of a set, 0 when it is empty. -/
def Mask.lowest (m : Mask) : Nat := m.lanes.headD 0

/-- The set of the lanes for which p holds. -/
def Mask.ofPred (p : Nat → Bool) : Mask :=
  (List.range 64).foldl (fun m l => if p l then m ||| Mask.one l else m) 0#64

/-- The set of a list of lanes. -/
def Mask.ofLanes (ls : List Nat) : Mask := ls.foldl (fun m l => m ||| Mask.one l) 0#64

/-- a without b. -/
def Mask.minus (a b : Mask) : Mask := a &&& ~~~ b

end Sys2Proof
end

