-- ==== Sys2Proof/Machine/Flags.lean ====
section
/-!
DEFINITION. The integer operations and the conditions of compares, as functions of words and pairs (R23, R78 to R84, R89, R97). No instruction sets a carry or overflow flag (R23); the only flags are the predicates that compares write.
-/
namespace Sys2Proof.Machine

/-- The smaller, signed. -/
def sMin {w : Nat} (a b : BitVec w) : BitVec w := if a.toInt ≤ b.toInt then a else b

/-- The larger, signed. -/
def sMax {w : Nat} (a b : BitVec w) : BitVec w := if a.toInt ≤ b.toInt then b else a

/-- The smaller, unsigned. -/
def uMin {w : Nat} (a b : BitVec w) : BitVec w := if a.toNat ≤ b.toNat then a else b

/-- The larger, unsigned. -/
def uMax {w : Nat} (a b : BitVec w) : BitVec w := if a.toNat ≤ b.toNat then b else a

/-- IADDMN (R78). -/
def addMin (d a b : Word) : Word := sMin d (a + b)

/-- IABSD: the exact difference of the signed operands, as n32 (R78). -/
def absDiff (a b : Word) : Word := BitVec.ofNat 32 (a.toInt - b.toInt).natAbs

/-- The high word of the signed product (R79). -/
def mulHigh (a b : Word) : Word := (BitVec.ofInt 64 (a.toInt * b.toInt)).extractLsb' 32 32

/-- The high word of the unsigned product (R79). -/
def mulHighU (a b : Word) : Word := (BitVec.ofNat 64 (a.toNat * b.toNat)).extractLsb' 32 32

/-- Shift left by b[4:0] (R81). -/
def shl (a b : Word) : Word := a <<< (b.toNat % 32)

/-- Shift right, filling with zeros (R81). -/
def shr (a b : Word) : Word := a >>> (b.toNat % 32)

/-- Shift right, filling with a[31] (R81). -/
def shra (a b : Word) : Word := a.sshiftRight (b.toNat % 32)

/-- Rotation left (R81). -/
def rotl (a b : Word) : Word := (a <<< (b.toNat % 32)) ||| (a >>> ((32 - b.toNat % 32) % 32))

/-- The number of 1 bits (R82). -/
def popCount (a : Word) : Word := BitVec.ofNat 32 ((List.range 32).countP a.getLsbD)

/-- The number of 0 bits above the highest 1 bit, 32 for zero (R82). -/
def leadingZeros (a : Word) : Word := BitVec.ofNat 32 ((List.range 32).reverse.takeWhile (fun i => !a.getLsbD i)).length

/-- d[i] := a[31 - i] (R83). -/
def bitReverse (a : Word) : Word :=
  (List.range 32).foldl (fun r i => if a.getLsbD (31 - i) then r ||| ((1#32) <<< i) else r) 0#32

/-- The position and the clipped length of a bit field, 0 where there is none (R83). -/
def bitField (b : Word) : Nat × Nat := (b.toNat % 256, min ((b.toNat / 256) % 256) (32 - b.toNat % 256))

/-- BFEN (R83). -/
def bfeU (a b : Word) : Word :=
  if (bitField b).2 = 0 then 0#32
  else (a >>> (bitField b).1) &&& BitVec.ofNat 32 (2 ^ (bitField b).2 - 1)

/-- BFE (R83). -/
def bfeS (a b : Word) : Word :=
  if (bitField b).2 = 0 then 0#32
  else ((a >>> (bitField b).1) <<< (32 - (bitField b).2)).sshiftRight (32 - (bitField b).2)

/-- BFI (R83). -/
def bfi (d a b : Word) : Word :=
  if (bitField b).2 = 0 then d
  else
    let m : Word := BitVec.ofNat 32 ((2 ^ (bitField b).2 - 1) <<< (bitField b).1)
    (d &&& ~~~ m) ||| ((a <<< (bitField b).1) &&& m)

/-- The condition of ISET and SSET (R89). -/
def intCond {w : Nat} (f : BitVec 3) (a b : BitVec w) : Bool :=
  match f.toNat with
  | 0 => a == b
  | 1 => a != b
  | 2 => decide (a.toInt < b.toInt)
  | 3 => decide (a.toInt ≤ b.toInt)
  | 4 => decide (b.toInt < a.toInt)
  | 5 => decide (b.toInt ≤ a.toInt)
  | 6 => decide (a.toNat < b.toNat)
  | _ => decide (a.toNat ≤ b.toNat)

/-- How a compare combines its condition with the old predicate (R89). -/
def combine (c : BitVec 2) (old new : Bool) : Bool :=
  match c.toNat with
  | 0 => new
  | 1 => old && new
  | 2 => old || new
  | _ => xor old new

/-- Sign or zero extension of the low n bytes of a value to a word (R205). -/
def widen (v n : Nat) (signed : Bool) : Word :=
  if signed && v.testBit (8 * n - 1) then BitVec.ofInt 32 ((v % 2 ^ (8 * n) : Nat) - (2 ^ (8 * n) : Nat) : Int)
  else BitVec.ofNat 32 (v % 2 ^ (8 * n))

end Sys2Proof.Machine
end

