-- ==== Sys2Proof/Syntax.lean ====
section
/-!
DEFINITION. The abstract syntax: one constructor for each row of the opcode table. 217 are instruction words, with the fields that R47, R53 and R54 give them (ignored bits are left out); the others are the machine's own events (file 95), whose arguments name what they act on or carry what an outside party answers. Words with fields stand first, then the events that a step can put into the list of due events, then the other events and the words without fields: Lean's runtime can build only the first 244 constructors that have fields.
-/
namespace Sys2Proof

/-- The pager's answer to a fault (R300): the page-table entries that it writes, each with its physical address, in the layout of R178; or the fault is unrecoverable. -/
inductive PagerAnswer where
  | mapped (entries : List (Nat × BitVec 64))
  | unrecoverable
deriving DecidableEq, Repr

/-- A peer device's answer to one lane's access (R354). -/
inductive PeerAnswer where
  | done (old : BitVec 128)
  | absent
  | refused
deriving DecidableEq, Repr

/-- What a peer is asked to do (R354). probe: only whether a write or an atomic of the kind of access need would find its page (R202, R298). -/
inductive PeerOp where
  | probe (size : Nat) (need : BitVec 3)
  | read (size : Nat)
  | write (size : Nat) (v : BitVec 128)
  | atomic (size : Nat) (opa : BitVec 3) (sgn flt : Bool) (v nv : BitVec 64)
deriving DecidableEq, Repr

/-- What a reduction gives a command (R357, R358): its words, a fabric error, or PROT where the root does not know the group for its context. -/
inductive Reduced where
  | words (ws : List (BitVec 32))
  | failed
  | refused
deriving DecidableEq, Repr

/-- What arrives over the links, under a number that both sides use: a peer's answer to a lane of the stream with that number, or with number 0 to the command whose number lane is; the end of a fault that a peer's pager has served for a page that a context reaches through a window; an access that a peer sends; a contribution to a reduction whose root is here, of the command that its device numbers so, of its group gid there; and the end of a reduction whose root is elsewhere, for the command of that number (R354, R355, R357, R358). -/
inductive PeerMsg where
  | answer (lane : Nat) (a : PeerAnswer)
  | settled (ctx va : Nat) (ok : Bool)
  | access (rctx : BitVec 32) (va : Nat) (op : PeerOp)
  | contribution (gid ctx : Nat) (rgrp rtag : BitVec 32) (fn : Nat) (count kind : BitVec 32) (words : List (BitVec 32))
  | reduced (r : Reduced)
deriving DecidableEq, Repr

/-- A firmware image (R382): its bytes, its signature, the key that made it, the root key and the root key's signature of that key. -/
structure Image where
  bytes : List (BitVec 8)
  sig : BitVec 1056
  key : List (BitVec 8)
  root : List (BitVec 8)
  keySig : BitVec 1056
deriving DecidableEq, Repr, Inhabited

/-- How a translation of a Umell module lays threads on lanes (R347): one a lane; 2, 4 or 8 a lane; all in one lane. -/
inductive UmellMapping where
  | lanes
  | coarsened (k : BitVec 2)
  | serial
deriving DecidableEq, Repr, Inhabited

/-- What a start of the device finds (R382): the first of steps 1, 2, 3 and 7 that fails on some die, if any, and the cause; the fuses; the firmware images in load order; the service pairs that pass step 1. -/
structure StartReport where
  failedStep : Option Nat
  failedDie : Nat
  cause : Nat
  secret : BitVec 512
  rootHash : BitVec 512
  serial : BitVec 128
  images : List Image
  pairs : List Bool
deriving DecidableEq, Repr, Inhabited

/-- What the device OS writes through its control path, which is no part of Psium, or by its own stores where the spec only says that it sets the thing: debug registers (R372), event selects (R379), trace and profile rings (R376, R377), SBASE (R305), the class of the lines under a tensor tag and the pinned window (R168, R169), a context and its completion array and vector (R254, R360, R365), peer windows (R353), the overflow area of its object requests (R247), the submission pages (R363), reduction groups (R356), conjugator areas (R249), walker slots (R325), the service pairs' streams (R387), the device's own id (R352), the power cap (R394), dual-root mode (R360), and the owner's word that a confidential context may be debugged (R381). -/
inductive OsWrite where
  | breakpoint (core n : Nat) (va : BitVec 57) (en : Bool) (ctx : BitVec 32)
  | sampling (core : Nat) (n : BitVec 5)
  | coreSelect (core n : Nat) (w : BitVec 32)
  | dieSelect (die n : Nat) (w : BitVec 32)
  | saveBase (core base : Nat)
  | traceRing (cluster base records : Nat)
  | profileRing (ctx va records : Nat)
  | demote (ctx : Nat) (tag : BitVec 12)
  | pinned (ctx va len quota : Nat)
  | context (ctx root pasid complex vector : Nat) (handler : BitVec 57)
  | completionArray (ctx va : Nat)
  | peerWindow (ctx n : Nat) (w0 w1 w2 w3 : BitVec 32)
  | overflow (ctx requests : Nat)
  | submission (page : Nat) (bound : Option (Nat × Nat))
  | reductionGroup (rgrp w0 w1 w2 : BitVec 32)
  | conjugator (die n fa da : Nat)
  | walkerSlot (die n : Nat) (entry : BitVec 57) (fa da : Nat)
  | servicePair (die : Nat) (entry : BitVec 57) (fa da base : Nat)
  | deviceId (n : BitVec 12)
  | powerCap (watts : Nat)
  | dualRoot (on : Bool)
  | debug (ctx : Nat) (on : Bool)
deriving DecidableEq, Repr

/-- A counter snapshot that the device OS asks of a core, and what it writes before it (R377; log entry 77). -/
structure SnapshotRequest where
  core : Nat
  writes : List OsWrite
deriving DecidableEq, Repr

/-- A retranslation: its entry, and the frames that the device OS gives for it (R348). -/
structure Retranslation where
  entry : Nat
  frames : List Nat
deriving DecidableEq, Repr

/-- The structure an uncorrectable error strikes (R391). -/
inductive ErrorSite where
  | hbm (pa : Nat)
  | l1 (core pa : Nat)
  | overlay (core ctx va : Nat)
  | tileOrSync (pa : Nat)
  | scratch (die core off : Nat)
  | groupState (gid : Nat)
deriving DecidableEq, Repr

/-- The steps of the machine, one constructor per row of the opcode table. -/
inductive Instr where
  /-- IADD (R78) -/
  | iadd (g : BitVec 4) (d a b : BitVec 6)
  /-- ISUB (R78) -/
  | isub (g : BitVec 4) (d a b : BitVec 6)
  /-- IMIN (R78) -/
  | imin (g : BitVec 4) (d a b : BitVec 6)
  /-- IMAX (R78) -/
  | imax (g : BitVec 4) (d a b : BitVec 6)
  /-- IMINN (R78) -/
  | iminn (g : BitVec 4) (d a b : BitVec 6)
  /-- IMAXN (R78) -/
  | imaxn (g : BitVec 4) (d a b : BitVec 6)
  /-- IADDMN (R78) -/
  | iaddmn (g : BitVec 4) (d a b : BitVec 6)
  /-- IABSD (R78) -/
  | iabsd (g : BitVec 4) (d a b : BitVec 6)
  /-- IMUL (R79) -/
  | imul (g : BitVec 4) (d a b : BitVec 6)
  /-- IMULH (R79) -/
  | imulh (g : BitVec 4) (d a b : BitVec 6)
  /-- IMULHN (R79) -/
  | imulhn (g : BitVec 4) (d a b : BitVec 6)
  /-- IMAC (R79) -/
  | imac (g : BitVec 4) (d a b : BitVec 6)
  /-- IDIV (R80) -/
  | idiv (g : BitVec 4) (d a b : BitVec 6)
  /-- IDIVN (R80) -/
  | idivn (g : BitVec 4) (d a b : BitVec 6)
  /-- IREM (R80) -/
  | irem (g : BitVec 4) (d a b : BitVec 6)
  /-- IREMN (R80) -/
  | iremn (g : BitVec 4) (d a b : BitVec 6)
  /-- SHL (R81) -/
  | shl (g : BitVec 4) (d a b : BitVec 6)
  /-- SHR (R81) -/
  | shr (g : BitVec 4) (d a b : BitVec 6)
  /-- SHRA (R81) -/
  | shra (g : BitVec 4) (d a b : BitVec 6)
  /-- ROTL (R81) -/
  | rotl (g : BitVec 4) (d a b : BitVec 6)
  /-- AND (R82) -/
  | and (g : BitVec 4) (d a b : BitVec 6)
  /-- OR (R82) -/
  | or (g : BitVec 4) (d a b : BitVec 6)
  /-- XOR (R82) -/
  | xor (g : BitVec 4) (d a b : BitVec 6)
  /-- ANDN (R82) -/
  | andn (g : BitVec 4) (d a b : BitVec 6)
  /-- ORN (R82) -/
  | orn (g : BitVec 4) (d a b : BitVec 6)
  /-- XNOR (R82) -/
  | xnor (g : BitVec 4) (d a b : BitVec 6)
  /-- POPC (R82) -/
  | popc (g : BitVec 4) (d a : BitVec 6)
  /-- CLZ (R82) -/
  | clz (g : BitVec 4) (d a : BitVec 6)
  /-- BREV (R83) -/
  | brev (g : BitVec 4) (d a : BitVec 6)
  /-- BFE (R83) -/
  | bfe (g : BitVec 4) (d a b : BitVec 6)
  /-- BFEN (R83) -/
  | bfen (g : BitVec 4) (d a b : BitVec 6)
  /-- BFI (R83) -/
  | bfi (g : BitVec 4) (d a b : BitVec 6)
  /-- IADDI (R84) -/
  | iaddi (g : BitVec 4) (d a : BitVec 6) (i : BitVec 9)
  /-- IMULI (R84) -/
  | imuli (g : BitVec 4) (d a : BitVec 6) (i : BitVec 9)
  /-- ANDI (R84) -/
  | andi (g : BitVec 4) (d a : BitVec 6) (i : BitVec 9)
  /-- ORI (R84) -/
  | ori (g : BitVec 4) (d a : BitVec 6) (i : BitVec 9)
  /-- XORI (R84) -/
  | xori (g : BitVec 4) (d a : BitVec 6) (i : BitVec 9)
  /-- SHLI (R81) -/
  | shli (g : BitVec 4) (d a : BitVec 6) (n : BitVec 5)
  /-- SHRI (R81) -/
  | shri (g : BitVec 4) (d a : BitVec 6) (n : BitVec 5)
  /-- SHRAI (R81) -/
  | shrai (g : BitVec 4) (d a : BitVec 6) (n : BitVec 5)
  /-- ROTLI (R81) -/
  | rotli (g : BitVec 4) (d a : BitVec 6) (n : BitVec 5)
  /-- MOVI (R85) -/
  | movi (g : BitVec 4) (d : BitVec 6) (i : BitVec 15)
  /-- MOV (R86) -/
  | mov (g : BitVec 4) (d a : BitVec 6)
  /-- MOVS (R86) -/
  | movs (g : BitVec 4) (d a : BitVec 6)
  /-- MOVP (R86) -/
  | movp (g : BitVec 4) (d : BitVec 6)
  /-- PMOV (R86) -/
  | pmov (g : BitVec 4) (a b : BitVec 6)
  /-- LSR (R86) -/
  | lsr (g : BitVec 4) (d b : BitVec 6)
  /-- ISET (R89) -/
  | iset (g : BitVec 4) (c : BitVec 2) (p : BitVec 4) (a b : BitVec 6) (f : BitVec 3)
  /-- PAND (R90) -/
  | pand (g d a b : BitVec 4)
  /-- POR (R90) -/
  | por (g d a b : BitVec 4)
  /-- PXOR (R90) -/
  | pxor (g d a b : BitVec 4)
  /-- PANDN (R90) -/
  | pandn (g d a b : BitVec 4)
  /-- PNOT (R90) -/
  | pnot (g d a : BitVec 4)
  /-- PSET (R90) -/
  | pset (g d : BitVec 4)
  /-- PCLR (R90) -/
  | pclr (g d : BitVec 4)
  /-- FADD (R100) -/
  | fadd (g : BitVec 4) (d a b : BitVec 6)
  /-- FSUB (R100) -/
  | fsub (g : BitVec 4) (d a b : BitVec 6)
  /-- FMUL (R100) -/
  | fmul (g : BitVec 4) (d a b : BitVec 6)
  /-- FFMA (R100) -/
  | ffma (g : BitVec 4) (d a b : BitVec 6)
  /-- FMIN (R101) -/
  | fmin (g : BitVec 4) (d a b : BitVec 6)
  /-- FMAX (R101) -/
  | fmax (g : BitVec 4) (d a b : BitVec 6)
  /-- FADDMN (R100) -/
  | faddmn (g : BitVec 4) (d a b : BitVec 6)
  /-- FNFMA (R100) -/
  | fnfma (g : BitVec 4) (d a b : BitVec 6)
  /-- FSET (R102) -/
  | fset (g : BitVec 4) (c : BitVec 2) (p : BitVec 4) (a b : BitVec 6) (f : BitVec 3)
  /-- HPADD (R103) -/
  | hpadd (g : BitVec 4) (d a b : BitVec 6)
  /-- HPSUB (R103) -/
  | hpsub (g : BitVec 4) (d a b : BitVec 6)
  /-- HPMUL (R103) -/
  | hpmul (g : BitVec 4) (d a b : BitVec 6)
  /-- HPFMA (R103) -/
  | hpfma (g : BitVec 4) (d a b : BitVec 6)
  /-- HPMIN (R103) -/
  | hpmin (g : BitVec 4) (d a b : BitVec 6)
  /-- HPMAX (R103) -/
  | hpmax (g : BitVec 4) (d a b : BitVec 6)
  /-- FRCP (R104) -/
  | frcp (g : BitVec 4) (d a : BitVec 6)
  /-- FRSQ (R104) -/
  | frsq (g : BitVec 4) (d a : BitVec 6)
  /-- FSQRT (R104) -/
  | fsqrt (g : BitVec 4) (d a : BitVec 6)
  /-- FEX2 (R104) -/
  | fex2 (g : BitVec 4) (d a : BitVec 6)
  /-- FLG2 (R104) -/
  | flg2 (g : BitVec 4) (d a : BitVec 6)
  /-- FSIN (R104) -/
  | fsin (g : BitVec 4) (d a : BitVec 6)
  /-- FCOS (R104) -/
  | fcos (g : BitVec 4) (d a : BitVec 6)
  /-- FTANH (R104) -/
  | ftanh (g : BitVec 4) (d a : BitVec 6)
  /-- CVT (R106) -/
  | cvt (g : BitVec 4) (d a : BitVec 6) (u v r : BitVec 3)
  /-- PKH (R107) -/
  | pkh (g : BitVec 4) (d a b : BitVec 6)
  /-- UPKL (R107) -/
  | upkl (g : BitVec 4) (d a : BitVec 6)
  /-- UPKH (R107) -/
  | upkh (g : BitVec 4) (d a : BitVec 6)
  /-- PKB (R107) -/
  | pkb (g : BitVec 4) (d a b : BitVec 6)
  /-- UPKB (R107) -/
  | upkb (g : BitVec 4) (d a b : BitVec 6)
  /-- PKN (R107) -/
  | pkn (g : BitVec 4) (d a b : BitVec 6)
  /-- UPKN (R107) -/
  | upkn (g : BitVec 4) (d a b : BitVec 6)
  /-- LPERM.ABS (R144) -/
  | lpermAbs (g : BitVec 4) (d a b : BitVec 6)
  /-- LPERM.BACK (R144) -/
  | lpermBack (g : BitVec 4) (d a b : BitVec 6)
  /-- LPERM.FWD (R144) -/
  | lpermFwd (g : BitVec 4) (d a b : BitVec 6)
  /-- LPERM.FLIP (R144) -/
  | lpermFlip (g : BitVec 4) (d a b : BitVec 6)
  /-- LANY (R145) -/
  | lany (g : BitVec 4) (d a : BitVec 6)
  /-- LALL (R145) -/
  | lall (g : BitVec 4) (d a : BitVec 6)
  /-- LMASK (R145) -/
  | lmask (g : BitVec 4) (d a : BitVec 6)
  /-- LSAME (R145) -/
  | lsame (g : BitVec 4) (d a : BitVec 6)
  /-- RDXADD (R146) -/
  | rdxadd (g : BitVec 4) (d a : BitVec 6)
  /-- RDXMIN (R146) -/
  | rdxmin (g : BitVec 4) (d a : BitVec 6)
  /-- RDXMAX (R146) -/
  | rdxmax (g : BitVec 4) (d a : BitVec 6)
  /-- SCANADD (R146) -/
  | scanadd (g : BitVec 4) (d a : BitVec 6)
  /-- SCANADDX (R146) -/
  | scanaddx (g : BitVec 4) (d a : BitVec 6)
  /-- RANK (R146) -/
  | rank (g : BitVec 4) (d a : BitVec 6)
  /-- COUNT (R146) -/
  | count (g : BitVec 4) (d a b : BitVec 6)
  /-- FRDXADD (R147) -/
  | frdxadd (g : BitVec 4) (d a : BitVec 6)
  /-- LD (R205) -/
  | ld (g : BitVec 4) (t a : BitVec 6) (b z m : BitVec 3)
  /-- ST (R206) -/
  | st (g : BitVec 4) (t a : BitVec 6) (b z m : BitVec 3)
  /-- LDS (R207) -/
  | lds (g : BitVec 4) (t a : BitVec 6) (z m : BitVec 3)
  /-- STS (R207) -/
  | sts (g : BitVec 4) (t a : BitVec 6) (z m : BitVec 3)
  /-- ATOM (R209) -/
  | atom (g : BitVec 4) (t a : BitVec 6) (b o u : BitVec 3)
  /-- RED (R209) -/
  | red (g : BitVec 4) (t a : BitVec 6) (b o u : BitVec 3)
  /-- SATOM (R209) -/
  | satom (g : BitVec 4) (t a : BitVec 6) (o u : BitVec 3)
  /-- OBJCALL (R284) -/
  | objcall (g : BitVec 4) (d a h : BitVec 6) (m : BitVec 3)
  /-- BRA (R111) -/
  | bra (g : BitVec 4) (o : BitVec 21)
  /-- BRAU (R148) -/
  | brau (g : BitVec 4) (o : BitVec 21)
  /-- JOINAT (R112) -/
  | joinat (g : BitVec 4) (o : BitVec 21)
  /-- CALL (R113) -/
  | call (g : BitVec 4) (o : BitVec 21)
  /-- CALLR (R113) -/
  | callr (g : BitVec 4) (a : BitVec 6)
  /-- CALLR.U (R133) -/
  | callrU (a : BitVec 6)
  /-- RET (R114) -/
  | ret (g : BitVec 4)
  /-- FRAME (R14) -/
  | frame (n : BitVec 3)
  /-- EXIT (R116) -/
  | exit (g : BitVec 4)
  /-- BSYNC (R150) -/
  | bsync (g : BitVec 4) (n : BitVec 7)
  /-- BARV (R150) -/
  | barv (g : BitVec 4) (n : BitVec 7)
  /-- BWAIT (R150) -/
  | bwait (g : BitVec 4) (n : BitVec 7)
  /-- XLD (R87) -/
  | xld (g : BitVec 4) (d : BitVec 6) (i : BitVec 2) (k : BitVec 12)
  /-- XST (R87) -/
  | xst (g : BitVec 4) (d : BitVec 6) (i : BitVec 2) (k : BitVec 12)
  /-- TRAP (R118) -/
  | trap (g : BitVec 4) (n : BitVec 8)
  /-- BKPT (R118) -/
  | bkpt (g : BitVec 4) (c : BitVec 15)
  /-- OBJRET (R285) -/
  | objret (g : BitVec 4) (a : BitVec 6)
  /-- OBJRET.ERR (R285) -/
  | objretErr (g : BitVec 4) (a : BitVec 6)
  /-- EXT (R50) -/
  | extImmediate (i : BitVec 24)
  /-- EXT (R51) -/
  | extOperand (c : BitVec 6) (s : BitVec 3) (w n f : BitVec 1) (m : BitVec 12)
  /-- SADD (R91) -/
  | sadd (g : BitVec 4) (d a b : BitVec 6)
  /-- SSUB (R91) -/
  | ssub (g : BitVec 4) (d a b : BitVec 6)
  /-- SMIN (R91) -/
  | smin (g : BitVec 4) (d a b : BitVec 6)
  /-- SMAX (R91) -/
  | smax (g : BitVec 4) (d a b : BitVec 6)
  /-- SMINN (R91) -/
  | sminn (g : BitVec 4) (d a b : BitVec 6)
  /-- SMAXN (R91) -/
  | smaxn (g : BitVec 4) (d a b : BitVec 6)
  /-- SMUL (R91) -/
  | smul (g : BitVec 4) (d a b : BitVec 6)
  /-- SMULH (R91) -/
  | smulh (g : BitVec 4) (d a b : BitVec 6)
  /-- SAND (R92) -/
  | sand (g : BitVec 4) (d a b : BitVec 6)
  /-- SOR (R92) -/
  | sor (g : BitVec 4) (d a b : BitVec 6)
  /-- SXOR (R92) -/
  | sxor (g : BitVec 4) (d a b : BitVec 6)
  /-- SANDN (R92) -/
  | sandn (g : BitVec 4) (d a b : BitVec 6)
  /-- SSHL (R92) -/
  | sshl (g : BitVec 4) (d a b : BitVec 6)
  /-- SSHR (R92) -/
  | sshr (g : BitVec 4) (d a b : BitVec 6)
  /-- SSHRA (R92) -/
  | sshra (g : BitVec 4) (d a b : BitVec 6)
  /-- SPOPC (R92) -/
  | spopc (g : BitVec 4) (d a : BitVec 6)
  /-- SADDI (R93) -/
  | saddi (g : BitVec 4) (d a : BitVec 6) (i : BitVec 9)
  /-- SMOVI (R93) -/
  | smovi (g : BitVec 4) (d : BitVec 6) (i : BitVec 15)
  /-- SMOV (R94) -/
  | smov (g : BitVec 4) (d a : BitVec 6)
  /-- SMOV64 (R94) -/
  | smov64 (g : BitVec 4) (d a : BitVec 6)
  /-- SRD (R95) -/
  | srd (g : BitVec 4) (d : BitVec 6) (r : BitVec 12)
  /-- SWR (R95) -/
  | swr (g : BitVec 4) (d : BitVec 6) (r : BitVec 12)
  /-- SLANE (R96) -/
  | slane (g : BitVec 4) (d a b : BitVec 6)
  /-- SSET (R97) -/
  | sset (g : BitVec 4) (c : BitVec 2) (p : BitVec 4) (a b : BitVec 6) (f : BitVec 3)
  /-- QAND (R97) -/
  | qand (g d a b : BitVec 4)
  /-- QOR (R97) -/
  | qor (g d a b : BitVec 4)
  /-- QXOR (R97) -/
  | qxor (g d a b : BitVec 4)
  /-- QANDN (R97) -/
  | qandn (g d a b : BitVec 4)
  /-- QNOT (R97) -/
  | qnot (g d a : BitVec 4)
  /-- QSET (R97) -/
  | qset (g d : BitVec 4)
  /-- QCLR (R97) -/
  | qclr (g d : BitVec 4)
  /-- SBRA (R117) -/
  | sbra (g : BitVec 4) (o : BitVec 21)
  /-- JSEG (R117) -/
  | jseg (g : BitVec 4) (o : BitVec 21)
  /-- SLD (R211) -/
  | sld (g : BitVec 4) (t a : BitVec 6) (b z m : BitVec 3)
  /-- SST (R211) -/
  | sst (g : BitVec 4) (t a : BitVec 6) (b z m : BitVec 3)
  /-- TBSET (R212) -/
  | tbset (g : BitVec 4) (n : BitVec 3) (a b : BitVec 6)
  /-- FENCE (R214) -/
  | fence (g : BitVec 4) (s : BitVec 3) (k : BitVec 2) (y : BitVec 1)
  /-- FMTSET (R108) -/
  | fmtset (g : BitVec 4) (i : BitVec 15)
  /-- SETIX (R98) -/
  | setix (g : BitVec 4) (i : BitVec 2) (a : BitVec 6)
  /-- ADDIX (R98) -/
  | addix (g : BitVec 4) (i : BitVec 2) (a : BitVec 6)
  /-- BARINIT (R153) -/
  | barinit (g : BitVec 4) (n : BitVec 7) (u : BitVec 1) (b : BitVec 6)
  /-- CP.G2S (R268) -/
  | cpG2s (g : BitVec 4) (d a : BitVec 6)
  /-- CP.S2G (R268) -/
  | cpS2g (g : BitVec 4) (d a : BitVec 6)
  /-- CP.G2G (R268) -/
  | cpG2g (g : BitVec 4) (d a : BitVec 6)
  /-- CP.GATH (R268) -/
  | cpGath (g : BitVec 4) (d a : BitVec 6)
  /-- CP.REG (R268) -/
  | cpReg (g : BitVec 4) (d a : BitVec 6)
  /-- CP.ACC (R268) -/
  | cpAcc (g : BitVec 4) (d a : BitVec 6)
  /-- CP.MMA (R240) -/
  | cpMma (g : BitVec 4) (d a : BitVec 6)
  /-- BFC (R269) -/
  | bfc (g : BitVec 4) (d : BitVec 6)
  /-- BFM (R269) -/
  | bfm (g : BitVec 4) (d : BitVec 6)
  /-- WAITC (R270) -/
  | waitc (g : BitVec 4) (a : BitVec 6)
  /-- WAITM (R270) -/
  | waitm (g : BitVec 4) (a : BitVec 6)
  /-- MMA (R271) -/
  | mma (g : BitVec 4) (d a : BitVec 6)
  /-- MMAG (R272) -/
  | mmag (g : BitVec 4) (d a b : BitVec 6)
  /-- MMAF (R273) -/
  | mmaf (g : BitVec 4)
  /-- ACCZ (R274) -/
  | accz (g t n : BitVec 4)
  /-- ACCRD (R275) -/
  | accrd (g : BitVec 4) (d : BitVec 6) (t : BitVec 4) (c : BitVec 3)
  /-- ACCRS (R276) -/
  | accrs (g t : BitVec 4) (a : BitVec 6)
  /-- MMV (R277) -/
  | mmv (g : BitVec 4) (d a : BitVec 6)
  /-- CFETCH (R279) -/
  | cfetch (g : BitVec 4) (a : BitVec 6)
  /-- CINV (R280) -/
  | cinv (g : BitVec 4) (s : BitVec 3) (a : BitVec 6)
  /-- OBJDEF (R281) -/
  | objdef (g : BitVec 4) (d a : BitVec 6)
  /-- OBJDEL (R282) -/
  | objdel (g : BitVec 4) (a : BitVec 6)
  /-- OBJEND (R283) -/
  | objend (g : BitVec 4)
  /-- LAUNCH (R286) -/
  | launch (g : BitVec 4) (d a : BitVec 6)
  /-- CNTINC (R287) -/
  | cntinc (g : BitVec 4) (d a : BitVec 6) (l : BitVec 2)
  /-- CNTWAIT (R287) -/
  | cntwait (g : BitVec 4) (a : BitVec 6) (l : BitVec 2)
  /-- CANCEL (R287) -/
  | cancel (g : BitVec 4) (a : BitVec 6) (l : BitVec 2)
  /-- CNTRD (R287) -/
  | cntrd (g : BitVec 4) (d a : BitVec 6) (l : BitVec 2)
  /-- CRED.SUM (R288) -/
  | credSum (g : BitVec 4) (d a : BitVec 6)
  /-- CRED.MAX (R288) -/
  | credMax (g : BitVec 4) (d a : BitVec 6)
  /-- CRED.MIN (R288) -/
  | credMin (g : BitVec 4) (d a : BitVec 6)
  /-- SYSCALL (R330) -/
  | syscall (g : BitVec 4) (i : BitVec 15)
  /-- WALKNEXT (R325) -/
  | walknext (g : BitVec 4) (d a : BitVec 6)
  /-- TLBFILL (R326) -/
  | tlbfill (g : BitVec 4) (a b : BitVec 6)
  /-- TLBDONE (R327) -/
  | tlbdone (g : BitVec 4) (a b : BitVec 6)
  /-- TLBINV (R329) -/
  | tlbinv (g : BitVec 4) (a b : BitVec 6)
  /-- ATSREQ (R328) -/
  | atsreq (g : BitVec 4) (a b : BitVec 6)
  /-- PRIREQ (R328) -/
  | prireq (g : BitVec 4) (a : BitVec 6)
  /-- RFT (R307) -/
  | rft (g : BitVec 4)
  /-- TKILL (R307) -/
  | tkill (g : BitVec 4)
  /-- TEND (R307) -/
  | tend (g : BitVec 4)
  /-- YIELD (R215) -/
  | yield (g : BitVec 4)
  /-- JSEGR (R117) -/
  | jsegr (g : BitVec 4) (a : BitVec 6)
  /-- LOAD_SECTOR_RETURN (R203) -/
  | loadSectorReturn (sid : Nat)
  /-- STORE_PERFORM (R191) -/
  | storePerform (id : Nat)
  /-- ATOMIC_PERFORM (R209) -/
  | atomicPerform (id : Nat)
  /-- QUANTUM_RED_FLUSH (R196) -/
  | quantumRedFlush (sid : Nat)
  /-- INVALIDATION_COMPLETION (R369) -/
  | invalidationCompletion (id : Nat)
  /-- FRAGMENT_RESUME (R290) -/
  | fragmentResume (sid : Nat)
  /-- HANDLER_ENTRY_RESUME (R301) -/
  | handlerEntryResume (sid : Nat)
  /-- DEMAND_SPILL_DONE (R184) -/
  | demandSpillDone (sid : Nat)
  /-- COMMAND_ACCEPT (R219) -/
  | commandAccept (id : Nat)
  /-- COPY_COMPLETE (R226) -/
  | copyComplete (id : Nat)
  /-- MATRIX_OPERATION (R233) -/
  | matrixOperation (gid : Nat)
  /-- JOINT_MMA_START (R234) -/
  | jointMmaStart (id : Nat)
  /-- MMAG_ENTRY (R239) -/
  | mmagEntry (id : Nat)
  /-- CP_MMA_HANDOFF (R240) -/
  | cpMmaHandoff (id : Nat)
  /-- MMV_COMPLETE (R241) -/
  | mmvComplete (id : Nat)
  /-- OVERLAY_FETCH_COMPLETE (R242) -/
  | overlayFetchComplete (core ctx va : Nat)
  /-- ENTRY_SEGMENT_FETCH (R244) -/
  | entrySegmentFetch (uid : Nat)
  /-- OBJCALL_SEND (R247) -/
  | objcallSend (sid : Nat)
  /-- OBJECT_REQUEST_ARRIVAL (R247) -/
  | objectRequestArrival (id : Nat)
  /-- CONJUGATOR_BATCH_START (R248) -/
  | conjugatorBatchStart (die : Nat)
  /-- METHOD_FAULT_RERUN (R252) -/
  | methodFaultRerun (sid : Nat)
  /-- OBJECT_REPLY_ARRIVAL (R284) -/
  | objectReplyArrival (id : Nat)
  /-- OBJDEL_AT_HOME (R282) -/
  | objdelAtHome (ctx : Nat) (handle : BitVec 32)
  /-- RECORD_VALIDATION (R260) -/
  | recordValidation (ctx queue : Nat)
  /-- LAUNCH_RECORD_READ (R286) -/
  | launchRecordRead (id : Nat)
  /-- LAUNCH_FIRE (R261) -/
  | launchFire (ctx : Nat)
  /-- UNIT_PLACEMENT (R121) -/
  | unitPlacement (lid : Nat)
  /-- GROUP_END (R116) -/
  | groupEnd (gid : Nat)
  /-- LAUNCH_COMPLETE (R262) -/
  | launchComplete (lid : Nat)
  /-- CRED_CONTRIBUTION_ARRIVAL (R357) -/
  | credContributionArrival (id : Nat)
  /-- EXM_WRITE (R95) -/
  | exmWrite (hi : Bool) (v : BitVec 32)
  /-- UNIFSTK_CLEAR (R95) -/
  | unifstkClear (v : BitVec 32)
  /-- ECNT_LOW_READ (R372) -/
  | ecntLowRead (n : BitVec 4)
  /-- STREAM_PROMOTION (R141) -/
  | streamPromotion (sid : Nat)
  /-- ATS_COMPLETION (R328) -/
  | atsCompletion (sid lane : Nat) (addr : BitVec 64) (status : BitVec 32)
  /-- PRI_RESPONSE (R361) -/
  | priResponse (ctx va : Nat) (success : Bool)
  /-- ATS_INVALIDATION_REQUEST (R362) -/
  | atsInvalidationRequest (pasid va pages : Nat)
  /-- PAGE_FAULT_REPAIR (R300) -/
  | pageFaultRepair (ctx va : Nat) (answer : PagerAnswer)
  /-- PAGE_MIGRATION (R171) -/
  | pageMigration (ctx va frame : Nat)
  /-- BACKGROUND_SPILL (R183) -/
  | backgroundSpill (gid lane : Nat)
  /-- BACKGROUND_REFILL (R183) -/
  | backgroundRefill (gid lane : Nat)
  /-- COPY_PAGE_FAULT (R227) -/
  | copyPageFault (id va : Nat)
  /-- COPY_RESUME (R227) -/
  | copyResume (id : Nat)
  /-- CINV_DEFERRED_DROP (R243) -/
  | cinvDeferredDrop (core : Nat)
  /-- OBJECT_BATCH_WATCHDOG (R252) -/
  | objectBatchWatchdog (sid : Nat)
  /-- DOORBELL_DMWR (R364) -/
  | doorbellDmwr (page off pasid : Nat) (data : List (BitVec 8))
  /-- DOORBELL_POSTED_WRITE (R364) -/
  | doorbellPostedWrite (page off : Nat)
  /-- STEAL_MESSAGE (R263) -/
  | stealMessage (lid die : Nat)
  /-- SYSCALL_REPLY (R330) -/
  | syscallReply (uid : Nat) (status value : BitVec 32)
  /-- PEER_ACCESS (R354) -/
  | peerAccess (dev : BitVec 12) (num : Nat) (m : PeerMsg)
  /-- LINK_FLIT_FAILURE (R352) -/
  | linkFlitFailure (port : Nat) (passed : Bool)
  /-- PREEMPT_REQUEST (R312) -/
  | preemptRequest (uid area : Nat)
  /-- UNIT_RESTART (R316) -/
  | unitRestart (uid die core : Nat)
  /-- CONTEXT_SWITCH (R317) -/
  | contextSwitch (ctx : Nat) (areas : List Nat)
  /-- CANCEL_TIMEOUT (R318) -/
  | cancelTimeout (sid : Nat)
  /-- PRECISE_STOP (R374) -/
  | preciseStop (uid area : Nat)
  /-- SINGLE_STEP (R374) -/
  | singleStep (uid die core : Nat)
  /-- TRACE_DRAIN (R377) -/
  | traceDrain (cluster : Nat)
  /-- GATE_DRAIN_TIMEOUT (R380) -/
  | gateDrainTimeout (cluster : Nat)
  /-- CLUSTER_IDLE_GATE (R393) -/
  | clusterIdleGate (cluster : Nat)
  /-- CLUSTER_WAKE (R393) -/
  | clusterWake (cluster : Nat)
  /-- POWER_MEASUREMENT (R394) -/
  | powerMeasurement (watts : Nat)
  /-- COLD_START (R382) -/
  | coldStart (report : StartReport)
  /-- WARM_START (R383) -/
  | warmStart (report : StartReport)
  /-- ATTESTATION_REQUEST (R386) -/
  | attestationRequest (nonce : BitVec 512) (ctx : Nat)
  /-- LEADER_TAKEOVER (R389) -/
  | leaderTakeover (die : Nat)
  /-- LOCKSTEP_MISMATCH (R387) -/
  | lockstepMismatch (die : Nat)
  /-- UNCORRECTABLE_ERROR (R391) -/
  | uncorrectableError (site : ErrorSite)
  /-- PATROL_SCRUB (R391) -/
  | patrolScrub (die corrected : Nat)
  /-- WATCHDOG_EXPIRY (R306) -/
  | watchdogExpiry (sid : Nat)
  /-- CONTEXT_TEARDOWN (R254) -/
  | contextTeardown (ctx : Nat)
  /-- CODE_OBJECT_LOAD (R341) -/
  | codeObjectLoad (ctx base : Nat) (frames : List Nat) (image : List (BitVec 8))
  /-- RETRANSLATION_INSTALL (R348) -/
  | retranslationInstall (ctx entry : Nat) (r : Retranslation)
  /-- TILE_COMMAND_COMPLETE (R237) -/
  | tileCommandComplete (gid : Nat)
  /-- COUNTER_SNAPSHOT_REQUEST (R377) -/
  | counterSnapshotRequest (r : SnapshotRequest)
  /-- CONFIDENTIAL_CONTEXT_REQUEST (R392) -/
  | confidentialContextRequest (ctx : Nat)
  /-- NOP (R119) -/
  | nop
  /-- HINT (R119) -/
  | hint
  /-- SNOP (R119) -/
  | snop
  /-- CLOCK_LOW_READ (R56) -/
  | clockLowRead
  /-- CLAUSE_FETCH (R128) -/
  | clauseFetch
  /-- MIGRATION_WINDOW_END (R171) -/
  | migrationWindowEnd
  /-- THERMAL_FORCED_GATE (R394) -/
  | thermalForcedGate
  /-- THERMAL_SHUTDOWN (R394) -/
  | thermalShutdown
  /-- HEARTBEAT_WRITE (R389) -/
  | heartbeatWrite
deriving DecidableEq, Repr

end Sys2Proof
end

