-- ==== Sys2Proof/Config.lean ====
section
/-!
DEFINITION. What an implementation fixes: the sizes of the part (R2, R158, R161) and the free values, which the spec leaves open and nothing in Lean can evaluate (log entries 6, 7 and 11).
-/
namespace Sys2Proof.Config

/-- Dies of the device (R2). -/
def dies : Nat := 4

/-- Cores of a die (R2). -/
def coresPerDie : Nat := 36

/-- HBM bytes of a die; die d owns [d * hbmPerDie, (d + 1) * hbmPerDie) (R158). -/
def hbmPerDie : Nat := 0x3000000000

/-- Bytes of HBM in all (R158). -/
def hbmBytes : Nat := 0xC000000000

/-- First on-chip physical address (R159). -/
def onChip : Nat := 0x800000000000

/-- First physical address above the on-chip windows (R158). -/
def onChipEnd : Nat := 0xC00000000000

/-- FEAT0 of this part (R60). -/
def feat0 : Word := 0x00000FFB

/-- The number of the device OS's own context (log entry 10). -/
def osCtx : Nat := 0

/-- Entries of a core's L1 TLB (R175) and sectors of its L1 data cache (R164). -/
def tlbEntries : Nat := 256
def l1Sectors : Nat := 8192

/-- The SFU's own approximation of 2^a, log2 a, sin a, cos a and tanh a, and which way FRCP and FRSQ round (R104). -/
opaque ex2 : Word → Word
opaque lg2 : Word → Word
opaque sin : Word → Word
opaque cos : Word → Word
opaque tanh : Word → Word
opaque rcpUp : Word → Bool
opaque rsqUp : Word → Bool

/-- A value the spec calls undefined, a fresh one for each count of State.free. -/
opaque freeWord : Nat → Word
opaque freeByte : Nat → Byte

/-- Lines that the memory-backed overflow area of a die's synchronisation engine holds (R170). -/
opaque syncOverflow : Nat

/-- Requests that the on-chip queues of an object's home hold for a context (R247). -/
opaque objQueue : Nat

/-- Page requests that the host's PRI capability lets the device keep outstanding, beside the first one (R328, R361). -/
opaque pageRequests : Nat

/-- What the starts of a device find from power-on, by the count of the failures so far (R382, R384). -/
opaque starts : Nat → StartReport

/-- SHA-512, the digest that measurement uses (R382, R385). -/
opaque sha512 : List Byte → BitVec 512

/-- The part's ECDSA P-521 signature under a private key, r in the high 528 bits and s in the low ones (R385, R386). -/
opaque sign : BitVec 512 → List Byte → BitVec 1056

/-- The public key of a private one (R385), and whether a signature of a hash verifies under a public key (R382). -/
opaque publicKey : BitVec 512 → List Byte
opaque verify : List Byte → BitVec 1056 → BitVec 512 → Bool

/-- The entry of the service pairs' trap handler, which the authenticated firmware fixes (R388). -/
opaque pairHandler : List Byte → CodeVa

/-- The code that the translator makes of a region that is not plain: its words, its call depth, whether its float sums are unordered (R347, log entry 79). -/
opaque umellRegion : List Word → Nat → Bool → List Word

/-- How the translator cuts the code of an entry that fills more than a segment: the module, the first region and their count (R347). -/
opaque umellCode : List Byte → Nat → Nat → List (List Word)

/-- What the profile-guided retranslation makes of an entry of a module, from the stall cycles by class and the count of samples of its launches: the mapping of each region, the first of the list that of the first region, and the code (R347, R348). -/
opaque umellRetranslate : List Byte → Nat → List Nat → Nat → List UmellMapping × List (List Word)

/-- AES-256-XTS under a context's key with a sector's number as the tweak: a permutation of the sector's 32 bytes (R392). -/
opaque sectorCipher : Nat → Nat → Equiv.Perm (BitVec 256)

/-- The module power in watts that each measurement finds (R394). -/
opaque power : Nat → Nat

/-- HKDF-SHA-512, by which the device's keys are derived (R385). -/
opaque derive : BitVec 512 → List Byte → BitVec 512

end Sys2Proof.Config
end

