-- ==== Sys2Proof/Machine/State.lean ====
section
/-!
DEFINITION. The state of the machine as plain data: everything the spec names (INVENTORY.md lists each piece with its rule), the reasons a step can stop, and the state after reset.
The issuing stream, its group and its unit stand in the fields st, gr and un; the lists streams, groups and units hold every other one.
-/
namespace Sys2Proof.Machine

/-- Byte memory: cells with strictly rising addresses, none holding 0, which every unlisted address reads as (log entry 5). -/
abbrev Memory := List Host.Cell

/-- Where a byte lives: device physical memory (R158), the same through a page with ENC = 1 under its context's key (R392), or host memory (R361). -/
inductive Loc where
  | dev (a : Nat)
  | host (a : Nat)
  | enc (key a : Nat)
deriving DecidableEq, Repr

/-- The trap causes of R59. -/
inductive Cause where
  | illegal | misalign | prot | regBound | segAbsent | segEdge | unif | bkpt | trapi | mshape
  | mscale | mkind | batcherr | objerr | frameOvf | priv | syserr | watchdog | double
deriving DecidableEq, Repr

/-- An entry of a path stack (R125, R126). -/
structure PathEntry where
  join : Bool
  addr : CodeVa
  depth : Word
  mask : Mask
  fmt : Word
deriving DecidableEq, Repr

/-- What a page grants (R178). -/
structure Perms where
  r : Bool
  w : Bool
  x : Bool
deriving DecidableEq, Repr

/-- A translation register (R172 to R174). -/
structure TransReg where
  bound : Bool
  va : Nat
  len : Nat
  run : Nat
  limit : Nat
  perms : Perms
  stale : Bool
  /-- the key under which the run's sectors are encrypted (R392) -/
  key : Option Nat := none
deriving DecidableEq, Repr

/-- The operand extension of an EXT with K = 1 (R49, R51), or the immediate of one with K = 0 (R50). -/
inductive Ext where
  | imm (x : BitVec 24)
  | opnd (c : BitVec 6) (scope : BitVec 3) (w64 sgn flt : Bool) (modx : BitVec 12)
deriving DecidableEq, Repr

/-- A fault that a lane met at an instruction (R289, R290). lane 64: the access is the whole path's (R125, R211). settled: the answer, once there is one. -/
structure LaneFault where
  lane : Nat
  va : Nat
  write : Bool
  host : Bool
  spill : Bool
  refused : Bool
  settled : Option Bool
  /-- no fault yet: the translation misses, and a walker routine has still to walk it (R324); or the device has still to ask a peer (R354) -/
  miss : Bool := false
  /-- what the device writes there for the stream, which a peer needs to know, and how many bytes -/
  data : Nat := 0
  bytes : Nat := 4
  /-- nobody repairs it (R300, R354, R361) -/
  dead : Bool := false
deriving DecidableEq, Repr

/-- What a stream is (R187, R248, R321). The number is the fragment-table entry, conjugator unit or walker slot. -/
inductive StreamKind where
  | home
  | fragment (entry : Nat)
  | wave (conj : Nat)
  | walker (slot : Nat)
  | pair
deriving DecidableEq, Repr

/-- What a stream waits for (R127, R136, R142, R298, R314). -/
inductive StreamStatus where
  | runnable
  | waitPlaced
  | waitFlags
  | waitBarrier (n : Nat)
  | waitJoin
  | waitCopy (b : Word)
  | waitMatrix (b : Word)
  | waitCounter (level : Nat) (id : Word)
  | waitSyscall
  | waitReplies
  | waitObjdel (handle : Word)
  | waitAccept (id : Nat)
  | waitWalk
  | waitRequests
  | waitPeer
  | waitSpill
  | waitFetch (va : Nat)
  | waitOrder
  | parked
  | entryParked
  | arrived
  | stopped
  | ended
deriving DecidableEq, Repr

/-- A lane's demand on the spill engine (R184): lowres must reach need; a spill stops at bound, and words are linkage words that the CALL gives the frame. -/
structure Demand where
  lane : Nat
  spill : Bool
  need : Nat
  bound : Nat
  words : List (Nat × Word)
deriving DecidableEq, Repr

/-- The restart point and its snapshot (R309, R311). -/
structure RestartPoint where
  pc : CodeVa
  hdr : Word
  pos : Nat
  exm : Mask
  fmt : Word
  dep : Word
  pathd : Nat
  cbatch : Word
  mbatch : Word
  flags : BitVec 12
deriving DecidableEq, Repr

/-- The trap registers (R304, R323), DBGST (R372) and the trap state (R302). -/
structure TrapRegs where
  cause : BitVec 8
  instr : Word
  pc : CodeVa
  mask : Mask
  hdr : Word
  fl : BitVec 24
  depth : Word
  cmdPc : CodeVa
  cmdSeq : Word
  frag : BitVec 16
  dbgst : BitVec 8
  et : Mask
  hpathd : Nat
  hdep : Word
  tfmt : Word
  /-- the address of the trapped instruction, which RFT compares TPC with (R307) -/
  at_ : CodeVa
  /-- its position in its clause -/
  pos : Nat
  /-- whether tb7 was bound at the trap, which the save block does not say (log entry 17) -/
  tb7 : Bool
deriving DecidableEq, Repr

/-- One lane's share of a load: where it reads, its size, and the destination words; none is discarded (R203, R205). undef: its bytes lie where a read is undefined (R157, R226). -/
structure LoadLane where
  lane : Nat
  loc : Loc
  size : Nat
  signed : Bool
  undef : Bool
  words : List (Option Nat)
deriving DecidableEq, Repr

/-- An outstanding sector of a load (R203): the flag its instruction counts on, given with its last sector. sample: the sample that its instruction is (R378). -/
structure LoadSector where
  id : Nat
  scalar : Bool
  sector : Loc
  reads : List LoadLane
  useL1 : Bool
  flag : Option Nat
  sample : Option Nat
deriving DecidableEq, Repr

/-- One lane's share of an atomic (R209). words: where the old value lands, empty for RED. -/
structure AtomLane where
  lane : Nat
  loc : Loc
  size : Nat
  opa : BitVec 3
  v : Pair
  nv : Pair
  sgn : Bool
  flt : Bool
  words : List (Option Nat)
  /-- its page may migrate (R171) -/
  movable : Bool
  /-- what it reads is undefined (R157, R226) -/
  undef : Bool := false
deriving DecidableEq, Repr

/-- A quantum RED held in its agent (R196). -/
structure HeldRed where
  op : AtomLane
  since : Nat
  /-- the lanes that it holds of samples, each with its sample, 0 while its instruction has still to retire (R378) -/
  samples : List (Nat × Nat) := []
deriving DecidableEq, Repr

/-- One lane's request to an object (R247). -/
structure ObjRequest where
  id : Nat
  ctx : Nat
  handle : Word
  method : BitVec 3
  a0 : Word
  a1 : Word
  lane : Nat
  sid : Nat
  at_ : Nat
deriving DecidableEq, Repr

/-- A reply on its way to a requesting lane (R284): the value, or the cause of an error reply. -/
structure ObjReply where
  id : Nat
  sid : Nat
  lane : Nat
  value : Word
  error : Option Cause
deriving DecidableEq, Repr

/-- A conjugator batch (R248 to R252). started: it runs, since the cycle start; a batch that waits for a repair has still to start. buf is the buffered state, by virtual address; refused: the pages that it has been refused once (R202). -/
structure Wave where
  obj : Nat
  started : Bool
  refused : List Nat
  reqs : List ObjRequest
  replies : List (Nat × Word × Bool)
  buf : List (Nat × Byte)
  start : Nat
  stateVa : Nat
  stateSize : Nat
deriving DecidableEq, Repr

/-- A lane's access through a peer window and the peer's answer to it, once there is one (R354). sure: it performs; else it asks whether the peer has the page (R202). -/
structure PeerLane where
  lane : Nat
  va : Nat
  write : Bool
  answer : Option PeerAnswer
  sure : Bool := false
deriving DecidableEq, Repr

/-- An instruction stream: a group's home path, a fragment, a wave, a walker slot or a service pair. -/
structure Stream where
  sid : Nat
  gid : Nat
  kind : StreamKind
  status : StreamStatus
  pc : CodeVa
  hdr : Word
  pos : Nat
  ext : Option Ext
  /-- PC comes from a pop, a resume or a restart: its segment must stand in a valid slot (R244) -/
  fresh : Bool
  /-- execution has run past the last word of a segment while it waited (R45) -/
  edged : Bool
  exm : Mask
  base : Mask
  dep : Word
  fmt : Word
  stack : List PathEntry
  /-- the spilled entries as they were pushed, the youngest first; a refill reads them from memory (R125, R126) -/
  below : List PathEntry
  sregs : List Word
  q : BitVec 8
  ix : List Word
  tb : List TransReg
  flags : List Nat
  unifstk : BitVec 2
  clockHi : Option Word
  ecntHi : List (Option (BitVec 16))
  arrivals : BitVec 128
  rejoinSid : Nat
  rejoinPos : Option Nat
  rejoinAddr : CodeVa
  rejoinDep : Word
  faults : List LaneFault
  peer : List PeerLane
  demand : List Demand
  loads : List LoadSector
  held : List HeldRed
  heldFlags : List Nat
  restart : RestartPoint
  trap : TrapRegs
  privileged : Bool
  served : Nat
  promoted : Option Nat
  wave : Option Wave
  objMask : Mask
  objErr : Mask
  objCause : Option Cause
  objDest : BitVec 6
  sysCode : Word
  step : Option Nat
  cancelAt : Option Nat
  /-- it parks whole on a fault because no pool entry was free: the replay does not split (R298) -/
  unsplit : Bool
  /-- the barrier phase that its BWAIT waited for is over (R136, R149) -/
  woken : Bool
  /-- it stands at a BWAIT that it has begun -/
  bwait : Bool
  /-- the cycles that it has been runnable without issuing (R141) -/
  idle : Nat
  /-- the number of the repair that made the fragment runnable (R294) -/
  repair : Nat
  /-- the streams whose program order its own begins with, each with the first operation number that is no longer theirs alone (R187) -/
  lineage : List (Nat × Nat)
  /-- the fragments that the standing instruction has formed -/
  splits : List Nat
  /-- how often it has been held at the limit of R181 or for a translation (R378) -/
  reissues : Nat
  /-- it is held at the limit of R181 -/
  atLimit : Bool
  /-- the standing instruction is a fragment's replay: of the sample with this number, or of no sample with 0 (R378) -/
  replay : Option Nat
  /-- the scalar registers that a LAUNCH has still to write, each with the LAUNCH (R286) -/
  owed : List (Nat × Nat)
  /-- the words that handler entry has still to write into the save block (R301, R305) -/
  bank : List (Nat × Word) := []
  /-- a fragment that runs: one of the 8 of its group that do (R294) -/
  admitted : Bool := false
  /-- which of the slots of its segment it runs from, once it has fetched a clause there (R243) -/
  slot : Option Nat := Option.none
  /-- MARK of the clause header whose WAIT holds it has set its restart point (R309, R311) -/
  marked : Bool := false
deriving DecidableEq, Repr

/-- A lane of a group: its window, frame-store column (word position to nonzero word), predicates and fault record. -/
structure Lane where
  fb : Nat
  locals : Nat
  lowres : Nat
  preds : BitVec 12
  lanefault : Word
  trapL : Nat
  col : List (Nat × Word)
deriving DecidableEq, Repr

/-- The class of an accumulator tile (R38). -/
inductive TileClass where
  | empty | float | integer
deriving DecidableEq, Repr

/-- An accumulator tile: 64 rows of 64 words, element r,c at position 64 r + c; unlisted elements are 0 (R237). -/
structure Tile where
  cls : TileClass
  data : List (Nat × Word)
deriving DecidableEq, Repr

/-- A group and what its streams share (R291). -/
structure Group where
  gid : Nat
  uid : Nat
  ctx : Nat
  sgrp : Nat
  width : Nat
  die : Nat
  core : Nat
  coreIndex : Nat
  part : Nat
  slot : Nat
  seg : Nat
  /-- the first word of its allotment in its columns, and the words of it (R121, R182) -/
  fsBase : Nat
  allot : Nat
  ilp : Nat
  fa : Nat
  faw : Nat
  da : Nat
  poolSlot : Nat
  alive : Mask
  lanes : List Lane
  cbatch : Word
  mbatch : Word
  cmdseq : Word
  /-- the first of its accumulator tiles in its partition -/
  acc : Nat
  tiles : List Tile
  failCause : Option Cause
  stalls : List Nat
  live : Bool
  /-- the command that has given each tile its class, the youngest in program order that has run (R278) -/
  classBy : List (Nat × Nat) := []
  /-- the threads of its unit, where the unit runs a Umell template: lid and gw read as R346 says there -/
  umell : Option Nat := none
deriving DecidableEq, Repr

/-- A named barrier word (R134). -/
structure Barrier where
  auto : Bool
  phase : Bool
  arrived : BitVec 16
  expected : BitVec 16
deriving DecidableEq, Repr

/-- A unit's part on one core: its scratchpad window (offset in the core's scratchpad, contents) its barriers and the core's words that hold them. -/
structure UnitCore where
  die : Nat
  core : Nat
  base : Nat
  window : Memory
  bars : List Barrier
  barWords : List Nat
deriving DecidableEq, Repr

/-- A unit (R123, R135, R161). -/
structure UnitRec where
  uid : Nat
  ctx : Nat
  launch : Nat
  index : Nat
  threads : Nat
  nb : Nat
  coop : Bool
  scratch : Nat
  cores : List UnitCore
  sysarr : Nat
  sysSent : Bool
  /-- the save area that the device OS gives it (R313) -/
  saveVa : Nat
  /-- a save that has been asked for and waits: true for a precise stop (R312, R374) -/
  saving : Option Bool
  /-- its streams run with the step option (R374) -/
  stepping : Bool
  /-- the page that its save waits for (R313, R317) -/
  saveWait : Option Nat := none
  /-- a fetch of its entry segment has found every slot of a core pinned, and asks again (R244) -/
  fetchHeld : Bool := false
  live : Bool
deriving DecidableEq, Repr

/-- An overlay slot (R242, R243): the segment's words by offset, 0 where unlisted. gen tells it from a marked slot of the same segment. -/
structure Overlay where
  core : Nat
  ctx : Nat
  va : Nat
  words : List (Nat × Word)
  marked : Bool
  used : Nat
  gen : Nat := 0
deriving DecidableEq, Repr

/-- An entry of a core's L1 TLB (R175). -/
structure TlbEntry where
  core : Nat
  ctx : Nat
  pasid : Nat
  va : Nat
  size : Nat
  loc : Loc
  perms : Perms
deriving DecidableEq, Repr

/-- A sector of a core's L1 data cache (R164). -/
structure L1Sector where
  core : Nat
  ctx : Nat
  sector : Loc
  bytes : List Byte
deriving DecidableEq, Repr

/-- A line of the tile cache of its home die (R168); va: the address by which its class was set. The list holds the least recently used first. -/
structure TileLine where
  line : Nat
  ctx : Nat
  va : Nat
  cls : Nat
  tag : BitVec 12
  reads : Nat
deriving DecidableEq, Repr

/-- A breakpoint register (R372). -/
structure Breakpoint where
  va : CodeVa
  en : Bool
  ctx : Word
deriving DecidableEq, Repr

/-- The per-core registers (R305, R372). -/
structure CoreRec where
  core : Nat
  sbase : Nat
  breaks : List Breakpoint
  sampn : BitVec 5
  ecsel : List Word
  ecnt : List (BitVec 48)
  sampled : Nat
  /-- the context that last held each KiB of the scratchpad (R161) -/
  owners : List (Nat × Nat)
deriving DecidableEq, Repr

/-- A request in a die's walk queue (R324). -/
structure WalkReq where
  tag : BitVec 16
  ctx : Nat
  pasid : Nat
  page : Nat
  need : BitVec 3
  cores : List Nat
  taken : Option Nat
  refused : Bool
  /-- an invalidation has covered its page: its TLBFILL is discarded and its status 0 is a retry (R329, R362) -/
  stale : Bool
  /-- a PRIREQ has sent a page request for it (R328, R361) -/
  paged : Bool := false
deriving DecidableEq, Repr

/-- A walk's answer that the streams of who have still to take (R327). -/
structure WalkAnswer where
  ctx : Nat
  page : Nat
  need : BitVec 3
  status : Nat
  who : List Nat
deriving DecidableEq, Repr

/-- A conjugator unit (R248, R249): its areas, and what its last batch left in the frame store, with that batch's context. -/
structure ConjUnit where
  fa : Nat
  da : Nat
  owner : Nat
  cols : List (List (Nat × Word))
deriving DecidableEq, Repr

/-- A die: walk queue, service pair and heartbeat word, conjugator areas, error and event counts. -/
structure DieRec where
  die : Nat
  walks : List WalkReq
  answers : List WalkAnswer
  nextTag : BitVec 16
  hb : Pair
  hbSeen : Nat
  pairOk : Bool
  /-- its pair passed the self-test of the last cold start (R382) -/
  pairBist : Bool
  corrected : Nat
  conj : List ConjUnit
  ecsel : List Word
  ecnt : List (BitVec 48)
deriving DecidableEq, Repr

/-- A record of a cluster's trace buffer (R377), as 16 words. -/
structure Cluster where
  cluster : Nat
  trace : List (List Word)
  ring : Nat
  /-- the records that its ring holds; 0 while the device OS has set none -/
  ringCap : Nat
  drained : Nat
  loss : Nat
  gated : Bool
  idleSince : Nat
  wakeAt : Nat
deriving DecidableEq, Repr

/-- A slot of a context's object table (R245). -/
structure ObjSlot where
  idx : Nat
  gen : BitVec 18
  live : Bool
  die : Nat
  stateVa : Nat
  stateSize : Nat
  table : Nat
  queue : List ObjRequest
  running : Bool
deriving DecidableEq, Repr

/-- A peer window (R353). -/
structure PeerWindow where
  valid : Bool
  lbase : BitVec 27
  rbase : BitVec 27
  size : BitVec 16
  dev : BitVec 12
  rctx : Word
deriving DecidableEq, Repr

/-- The fields of a launch record (R259). -/
structure LaunchRec where
  queue : Nat
  coop : Bool
  dyn : Bool
  node : Bool
  lastn : Bool
  nb : Nat
  ilpc : Nat
  widthc : Nat
  tag : BitVec 16
  entry : Nat
  argva : Nat
  units : Nat
  cores : Nat
  threads : Nat
  cntva : Nat
  scratch : Nat
  acc : Nat
  allotc : Nat
  faw : Nat
  pool : Nat
  slots : Nat
  deps : Nat
  nodeidx : Nat
  graph : Nat
  phase : Nat
  succ : List Nat
deriving DecidableEq, Repr

/-- A record in a context's queue (R261, R364): validated, its number, its graph counter. -/
structure QueuedRec where
  lnum : BitVec 16
  fields : LaunchRec
  valid : Bool
  graphid : Word
  phaseid : Word
  child : Bool
  count : Word
  /-- a CANCEL of the job reached it before it was validated (R258) -/
  dropped : Bool := false
deriving DecidableEq, Repr

/-- A graph, phase, or graph-node counter of a context (R257, R261). kind: 1 graph, 2 phase, 4 node; node: a node's index, a graph's phase. -/
structure Counter where
  kind : Nat
  ctx : Nat
  id : Nat
  node : Nat
  count : Word
  closed : Bool
  cancelled : Bool
deriving DecidableEq, Repr

/-- A context's pinned window (R168): its first VA, its length in bytes, its quota in lines. -/
structure PinnedWindow where
  va : Nat
  len : Nat
  quota : Nat
deriving DecidableEq, Repr

/-- What a symbol tells of the unit that it was written for: width code, ILP code, ALLOT/64, scratch KiB, tiles (R339, R69). -/
structure SymUnit where
  widthc : Nat
  ilpc : Nat
  allotc : Nat
  scratch : Nat
  acc : Nat
deriving DecidableEq, Repr

/-- A global symbol of a context (R339, R341). -/
structure GlobalSym where
  name : List Byte
  address : Nat
  unit : SymUnit
deriving DecidableEq, Repr

/-- What the translation table names for an entry: another entry, and how many threads a lane runs there (R347, R348). -/
structure Translation where
  entry : Nat
  target : Nat
  share : Nat
deriving DecidableEq, Repr

/-- A Umell entry as the template translation has it (R345, R347, R348): its module's bytes, its index in the module, the largest thread count that it accepts, its entry VA, and what the launches of the template have shown: the stall cycles of their groups by class, and their memory samples (R376, R378). -/
structure Template where
  module : List Byte
  index : Nat
  threads : Nat
  entry : Nat
  stalls : List Nat
  samples : Nat
deriving DecidableEq, Repr

/-- A context as the device OS sets it up. -/
structure Ctx where
  ctx : Nat
  root : Nat
  pasid : Nat
  handler : Option CodeVa
  bindings : List (Nat × CodeVa)
  objects : List ObjSlot
  overflow : Nat
  windows : List PeerWindow
  carray : Nat
  gens : List (Nat × BitVec 8)
  profva : Nat
  profcap : Nat
  submitErrors : Nat
  /-- a count word in a peer window that its intake has asked for: the request's number, the VA, the answer (R261, R354) -/
  cntPeer : Option (Nat × Nat × Option PeerAnswer)
  launches : BitVec 16
  queues : List (List QueuedRec)
  /-- the children that their full queues have still to take (R286, R364) -/
  children : List QueuedRec
  /-- the highest phase that a record has brought (R257) -/
  topPhase : Nat
  pinned : PinnedWindow
  /-- the root complex that it is bound to, 1 for that of die 2's port, and its MSI-X vector (R360, R365) -/
  complex : Nat
  vector : Nat
  key : Option Nat
  /-- its owner has asked that it may be debugged though it is confidential (R381) -/
  debug : Bool
  suspended : Bool
  translations : List Translation
  /-- the template translations of its Umell modules (R348) -/
  templates : List Template
  measured : List Byte
  /-- the global symbols of its code objects (R341) -/
  symbols : List GlobalSym
  jobCount : Word
deriving DecidableEq, Repr

/-- A launch that has fired (R257 to R263). chunks: the chunk numbers each die still holds; pending: the units of the chunk that a die is placing. -/
structure Launch where
  key : Nat
  lid : Word
  ctx : Nat
  fields : LaunchRec
  graphid : Word
  phaseid : Word
  child : Bool
  entry : Nat
  /-- the Umell entry that it launches, and the threads of a unit by its record (R346) -/
  umell : Option (Nat × Nat)
  units : Nat
  chunks : List (List Nat)
  pending : List (Nat × Nat)
  noSteal : List Nat
  count : Word
  ended : Nat
  status : Nat
  detail : BitVec 8
  fired : Nat
  cancelled : Bool
  done : Bool
  /-- a CANCEL of the job reached it: what its units still LAUNCH is beneath the job and does not fire (R258) -/
  dropped : Bool := false
deriving DecidableEq, Repr

/-- The engine commands of R219. -/
inductive CmdKind where
  | copy (fn : Nat)
  | mma | mmag | accz | accrd | accrs | mmv | cfetch
  | cred (fn : Nat)
  | syscall | launch
deriving DecidableEq, Repr

/-- Where a command stands (R219, R227, R229). -/
inductive CmdState where
  | retired
  | accepted
  | parked (va : Nat)
  | waiting
  | done
  | failed (cause : Cause) (index : Nat)
deriving DecidableEq, Repr

/-- A command and its snapshot (R219, R31). rows: the operand rows that AREG reads at acceptance, or what the registers of dests have held since then. joint: the other members. dests: per lane, the absolute words that an ACCRD names, each with its column until the drain has run, then with the value that will land; or those that an MMA reads, with what they held. destVa, destPa: the bytes, by address of the context and by on-chip address, that are undefined until the covering WAIT (R226, R235). fenced: a FENCE with ASYNC has made them older writes of the agent (R194). arg: the segment of a CFETCH, the copy of a CP.MMA's matrix part. buf: words that the engine has read so far; peer: a peer's answer to its latest request (R354). -/
structure Cmd where
  id : Nat
  seq : Word
  pc : CodeVa
  gid : Nat
  sid : Nat
  /-- the core of its group, numbered across the device -/
  core : Nat
  ctx : Nat
  kind : CmdKind
  regs : List Word
  fmt : Word
  exm : Mask
  flag : Option Nat
  cbatch : Option Word
  mbatch : Option Word
  state : CmdState
  progress : Nat
  arg : Nat
  dests : List (Nat × List (Nat × Word))
  rows : List (List Word)
  joint : List Nat
  destVa : List (Nat × Nat)
  destPa : List (Nat × Nat)
  fenced : Bool
  buf : List Word
  peer : Option PeerAnswer
  /-- FRAGID of the stream that issued it, 0 for a home path (R377) -/
  frag : Nat
  /-- its stream was privileged (R160, R321) -/
  priv : Bool := false
  /-- a LAUNCH that a CANCEL of the job reaches: its record does not fire (R258) -/
  dropped : Bool := false
  /-- a copy that has started: its capability check is made (R225) -/
  started : Bool := false
  /-- an MMAG in flight left the class of its tiles open at issue, so that its check is made when it runs (R278) -/
  late : Bool := false
deriving DecidableEq, Repr

/-- The die whose engines serve a command. -/
def Cmd.die (c : Cmd) : Nat := c.core / 64

/-- A store on its way to its home (R191): the bytes it writes. -/
structure PendStore where
  id : Nat
  sid : Nat
  gid : Nat
  writes : List (Loc × Byte)
  flag : Option Nat
  sample : Option Nat
  /-- the highest lane that it serves (R378) -/
  lane : Nat := 0
deriving DecidableEq, Repr

/-- An atomic on its way to its home (R209). -/
structure PendAtomic where
  id : Nat
  sid : Nat
  gid : Nat
  core : Nat
  ops : List AtomLane
  flags : List Nat
  sample : Option Nat
  /-- the lanes of samples that its held quantum REDs are, each with its sample (R378) -/
  more : List (Nat × Nat) := []
deriving DecidableEq, Repr

/-- A memory instruction that is sampled and has not completed (R378): the words of its trace record's name, its sectors, its lanes, those that split off, the lane served last. -/
structure MemSample where
  id : Nat
  core : Nat
  ctx : Nat
  name : List Word
  sectors : Nat
  lanes : Nat
  split : Nat
  last : Nat
  reissues : Nat
deriving DecidableEq, Repr

/-- A contribution to a reduction (R357): the device whose command it is, none for this one; the command's number and its round, which is how often its group contributed before; and its words. -/
structure Contribution where
  dev : Option (BitVec 12)
  cmd : Nat
  round : Nat
  words : List Word
deriving DecidableEq, Repr

/-- The reductions under one RGRP and RTAG (R357, R358): the contributions that the open one has counted, what it holds (kind of reduction, COUNT, KIND), whether it fails, and how often each group, of a device, has contributed since the last reduction that mixed no rounds. -/
structure Reduction where
  rgrp : Word
  rtag : Word
  ctx : Nat
  parts : List Contribution
  shape : Option (Nat × Word × Nat)
  failed : Bool
  rounds : List (Option (BitVec 12) × Nat × Nat)
deriving DecidableEq, Repr

/-- A reduction group (R356). -/
structure RGroup where
  rgrp : Word
  n : Nat
  rdev : BitVec 12
  rdie : BitVec 2
  ctx : Nat
deriving DecidableEq, Repr

/-- The atomics counted on a page by an issuing die in the running window (R171). -/
structure PageCount where
  page : Nat
  die : Nat
  count : Nat
  movable : Bool
deriving DecidableEq, Repr

/-- A submission page of BAR2 (R363). -/
structure SubmitPage where
  page : Nat
  ctx : Nat
  pasid : Nat
deriving DecidableEq, Repr

/-- A unit that pre-emption or a stop has saved (R312 to R315). blocks: the stream save blocks, as nonzero words by offset. -/
structure SavedUnit where
  unit : UnitRec
  groups : List Group
  streams : List Stream
  blocks : List (Nat × List (Nat × Word))
  cmds : List Cmd
  savedAt : Nat
  /-- where the device OS restarts it, from which core of which die on and whether with the step option, while it waits for a place or a page (R316, R374) -/
  queued : Option (Nat × Nat × Bool) := none
  /-- a CANCEL has dropped it; the profile records of its groups have still to be written (R318, R376) -/
  dropped : Bool := false
deriving DecidableEq, Repr

/-- An invalidation whose completion is owed to the host (R362). -/
structure Invalidation where
  id : Nat
  pasid : Nat
  va : Nat
  pages : Nat
  since : Nat
deriving DecidableEq, Repr

/-- Physical bytes that an uncorrectable error has struck (R391): an HBM sector, which lanes are refused, or a line of on-chip memory, whose accesses give PROT. -/
structure Poison where
  addr : Nat
  size : Nat
  line : Bool
deriving DecidableEq, Repr

/-- A completion record on its way (R365, R367): its place in its context's array, its words, and whether bytes 0x04 to 0x1F have been written. -/
structure CompletionRec where
  ctx : Nat
  va : Nat
  words : List Word
  begun : Bool
deriving DecidableEq, Repr

/-- An access of the device itself through a peer window: for whom (a group's end, a unit's save, 0 for a context's intake and its records), where, what, and the peer's answer to it, once there is one (R354). -/
structure FarAccess where
  id : Nat
  who : Nat
  ctx : Nat
  va : Nat
  op : PeerOp
  answer : Option PeerAnswer
deriving DecidableEq, Repr

/-- A page that a peer's access met absent here; the peer hears when the pager has served it (R354). -/
structure PeerFault where
  dev : BitVec 12
  ctx : Nat
  va : Nat
deriving DecidableEq, Repr

/-- An access that a peer has sent here and that has still to be served, with its number here and the peer's tag for it (R354, R355). -/
structure PeerAsk where
  id : Nat
  dev : BitVec 12
  tag : Nat
  ctx : Nat
  va : Nat
  op : PeerOp
deriving DecidableEq, Repr

/-- What the device says to the outside. peerRequest: one request of a stream, or with number 0 of a command, for the parts that lie in one sector of the peer's memory, each with its lane or its command and its address there (R203, R354). -/
inductive HostMsg where
  | posted (addr : Nat) (words : List Word)
  | msix (complex vector : Nat)
  | doubleRecord (ctx : Nat) (first : Nat) (tpc : CodeVa) (second : Nat) (pc : CodeVa)
  | deviceFault (ctx va : Nat) (refused : Bool)
  | pageRequest (ctx va : Nat) (need : BitVec 3)
  | atsRequest (sid lane ctx va pasid : Nat) (need : BitVec 3)
  | invalidationDone (id : Nat)
  | peerRequest (sid : Nat) (dev : BitVec 12) (rctx : Word) (parts : List (Nat × Nat × PeerOp))
  | peerServed (dev : BitVec 12) (tag : Nat) (answer : PeerAnswer)
  | peerSettled (dev : BitVec 12) (rctx va : Nat) (ok : Bool)
  | contribution (dev : BitVec 12) (cmd gid ctx : Nat) (rgrp rtag : Word) (fn : Nat) (count kind : Word) (words : List Word)
  | reduced (dev : BitVec 12) (cmd : Nat) (r : Reduced)
  | machineCheck (what at_ : Nat)
  | syscall (ctx uid : Nat) (code : Word) (args : List Word) (unitIndex : Nat) (lid : Word)
  | doorbell (page : Nat) (answer : Nat)
  | migrationRequest (page die : Nat)
  | report (bytes : List Byte)
  | certificate (key : List Byte) (meas : BitVec 512) (sig : BitVec 1056)
  | loaded (ctx code : Nat)
  | stopped (uid : Nat)
  | saved (uid : Nat)
  | fatal (step die cause : Nat)
  | portDown (port : Nat)
  | taken (die : Nat)
deriving DecidableEq, Repr

/-- The phases of bring-up (R382 to R384, R394). -/
inductive Phase where
  | reset | running | safeMode | stopped
deriving DecidableEq, Repr

/-- The device's own registers. -/
structure Device where
  phase : Phase
  failures : Nat
  meas : BitVec 512
  authMeas : Option (BitVec 512)
  secret : BitVec 512
  /-- the fused hash of the root public key (R382) -/
  rootHash : BitVec 512
  serial : BitVec 128
  boots : Nat
  /-- the entry of the service pairs' trap handler (R388) -/
  pairEntry : CodeVa
  /-- the BAR0 diagnostic record: step, die and cause (R384, R389) -/
  record : Option (Nat × Nat × Nat)
  /-- the dies whose PCIe port has trained (R360, R384), and dual-root mode -/
  trained : List Nat
  dualRoot : Bool
  leader : Nat
  term : Word
  clock : Pair
  cap : Nat
  throttle : Nat
  /-- the module power of the latest measurement, in watts (R394) -/
  power : Nat := 0
  /-- conjunction ports with failures in a row, and those taken down (R352) -/
  ports : List (Nat × Nat)
  down : List Nat
  /-- the device's id in the fabric (R352) -/
  id : BitVec 12
  promotions : Nat
  /-- page requests outstanding at the host, and those that wait for its allocation (R328, R361) -/
  pageReqs : List (Nat × Nat)
  pageWaits : List (Nat × Nat × BitVec 3)
  /-- what the device OS has been asked and has not answered, in arrival order (R389) -/
  asked : List HostMsg
deriving DecidableEq, Repr

/-- The whole machine. -/
structure State where
  st : Stream
  gr : Group
  un : UnitRec
  streams : List Stream
  groups : List Group
  units : List UnitRec
  saved : List SavedUnit
  overlays : List Overlay
  tlb : List TlbEntry
  l1 : List L1Sector
  lines : List TileLine
  syncLines : List Nat
  cores : List CoreRec
  dies : List DieRec
  clusters : List Cluster
  ctxs : List Ctx
  launches : List Launch
  counters : List Counter
  cmds : List Cmd
  stores : List PendStore
  atomics : List PendAtomic
  replies : List ObjReply
  requests : List ObjRequest
  reductions : List Reduction
  records : List CompletionRec
  peerFaults : List PeerFault
  peerAsks : List PeerAsk
  far : List FarAccess := []
  rgroups : List RGroup
  pageCounts : List PageCount
  submit : List SubmitPage
  invals : List Invalidation
  poison : List Poison
  /-- bytes of contexts that a failed or abandoned command leaves undefined on pages that nothing places yet: context, VA, bytes (R229, R318) -/
  spoils : List (Nat × Nat × Nat) := []
  samples : List MemSample
  mem : Memory
  host : Memory
  /-- the on-chip words that no placed unit, group or barrier holds, by physical address (R159) -/
  chip : Memory
  dev : Device
  events : List Instr
  out : List HostMsg
  free : Nat
  nextId : Nat
deriving DecidableEq, Repr

/-- The reasons for which the machine stops. -/
inductive Fault where
  /-- step: the module has stopped at 115 °C (R394). Safe: the hardware does nothing more either. -/
  | moduleStopped
deriving DecidableEq, Repr

/-- The reasons for which the model gives no next state. -/
inductive Refusal where
  /-- an arm of exec whose instruction has no meaning yet. Safe: nothing is claimed of it. -/
  | notModelled (mnemonic : String)
deriving DecidableEq, Repr

/-- An unbound translation register (R12, R172). -/
def TransReg.unbound : TransReg :=
  { bound := false, va := 0, len := 0, run := 0, limit := 0, perms := ⟨false, false, false⟩, stale := false }

/-- A restart point at an entry (R309). -/
def RestartPoint.entry (pc : CodeVa) (exm : Mask) : RestartPoint :=
  { pc := pc, hdr := 0, pos := 0, exm := exm, fmt := 0, dep := 0, pathd := 0, cbatch := 0, mbatch := 0, flags := 0 }

/-- The trap registers before any trap (log entry 4). -/
def TrapRegs.zero : TrapRegs :=
  { cause := 0, instr := 0, pc := 0, mask := 0, hdr := 0, fl := 0, depth := 0, cmdPc := 0, cmdSeq := 0, frag := 0,
    dbgst := 0, et := 0, hpathd := 0, hdep := 0, tfmt := 0, at_ := 0, pos := 0, tb7 := false }

/-- A lane at group start (R12, R182, R390). -/
def Lane.start : Lane :=
  { fb := 0, locals := 0, lowres := 0, preds := 0, lanefault := 0, trapL := 0, col := [] }

/-- A stream as its group starts it (R12): the lanes of m stand at pc. -/
def Stream.start (sid gid : Nat) (kind : StreamKind) (pc : CodeVa) (m : Mask) : Stream :=
  { sid := sid, gid := gid, kind := kind, status := .runnable, pc := pc, hdr := 0, pos := 0, ext := none, fresh := false, edged := false, exm := m,
    base := m, dep := 0, fmt := 0, stack := [], below := [], sregs := List.replicate 60 0, q := 0,
    ix := List.replicate 4 0, tb := List.replicate 8 TransReg.unbound, flags := List.replicate 12 0, unifstk := 0,
    clockHi := none, ecntHi := List.replicate 16 none, arrivals := 0, rejoinSid := 0, rejoinPos := none,
    rejoinAddr := 0, rejoinDep := 0, faults := [], peer := [], demand := [], loads := [], held := [], heldFlags := [], restart := RestartPoint.entry pc m,
    trap := TrapRegs.zero, privileged := false, served := 0, promoted := none, wave := none, objMask := 0,
    objErr := 0, objCause := none, objDest := 0, sysCode := 0, step := none,
    cancelAt := none, unsplit := false, woken := false, bwait := false, idle := 0, repair := 0, lineage := [], splits := [], reissues := 0, atLimit := false, replay := none, owed := [] }

/-- The record that stands in st while no stream is placed. -/
def Stream.none : Stream := { Stream.start 0 0 .home 0 0 with status := .ended }

/-- The record that stands in gr while no group is placed. -/
def Group.none : Group :=
  { gid := 0, uid := 0, ctx := 0, sgrp := 0, width := 8, die := 0, core := 0, coreIndex := 0, part := 0, slot := 0,
    seg := 0, fsBase := 0, allot := 64, ilp := 12, fa := 0, faw := 64, da := 0, poolSlot := 0, alive := 0,
    lanes := List.replicate 8 Lane.start, cbatch := 0, mbatch := 0, cmdseq := 0, acc := 0, tiles := [],
    failCause := Option.none, stalls := List.replicate 8 0, live := false }

/-- The record that stands in un while no unit is placed. -/
def UnitRec.none : UnitRec :=
  { uid := 0, ctx := 0, launch := 0, index := 0, threads := 0, nb := 0, coop := false, scratch := 0, cores := [],
    sysarr := 0, sysSent := false, saveVa := 0, saving := Option.none, stepping := false, live := false }

/-- A core's registers before anything is written to them (log entry 4): breakpoints disabled, no sampling, no event counted. -/
def CoreRec.start (core : Nat) : CoreRec :=
  { core := core, sbase := 0, breaks := List.replicate 8 ⟨0, false, 0⟩, sampn := 0, ecsel := List.replicate 16 0,
    ecnt := List.replicate 16 0, sampled := 0, owners := [] }

/-- The registers of a die before bring-up (log entry 4). -/
def DieRec.start (d : Nat) : DieRec :=
  { die := d, walks := [], answers := [], nextTag := 0, hb := 0, hbSeen := 0, pairOk := false, pairBist := false, corrected := 0,
    conj := List.replicate 4 ⟨0, 0, 0, []⟩, ecsel := List.replicate 8 0,
    ecnt := List.replicate 8 0 }

/-- The device's registers at power-on: the cold start (R382) has not run (log entries 3 and 4). -/
def Device.start : Device :=
  { phase := .reset, failures := 0, meas := 0, authMeas := none, secret := 0, rootHash := 0, serial := 0, boots := 0,
    pairEntry := 0, record := none, trained := [], dualRoot := false, leader := 0, term := 0, clock := 0, cap := 2200, throttle := 64,
    ports := [], down := [], id := 0, promotions := 0, pageReqs := [], pageWaits := [], asked := [] }

/-- The machine right after reset: nothing placed, no context, memory lists nothing, the cold start still to run. -/
def State.reset : State :=
  { st := Stream.none, gr := Group.none, un := UnitRec.none, streams := [], groups := [], units := [], saved := [],
    overlays := [], tlb := [], l1 := [], lines := [], syncLines := [], cores := [],
    dies := [DieRec.start 0, DieRec.start 1, DieRec.start 2, DieRec.start 3], clusters := [], ctxs := [],
    launches := [], counters := [], cmds := [], stores := [], atomics := [], replies := [], requests := [],
    reductions := [], records := [], peerFaults := [], peerAsks := [], rgroups := [], pageCounts := [], submit := [], invals := [], poison := [], samples := [], mem := [], host := [], chip := [],
    dev := Device.start, events := [], out := [], free := 0, nextId := 1 }

end Sys2Proof.Machine
end

