-- ==== Sys2Proof/Machine/Memory.lean ====
section
/-!
DEFINITION. Sparse word columns and byte memory in their one canonical form, wider accesses (little-endian, R4), and reads and writes of the device's physical address space with its on-chip windows (R158, R159).
-/
namespace Sys2Proof.Machine

/-- The value a sparse list holds at k; unlisted positions hold z. -/
def sparseGet {α : Type} (z : α) (m : List (Nat × α)) (k : Nat) : α :=
  match m with
  | [] => z
  | (j, v) :: r => if k = j then v else sparseGet z r k

/-- A sparse list without k. -/
def sparseErase {α : Type} (m : List (Nat × α)) (k : Nat) : List (Nat × α) :=
  match m with
  | [] => []
  | (j, w) :: r => if k = j then sparseErase r k else (j, w) :: sparseErase r k

/-- A sparse list with v at k; writing z removes the entry, so equal contents are equal lists. -/
def sparsePut {α : Type} [DecidableEq α] (z : α) (m : List (Nat × α)) (k : Nat) (v : α) : List (Nat × α) :=
  match m with
  | [] => if v = z then [] else [(k, v)]
  | (j, w) :: r =>
    if k < j then (if v = z then (j, w) :: sparseErase r k else (k, v) :: (j, w) :: sparseErase r k)
    else if k = j then sparsePut z r k v
    else (j, w) :: sparsePut z r k v

/-- The canonical form: keys strictly rising from lo, no entry equal to z. -/
def sparseFrom {α : Type} [DecidableEq α] (z : α) (lo : Nat) (m : List (Nat × α)) : Bool :=
  match m with
  | [] => true
  | (j, v) :: r => decide (lo ≤ j) && (!decide (v = z)) && sparseFrom z (j + 1) r

/-- What an unlisted byte of memory reads as: R382 zeroes HBM; for host memory log entry 5 chooses 0. -/
def unlisted : Byte := 0#8

/-- The canonical form of a memory. -/
def Memory.wf (m : Memory) : Bool := sparseFrom unlisted 0 m

/-- One byte. -/
def Memory.get (m : Memory) (a : Nat) : Byte := sparseGet unlisted m a

/-- One byte written. -/
def Memory.put (m : Memory) (a : Nat) (v : Byte) : Memory := sparsePut unlisted m a v

/-- Byte i of a value. -/
def byteOf (v i : Nat) : Byte := BitVec.ofNat 8 (v >>> (8 * i))

/-- The little-endian value of n bytes that rd gives. -/
def gatherLE (rd : Nat → Byte) (n : Nat) : Nat :=
  match n with
  | 0 => 0
  | k + 1 => gatherLE rd k + (rd k).toNat <<< (8 * k)

/-- The value of n bytes at a. -/
def Memory.getN (m : Memory) (a n : Nat) : Nat := gatherLE (fun i => m.get (a + i)) n

/-- n bytes of v at a, the lowest first. -/
def Memory.putN (m : Memory) (a v n : Nat) : Memory :=
  match n with
  | 0 => m
  | k + 1 => (Memory.putN m a v k).put (a + k) (byteOf v k)

/-- The core number across the device. Numbers 36 to 39 of a die stand for its conjugator units, 40 for its page-walk complex, 41 for its service pair and 42 for its copy engines, intake and spill engine. -/
def coreNo (die core : Nat) : Nat := die * 64 + core

/-- The die of a core number. -/
def dieOf (core : Nat) : Nat := core / 64

/-- An on-chip address as R159 lays it out. -/
inductive ChipLoc where
  | scratch (die core off : Nat)
  | frame (die core part lane pos byte : Nat)
  | acc (die core part tile row col byte : Nat)
deriving DecidableEq, Repr

/-- R159: the piece that an on-chip physical address names; none where the map assigns nothing. -/
def chipLoc (pa : Nat) : Option ChipLoc :=
  let o := pa - Config.onChip
  let die := o >>> 44
  let core := (o >>> 38) % 64
  let reg := (o >>> 35) % 8
  let off := o % 2 ^ 35
  if pa < Config.onChip ∨ Config.onChipEnd ≤ pa ∨ Config.coresPerDie ≤ core then none
  else if reg = 0 then (if off < 0x80000 then some (.scratch die core off) else none)
  else if reg = 1 then
    (if off < 0x200000 then
      some (.frame die core (off >>> 19) ((off >>> 13) % 64) ((off >>> 2) % 2048) (off % 4)) else none)
  else if reg = 2 then
    (if off < 0x100000 then
      some (.acc die core (off >>> 18) ((off >>> 14) % 16) ((off >>> 8) % 64) ((off >>> 2) % 64) (off % 4)) else none)
  else none

/-- A word with byte i replaced. -/
def setByte (w : Word) (i : Nat) (b : Byte) : Word :=
  (w &&& ~~~ ((0xFF#32) <<< (8 * i))) ||| ((b.setWidth 32) <<< (8 * i))

/-- A named barrier as its 64-bit word (R134). -/
def Barrier.word (b : Barrier) : Nat :=
  b.expected.toNat + b.arrived.toNat <<< 16 + b.phase.toNat <<< 32 + b.auto.toNat <<< 33

/-- A barrier from its word. -/
def Barrier.ofWord (w : Nat) : Barrier :=
  { auto := w.testBit 33, phase := w.testBit 32, arrived := BitVec.ofNat 16 (w >>> 16), expected := BitVec.ofNat 16 w }

/-- A byte of a core's scratchpad as one unit's part of that core holds it: its barrier words, then its window. -/
def UnitCore.byteAt (c : UnitCore) (scratch off : Nat) : Option Byte :=
  if off < 0x400 then
    let i := off / 8
    ((c.barWords.zip c.bars).find? (fun b => b.1 == i)).map (fun b => byteOf b.2.word (off % 8))
  else if c.base ≤ off ∧ off < c.base + scratch then some (c.window.get (off - c.base))
  else none

/-- The same byte written: the fields of a barrier word are read-only (R134). -/
def UnitCore.setByteAt (c : UnitCore) (scratch off : Nat) (v : Byte) : UnitCore :=
  if 0x400 ≤ off ∧ c.base ≤ off ∧ off < c.base + scratch then { c with window := c.window.put (off - c.base) v }
  else c

/-- Every unit, the running one first. -/
def State.allUnits (s : State) : List UnitRec := s.un :: s.units

/-- Every group, the running one first. -/
def State.allGroups (s : State) : List Group := s.gr :: s.groups

/-- Every stream, the issuing one first. -/
def State.allStreams (s : State) : List Stream := s.st :: s.streams

/-- A change of every unit. -/
def State.mapUnits (s : State) (f : UnitRec → UnitRec) : State := { s with un := f s.un, units := s.units.map f }

/-- A change of every group. -/
def State.mapGroups (s : State) (f : Group → Group) : State := { s with gr := f s.gr, groups := s.groups.map f }

/-- A change of every stream. -/
def State.mapStreams (s : State) (f : Stream → Stream) : State := { s with st := f s.st, streams := s.streams.map f }

/-- A change of one unit. -/
def State.modUnit (s : State) (uid : Nat) (f : UnitRec → UnitRec) : State :=
  s.mapUnits (fun u => if u.uid = uid then f u else u)

/-- A change of one group. -/
def State.modGroup (s : State) (gid : Nat) (f : Group → Group) : State :=
  s.mapGroups (fun g => if g.gid = gid then f g else g)

/-- A change of one stream. -/
def State.modStream (s : State) (sid : Nat) (f : Stream → Stream) : State :=
  s.mapStreams (fun x => if x.sid = sid then f x else x)

/-- The live group that holds a word of a lane of a partition (R120, R121), with the group's own number of that lane. -/
def State.groupAt (s : State) (die core part lane pos : Nat) : Option (Group × Nat) :=
  (s.allGroups.find? (fun g => g.live && g.die == die && g.core == core && g.part == part &&
      decide (8 * g.seg ≤ lane) && decide (lane < 8 * g.seg + g.width) && decide (g.fsBase ≤ pos) &&
      decide (pos < g.fsBase + g.allot))).map (fun g => (g, lane - 8 * g.seg))

/-- The live group that holds accumulator tile t of a partition, with the group's own number of that tile. -/
def State.groupAtTile (s : State) (die core part t : Nat) : Option (Group × Nat) :=
  (s.allGroups.find? (fun g => g.live && g.die == die && g.core == core && g.part == part &&
      decide (g.acc ≤ t) && decide (t < g.acc + g.tiles.length))).map (fun g => (g, t - g.acc))

/-- A word of a lane's column by position. -/
def Lane.atPos (l : Lane) (pos : Nat) : Word := sparseGet 0#32 l.col pos

/-- A word of a lane's column written by position. -/
def Lane.putPos (l : Lane) (pos : Nat) (v : Word) : Lane := { l with col := sparsePut 0#32 l.col pos v }

/-- An element of a tile. -/
def Tile.get (t : Tile) (r c : Nat) : Word := sparseGet 0#32 t.data (64 * r + c)

/-- An element of a tile written. -/
def Tile.put (t : Tile) (r c : Nat) (v : Word) : Tile := { t with data := sparsePut 0#32 t.data (64 * r + c) v }

/-- One byte of an on-chip window at an address; where nothing is placed, what the last write there left (log entry 64). -/
def State.chipByte (s : State) (a : Nat) (c : ChipLoc) : Byte :=
  match c with
  | .scratch d k off =>
    (s.allUnits.findSome? (fun u => u.cores.findSome? (fun uc =>
      if uc.die = d ∧ uc.core = k then uc.byteAt u.scratch off else none))).getD (s.chip.get a)
  | .frame d k p lane pos b =>
    match s.groupAt d k p lane pos with
    | some (g, l) => byteOf ((g.lanes.getD l Lane.start).atPos (pos - g.fsBase)).toNat b
    | none => s.chip.get a
  | .acc d k p t r c b =>
    match s.groupAtTile d k p t with
    | some (g, i) => byteOf ((g.tiles.getD i ⟨.empty, []⟩).get r c).toNat b
    | none => s.chip.get a

/-- One byte of an on-chip window written; a barrier word keeps its read-only fields (R134). -/
def State.putChip (s : State) (a : Nat) (c : ChipLoc) (v : Byte) : State :=
  match c with
  | .scratch d k off =>
    if s.allUnits.any (fun u => u.cores.any (fun uc => uc.die == d && uc.core == k && (uc.byteAt u.scratch off).isSome)) then
      s.mapUnits (fun u => { u with cores := u.cores.map (fun uc =>
        if uc.die = d ∧ uc.core = k then uc.setByteAt u.scratch off v else uc) })
    else if off < 0x400 then s
    else { s with chip := s.chip.put a v }
  | .frame d k p lane pos b =>
    match s.groupAt d k p lane pos with
    | some (g, l) => s.modGroup g.gid (fun x => { x with lanes := x.lanes.mapIdx (fun i y =>
        if i = l then y.putPos (pos - g.fsBase) (setByte (y.atPos (pos - g.fsBase)) b v) else y) })
    | none => { s with chip := s.chip.put a v }
  | .acc d k p t r c b =>
    match s.groupAtTile d k p t with
    | some (g, i) => s.modGroup g.gid (fun x => { x with tiles := x.tiles.mapIdx (fun j y =>
        if j = i then y.put r c (setByte (y.get r c) b v) else y) })
    | none => { s with chip := s.chip.put a v }

/-- The 32 bytes of sector k as the holder of a key reads them (R392). -/
def Memory.plainSector (m : Memory) (key k : Nat) : BitVec 256 := (Config.sectorCipher key k).symm (BitVec.ofNat 256 (m.getN (32 * k) 32))

/-- A byte of an encrypted sector (R392). -/
def Memory.getEnc (m : Memory) (key a : Nat) : Byte := byteOf (m.plainSector key (a / 32)).toNat (a % 32)

/-- A value with byte i replaced. -/
def setByteOf (w : BitVec 256) (i : Nat) (b : Byte) : BitVec 256 :=
  (w &&& ~~~ ((0xFF#256) <<< (8 * i))) ||| ((b.setWidth 256) <<< (8 * i))

/-- A byte of an encrypted sector written: the sector is decrypted and encrypted anew (R392). -/
def Memory.putEnc (m : Memory) (key a : Nat) (v : Byte) : Memory :=
  m.putN (32 * (a / 32)) (Config.sectorCipher key (a / 32) (setByteOf (m.plainSector key (a / 32)) (a % 32) v)).toNat 32

/-- One byte of the machine's memory. An encrypted page lies in HBM (log entry 11). -/
def State.byteAt (s : State) (l : Loc) : Byte :=
  match l with
  | .host a => s.host.get a
  | .dev a => if a < Config.hbmBytes then s.mem.get a else (chipLoc a).elim 0#8 (s.chipByte a)
  | .enc key a => s.mem.getEnc key a

/-- One byte written. -/
def State.putByte (s : State) (l : Loc) (v : Byte) : State :=
  match l with
  | .host a => { s with host := s.host.put a v }
  | .dev a =>
    if a < Config.hbmBytes then { s with mem := s.mem.put a v }
    else match chipLoc a with
      | some c => s.putChip a c v
      | none => s
  | .enc key a => { s with mem := s.mem.putEnc key a v }

/-- The location of a device address, under a key if there is one; on-chip memory is never encrypted (R392, log entry 11). -/
def devLoc (key : Option Nat) (a : Nat) : Loc :=
  match key with
  | some k => if a < Config.hbmBytes then .enc k a else .dev a
  | none => .dev a

/-- The address i bytes on. -/
def Loc.plus (l : Loc) (i : Nat) : Loc :=
  match l with
  | .dev a => .dev (a + i)
  | .host a => .host (a + i)
  | .enc key a => .enc key (a + i)

/-- The aligned 32-byte sector of an address (R203). -/
def Loc.sector (l : Loc) : Loc :=
  match l with
  | .dev a => .dev (a / 32 * 32)
  | .host a => .host (a / 32 * 32)
  | .enc key a => .enc key (a / 32 * 32)

/-- The number within its space. -/
def Loc.num (l : Loc) : Nat :=
  match l with
  | .dev a | .host a | .enc _ a => a

/-- The device's physical address, if it is one. -/
def Loc.pa (l : Loc) : Option Nat :=
  match l with
  | .dev a | .enc _ a => some a
  | .host _ => none

/-- Whether n bytes at x and m bytes at y share one, whatever key names them. -/
def Loc.meets (x : Loc) (n : Nat) (y : Loc) (m : Nat) : Bool :=
  x.pa.isSome == y.pa.isSome && decide (x.num < y.num + m) && decide (y.num < x.num + n)

/-- n bytes as a little-endian value. -/
def State.getN (s : State) (l : Loc) (n : Nat) : Nat := gatherLE (fun i => s.byteAt (l.plus i)) n

/-- n bytes of a value written, the lowest first. -/
def State.putN (s : State) (l : Loc) (v n : Nat) : State :=
  match n with
  | 0 => s
  | k + 1 => (State.putN s l v k).putByte (l.plus k) (byteOf v k)

/-- The home die of a device address (R158); host memory is reached over die 0's port (R360). -/
def Loc.homeDie (l : Loc) : Nat :=
  match l with
  | .dev a | .enc _ a => if a < Config.hbmBytes then a / Config.hbmPerDie else (a - Config.onChip) >>> 44
  | .host _ => 0

end Sys2Proof.Machine
end

