-- ==== Sys2Proof/Machine/Operands.lean ====
section
/-!
DEFINITION. The operand forms: EXT fields (R48 to R52), guards (R43), the window of a lane (R7, R10), pairs and quads (R9), scalar registers (R13), and the shape of an instruction that computes per lane (R74) or once (R76).
-/
namespace Sys2Proof.Machine

/-- What a trap reports beside its cause and lanes (R304, R372): TFL, TCMDPC, TCMDSEQ, DBGST, and the word that TINSTR takes when it is not the one at TPC. -/
structure TrapInfo where
  fl : BitVec 24
  cmdPc : CodeVa
  cmdSeq : Word
  dbgst : BitVec 8
  instr : Option Word
deriving DecidableEq, Repr

/-- A trap that reports nothing more. -/
def TrapInfo.plain : TrapInfo := { fl := 0, cmdPc := 0, cmdSeq := 0, dbgst := 0, instr := none }

/-- How an instruction of the issuing stream ends. -/
inductive Verdict where
  /-- it retires and execution goes on at the next word -/
  | next (s : State)
  /-- it retires and the stream stands where s says -/
  | moved (s : State)
  /-- it traps precisely with this cause for these lanes and no effect but what s holds -/
  | trap (c : Cause) (t : Mask) (s : State)
  /-- as trap, with the LANEFLT records of lanes whose check or access has an address (R299) -/
  | trapRec (c : Cause) (t : Mask) (recs : List (Nat × Word)) (s : State)
  /-- as trap, with more in the trap registers -/
  | trapWith (c : Cause) (t : Mask) (x : TrapInfo) (s : State)
  /-- it does not retire; the stream waits as s says and runs it again -/
  | hold (s : State)
deriving DecidableEq, Repr

/-- The issuing stream changed. -/
def State.modSt (s : State) (f : Stream → Stream) : State := { s with st := f s.st }

/-- Its group changed. -/
def State.modGr (s : State) (f : Group → Group) : State := { s with gr := f s.gr }

/-- Its unit changed. -/
def State.modUn (s : State) (f : UnitRec → UnitRec) : State := { s with un := f s.un }

/-- An event put behind those already due (log entry 1). -/
def State.post (s : State) (i : Instr) : State := { s with events := s.events ++ [i] }

/-- A message to the outside. -/
def State.say (s : State) (m : HostMsg) : State := { s with out := s.out ++ [m] }

/-- Whether a command has ended. -/
def Cmd.isOver (c : Cmd) : Bool :=
  match c.state with
  | .done | .failed _ _ => true
  | _ => false

/-- The device OS is asked something that it answers (R389). -/
def State.ask (s : State) (m : HostMsg) : State := { s with out := s.out ++ [m], dev := { s.dev with asked := s.dev.asked ++ [m] } }

/-- What the device OS was asked has its answer. -/
def State.answered (s : State) (p : HostMsg → Bool) : State := { s with dev := { s.dev with asked := s.dev.asked.filter (fun m => !p m) } }

/-- Whether the host takes another page request (R328, R361). -/
def State.pageRoom (s : State) : Bool := decide (s.dev.pageReqs.length ≤ Config.pageRequests)

/-- A page request to the host; one that is outstanding for the page is not sent twice, and one beyond the host's allocation waits (R361). -/
def State.askHost (s : State) (ctx va : Nat) (need : BitVec 3) : State :=
  let same : Nat → Nat → Bool := fun c v => c == ctx && v / 4096 == va / 4096
  if s.dev.pageReqs.any (fun r => same r.1 r.2) || s.dev.pageWaits.any (fun r => same r.1 r.2.1) then s
  else if s.pageRoom then
    { s with out := s.out ++ [.pageRequest ctx va need], dev := { s.dev with pageReqs := s.dev.pageReqs ++ [(ctx, va)] } }
  else { s with dev := { s.dev with pageWaits := s.dev.pageWaits ++ [(ctx, va, need)] } }

/-- W64 of the prefix (R51). -/
def State.wide (s : State) : Bool :=
  match s.st.ext with
  | some (.opnd _ _ w _ _ _) => w
  | _ => false

/-- SGN of the prefix. -/
def State.extSgn (s : State) : Bool :=
  match s.st.ext with
  | some (.opnd _ _ _ n _ _) => n
  | _ => false

/-- FLT of the prefix. -/
def State.extFlt (s : State) : Bool :=
  match s.st.ext with
  | some (.opnd _ _ _ _ f _) => f
  | _ => false

/-- The third source of the prefix. -/
def State.extC (s : State) : Option (BitVec 6) :=
  match s.st.ext with
  | some (.opnd c _ _ _ _ _) => some c
  | _ => none

/-- SCOPE, dev without a prefix; 6 and 7 read as dev (R49, R51). -/
def State.scope (s : State) : Nat :=
  match s.st.ext with
  | some (.opnd _ sc _ _ _ _) => if sc.toNat < 6 then sc.toNat else 4
  | _ => 4

/-- MODX, 0 without a prefix. -/
def State.modx (s : State) : BitVec 12 :=
  match s.st.ext with
  | some (.opnd _ _ _ _ _ m) => m
  | _ => 0

/-- The immediate of the prefix. -/
def State.extImm (s : State) : Option (BitVec 24) :=
  match s.st.ext with
  | some (.imm x) => some x
  | _ => none

/-- ((X << w) | I)[31:0] (R50). -/
def joinImm {w : Nat} (x : BitVec 24) (i : BitVec w) : Word := (x.setWidth 32 <<< w) ||| i.setWidth 32

/-- A sign-extended immediate, or the extended one (R48, R50). -/
def State.immS {w : Nat} (s : State) (i : BitVec w) : Word :=
  match s.extImm with
  | some x => joinImm x i
  | none => i.signExtend 32

/-- A zero-extended immediate, or the extended one. -/
def State.immZ {w : Nat} (s : State) (i : BitVec w) : Word :=
  match s.extImm with
  | some x => joinImm x i
  | none => i.setWidth 32

/-- The byte offset of LM and UM (R48, R50). -/
def State.disp (s : State) : Int :=
  match s.extImm with
  | some x => x.toInt
  | none => 0

/-- The lane guard of R43. -/
def guardHolds (g : BitVec 4) (x : Lane) : Bool :=
  if 1 ≤ g.toNat ∧ g.toNat ≤ 12 then x.preds.getLsbD (g.toNat - 1) else true

/-- The uniform guard of R43. -/
def State.uniGuard (s : State) (g : BitVec 4) : Bool :=
  if 1 ≤ g.toNat ∧ g.toNat ≤ 8 then s.st.q.getLsbD (g.toNat - 1) else true

/-- Lane l of the issuing group. -/
def State.lane (s : State) (l : Nat) : Lane := s.gr.lanes.getD l Lane.start

/-- The lanes of EXM whose guard is true (R43). -/
def State.active (s : State) (g : BitVec 4) : Mask :=
  Mask.ofPred (fun l => s.st.exm.has l && guardHolds g (s.lane l))

/-- The absolute frame-store word of a register field, for the fields that name one (R7). -/
def Lane.winWord (x : Lane) (n : Nat) : Option Nat :=
  if n < 48 then some (x.fb + n) else if n < 56 then some (x.fb + 10 + x.locals + (n - 48)) else none

/-- An absolute word of a lane's column (R182). -/
def Lane.word (x : Lane) (allot w : Nat) : Word := x.atPos (w % allot)

/-- An absolute word written. -/
def Lane.putWord (x : Lane) (allot w : Nat) (v : Word) : Lane := x.putPos (w % allot) v

/-- A local beyond L (R8). -/
def Lane.beyond (x : Lane) (n : Nat) : Bool := decide (8 ≤ n) && decide (n < 48) && decide (x.locals ≤ n - 8)

/-- The thread index of a lane (R123). -/
def State.tid (s : State) (l : Nat) : Nat := s.gr.sgrp * s.gr.width + l

/-- A lane register as a source (R7); in a unit of a Umell template lid reads the thread's index in the unit and gw its threads (R346; log entry 79). -/
def State.reg (s : State) (l n : Nat) : Word :=
  match (s.lane l).winWord n with
  | some w => (s.lane l).word s.gr.allot w
  | none =>
    match n with
    | 57 => BitVec.ofNat 32 (if s.gr.umell.isSome then s.tid l else l)
    | 58 => BitVec.ofNat 32 (s.tid l)
    | 59 => s.st.dep
    | 60 => BitVec.ofNat 32 (s.gr.umell.getD s.gr.width)
    | _ => 0

/-- A lane register as a destination; fields 56 to 63 discard (R7). -/
def Lane.setReg (x : Lane) (allot n : Nat) (v : Word) : Lane :=
  match x.winWord n with
  | some w => x.putWord allot w v
  | none => x

/-- A pair as a source (R4, R9). -/
def State.regPair (s : State) (l n : Nat) : Pair := s.reg l (n + 1) ++ s.reg l n

/-- A pair as a destination. -/
def Lane.setPair (x : Lane) (allot n : Nat) (v : Pair) : Lane :=
  (x.setReg allot n (v.extractLsb' 0 32)).setReg allot (n + 1) (v.extractLsb' 32 32)

/-- Consecutive registers as destinations. -/
def Lane.setRegs (x : Lane) (allot n : Nat) (vs : List Word) : Lane :=
  match vs with
  | [] => x
  | v :: r => Lane.setRegs (x.setReg allot n v) allot (n + 1) r

/-- A change of the lanes of a set. -/
def State.mapLanes (s : State) (m : Mask) (f : Nat → Lane → Lane) : State :=
  { s with gr := { s.gr with lanes := s.gr.lanes.mapIdx (fun l x => if m.has l then f l x else x) } }

/-- A core's group slot (R58). -/
def Group.coreSlot (g : Group) : Nat := g.part * 16 + g.slot

/-- The core of a group, numbered across the device. -/
def Group.coreId (g : Group) : Nat := coreNo g.die g.core

/-- FRAGID of a stream of a group: 0 for a home path (R291). -/
def fragId (g : Group) (k : StreamKind) : Nat :=
  match k with
  | .fragment e => g.coreSlot * 256 + e
  | _ => 0

/-- A scalar register as a source (R13). -/
def State.sreg (s : State) (n : Nat) : Word :=
  if n < 60 then s.st.sregs.getD n 0
  else if n = 61 then BitVec.ofNat 32 s.gr.sgrp
  else if n = 62 then BitVec.ofNat 32 s.un.index
  else if n = 63 then BitVec.ofNat 32 (fragId s.gr s.st.kind)
  else 0

/-- A scalar pair as a source. -/
def State.sregPair (s : State) (n : Nat) : Pair := s.sreg (n + 1) ++ s.sreg n

/-- A scalar register written; fields 60 to 63 discard (R13). -/
def State.setSreg (s : State) (n : Nat) (v : Word) : State :=
  if n < 60 then { s with st := { s.st with sregs := s.st.sregs.set n v } } else s

/-- A scalar pair written. -/
def State.setSpair (s : State) (n : Nat) (v : Pair) : State :=
  (s.setSreg n (v.extractLsb' 0 32)).setSreg (n + 1) (v.extractLsb' 32 32)

/-- A pair base (R9). -/
def isPair (n : Nat) : Bool := decide (n % 2 = 0) && decide (n < 56)

/-- A quad base (R9). -/
def isQuad (n : Nat) : Bool := decide (n % 4 = 0) && decide (n < 56)

/-- The lanes of a set in which some of the fields is a local beyond L (R8). -/
def State.beyondIn (s : State) (m : Mask) (fields : List Nat) : Mask :=
  Mask.ofPred (fun l => m.has l && fields.any (s.lane l).beyond)

/-- The shape of R74: a static check, the R8 check over the guarded lanes, then f on each of them. -/
def State.perLane (s : State) (g : BitVec 4) (legal : Bool) (fields : List Nat) (f : Nat → Lane → Lane) : Verdict :=
  if !legal then .trap .illegal s.st.exm s
  else if s.beyondIn (s.active g) fields ≠ 0 then .trap .regBound (s.beyondIn (s.active g) fields) s
  else .next (s.mapLanes (s.active g) f)

/-- A 32-bit operation of two sources. -/
def State.alu2 (s : State) (g : BitVec 4) (d a b : BitVec 6) (f : Word → Word → Word) : Verdict :=
  s.perLane g true [d.toNat, a.toNat, b.toNat]
    (fun l x => x.setReg s.gr.allot d.toNat (f (s.reg l a.toNat) (s.reg l b.toNat)))

/-- A 64-bit operation of two sources (R75). -/
def State.alu2w (s : State) (g : BitVec 4) (d a b : BitVec 6) (f : Pair → Pair → Pair) : Verdict :=
  s.perLane g (isPair d.toNat && isPair a.toNat && isPair b.toNat)
    [d.toNat, d.toNat + 1, a.toNat, a.toNat + 1, b.toNat, b.toNat + 1]
    (fun l x => x.setPair s.gr.allot d.toNat (f (s.regPair l a.toNat) (s.regPair l b.toNat)))

/-- A W64 consumer (R51, R75). -/
def State.alu2x (s : State) (g : BitVec 4) (d a b : BitVec 6) (f : Word → Word → Word) (h : Pair → Pair → Pair) :
    Verdict :=
  if s.wide then s.alu2w g d a b h else s.alu2 g d a b f

/-- An operation that reads its destination as a source too. -/
def State.alu3 (s : State) (g : BitVec 4) (d a b : BitVec 6) (f : Word → Word → Word → Word) : Verdict :=
  s.perLane g true [d.toNat, a.toNat, b.toNat]
    (fun l x => x.setReg s.gr.allot d.toNat (f (s.reg l d.toNat) (s.reg l a.toNat) (s.reg l b.toNat)))

/-- A fused form: the addend is d, or the register that C of the prefix names (R51). -/
def State.alu3c (s : State) (g : BitVec 4) (d a b : BitVec 6) (f : Word → Word → Word → Word) : Verdict :=
  match s.extC with
  | none => s.alu3 g d a b f
  | some c =>
    s.perLane g true [d.toNat, a.toNat, b.toNat, c.toNat]
      (fun l x => x.setReg s.gr.allot d.toNat (f (s.reg l c.toNat) (s.reg l a.toNat) (s.reg l b.toNat)))

/-- An operation of one source. -/
def State.alu1 (s : State) (g : BitVec 4) (d a : BitVec 6) (f : Word → Word) : Verdict :=
  s.perLane g true [d.toNat, a.toNat] (fun l x => x.setReg s.gr.allot d.toNat (f (s.reg l a.toNat)))

/-- A compare that combines its condition into predicate p (R89). -/
def Lane.setPred (x : Lane) (p : Nat) (v : Bool) : Lane :=
  { x with preds := if v then x.preds ||| ((1#12) <<< p) else x.preds &&& ~~~ ((1#12) <<< p) }

/-- A lane predicate as a source; 12 reads true (R90). -/
def Lane.pred (x : Lane) (p : Nat) : Bool := if p < 12 then x.preds.getLsbD p else true

/-- A uniform predicate as a source; 8 reads true (R97). -/
def State.upred (s : State) (p : Nat) : Bool := if p < 8 then s.st.q.getLsbD p else true

/-- A uniform predicate written. -/
def State.setUpred (s : State) (p : Nat) (v : Bool) : State :=
  { s with st := { s.st with q := if v then s.st.q ||| ((1#8) <<< p) else s.st.q &&& ~~~ ((1#8) <<< p) } }

/-- The shape of R76: a static check whatever the guard, then f once if the uniform guard is true. -/
def State.once (s : State) (g : BitVec 4) (legal : Bool) (f : State → State) : Verdict :=
  if !legal then .trap .illegal s.st.exm s else if s.uniGuard g then .next (f s) else .next s

/-- A 32-bit scalar operation of two sources. -/
def State.salu2 (s : State) (g : BitVec 4) (d a b : BitVec 6) (f : Word → Word → Word) : Verdict :=
  s.once g true (fun x => x.setSreg d.toNat (f (x.sreg a.toNat) (x.sreg b.toNat)))

/-- A W64 consumer of the uniform set (R91). -/
def State.salu2x (s : State) (g : BitVec 4) (d a b : BitVec 6) (f : Word → Word → Word) (h : Pair → Pair → Pair) :
    Verdict :=
  if s.wide then
    s.once g (isPair d.toNat && isPair a.toNat && isPair b.toNat)
      (fun x => x.setSpair d.toNat (h (x.sregPair a.toNat) (x.sregPair b.toNat)))
  else s.salu2 g d a b f

end Sys2Proof.Machine
end

