-- ==== Sys2Proof/Machine/Translate.lean ====
section
/-!
DEFINITION. Translation: peer windows (R353, R354), the L1 TLB (R175), page tables (R177 to R180) and their built-in walk (log entry 9), the walk queue (R324), translation registers (R172 to R174), and scratchpad windows (R161, R162).
-/
namespace Sys2Proof.Machine

/-- The record of a context. -/
def State.ctxRec (s : State) (c : Nat) : Option Ctx := s.ctxs.find? (fun x => x.ctx == c)

/-- A context changed. -/
def State.modCtx (s : State) (c : Nat) (f : Ctx → Ctx) : State :=
  { s with ctxs := s.ctxs.map (fun x => if x.ctx = c then f x else x) }

/-- A die's record. -/
def State.dieRec (s : State) (d : Nat) : DieRec := (s.dies.find? (fun x => x.die == d)).getD (DieRec.start d)

/-- A die changed. -/
def State.modDie (s : State) (d : Nat) (f : DieRec → DieRec) : State :=
  { s with dies := s.dies.map (fun x => if x.die = d then f x else x) }

/-- Whether a stream is privileged (R321). -/
def Stream.isPriv (x : Stream) : Bool :=
  x.privileged || (match x.kind with
    | .walker _ | .pair => true
    | _ => false)

/-- What a translation finds. -/
inductive Trans where
  | ok (l : Loc)
  | absent (host : Bool)
  | refused (host : Bool)
  | walk (ats : Bool)
  /-- a fault that nobody repairs (R300, R361) -/
  | lost
  | peer (dev : BitVec 12) (rctx : Word) (rva : Nat)
deriving DecidableEq, Repr

/-- Whether an uncorrectable error has struck some of n bytes at a location (R391). line: in a line of on-chip memory, else in a sector of HBM. -/
def State.poisoned (s : State) (line : Bool) (l : Loc) (n : Nat) : Bool :=
  match l with
  | .host _ => false
  | .dev a | .enc _ a => s.poison.any (fun p => p.line == line && decide (p.addr < a + n) && decide (a < p.addr + p.size))

/-- A translation of n bytes, refused where an uncorrectable error has struck an HBM sector, and where lines is set a line of on-chip memory as well (R391). -/
def Trans.struck (t : Trans) (s : State) (lines : Bool) (n : Nat) : Trans :=
  match t with
  | .ok l => if s.poisoned false l n || (lines && s.poisoned true l n) then .refused false else .ok l
  | x => x

/-- An on-chip address is reached only where chip is set, and only where the map assigns it (R158 to R160). -/
def Trans.seen (t : Trans) (chip : Bool) : Trans :=
  match t with
  | .ok (.dev a) => if a < Config.hbmBytes || (chip && (chipLoc a).isSome) then .ok (.dev a) else .refused false
  | x => x

/-- The access kinds of NEED: read, write, fetch (R324). -/
def needR : BitVec 3 := 1
def needW : BitVec 3 := 2
def needRW : BitVec 3 := 3
def needX : BitVec 3 := 4

/-- Whether the permissions cover the need (R179). -/
def Perms.allow (p : Perms) (need : BitVec 3) : Bool :=
  (!need.getLsbD 0 || p.r) && (!need.getLsbD 1 || p.w) && (!need.getLsbD 2 || p.x)

/-- The VA of the peer that a VA in a window names (R353). -/
def PeerWindow.remote (w : PeerWindow) (va : Nat) : Nat := w.rbase.toNat * 2 ^ 30 + (va - w.lbase.toNat * 2 ^ 30)

/-- The peer window of a context that holds a VA, among its 16 (R353). -/
def State.window (s : State) (ctx va : Nat) : Option PeerWindow :=
  (s.ctxRec ctx).bind (fun c => (c.windows.take 16).find? (fun w =>
    w.valid && decide (w.lbase.toNat * 2 ^ 30 ≤ va) && decide (va < (w.lbase.toNat + w.size.toNat) * 2 ^ 30)))

/-- Whether some conjunction port is up (R352): without one there is no route to a peer (R354). -/
def State.linked (s : State) : Bool := decide (s.dev.down.length < 16)

/-- What a page-table walk finds: a leaf is its frame, page size, permissions and flags (R178). -/
inductive Leaf where
  | absent
  | refused
  | page (pa size : Nat) (perms : Perms) (host noMig enc : Bool)
deriving DecidableEq, Repr

/-- The permission bits of an entry. -/
def ptePerms (e : Nat) : Perms := ⟨e.testBit 2, e.testBit 3, e.testBit 4⟩

/-- The frame of an entry. -/
def pteFrame (e : Nat) : Nat := e / 2 ^ 12 % 2 ^ 40 * 2 ^ 12

/-- R160, R179: whether a leaf may name this frame. -/
def frameOk (os : Bool) (pa : Nat) : Bool := decide (pa < Config.hbmBytes) || (os && (chipLoc pa).isSome)

/-- A leaf entry at a level checked by rows 3 and 4 of R179. -/
def leafOf (os : Bool) (e size : Nat) : Leaf :=
  if pteFrame e % size ≠ 0 then .refused
  else if e.testBit 6 then .page (pteFrame e) size (ptePerms e) true (e.testBit 7) (e.testBit 8)
  else if frameOk os (pteFrame e) then .page (pteFrame e) size (ptePerms e) false (e.testBit 7) (e.testBit 8)
  else .refused

/-- The walk of R177 and R179 from a level's table at base; a table of the device OS's context may lie in an on-chip window (R160). -/
def State.walkLevel (s : State) (os : Bool) (va : Nat) (level base : Nat) : Leaf :=
  let e := s.getN (.dev (base + 8 * (va / 2 ^ (12 + 9 * level) % 512))) 8
  match level with
  | 0 => if !e.testBit 0 then .absent else leafOf os e (2 ^ 12)
  | k + 1 =>
    if !e.testBit 0 then .absent
    else if e.testBit 1 then (if 2 ≤ k then .refused else leafOf os e (2 ^ (12 + 9 * (k + 1))))
    else if frameOk os (pteFrame e) then s.walkLevel os va k (pteFrame e)
    else .refused

/-- The walk of a VA in a context's tables; a context that does not exist maps nothing. -/
def State.walkVa (s : State) (ctx va : Nat) : Leaf :=
  match s.ctxRec ctx with
  | some c => s.walkLevel (ctx == Config.osCtx) va 4 c.root
  | none => .absent

/-- The key of a page of a context: that of a confidential one, where ENC is set (R178, R392, log entry 11). -/
def State.keyOf (s : State) (ctx : Nat) (enc : Bool) : Option Nat := if enc then (s.ctxRec ctx).bind (·.key) else none

/-- The PASID that tags a host translation of a context (R175). -/
def State.pasidOf (s : State) (ctx : Nat) : Nat := ((s.ctxRec ctx).map (·.pasid)).getD 0

/-- The TLB entry of a core that covers a VA. -/
def State.tlbHit (s : State) (core ctx va : Nat) : Option TlbEntry :=
  s.tlb.find? (fun e => e.core == core && e.ctx == ctx && decide (e.va ≤ va) && decide (va < e.va + e.size))

/-- An entry put into a core's TLB; the oldest goes when the core holds 256 (log entry 14). -/
def State.tlbPut (s : State) (e : TlbEntry) : State :=
  let own := s.tlb.filter (fun x => x.core == e.core)
  let rest := s.tlb.filter (fun x => x.core != e.core)
  { s with tlb := rest ++ (if own.length < Config.tlbEntries then own else own.drop 1) ++ [e] }

/-- Whether a die's walker routine is loaded; if not, the built-in walk serves it (log entry 9). -/
def State.walkerLoaded (s : State) (die : Nat) : Bool :=
  s.allStreams.any (fun x => match x.kind with
    | .walker n => n / 16 == die && x.status != .ended
    | _ => false)

/-- A walk's answer kept for one that waited for it (R327). -/
def State.answerFor (s : State) (who die ctx page : Nat) (need : BitVec 3) : Option Nat :=
  ((s.dieRec die).answers.find? (fun a => a.ctx == ctx && a.page == page && a.need == need && a.who.contains who)).map (·.status)

/-- The answer kept for the issuing stream. -/
def State.answer (s : State) (die ctx page : Nat) (need : BitVec 3) : Option Nat := s.answerFor s.st.sid die ctx page need

/-- The translation of a VA of a context in its own tables, by a core for an access of who: a stream, or the number under which a requester of its own waits (R172, R175, R179, R327). -/
def State.translateHere (s : State) (who core ctx va : Nat) (need : BitVec 3) : Trans :=
  match s.tlbHit core ctx va with
  | some e => if e.perms.allow need then .ok (e.loc.plus (va - e.va)) else .refused (e.pasid != 0)
  | none =>
    match s.answerFor who (dieOf core) ctx (va / 4096) need with
    | some 1 => .absent false
    | some 3 => .absent true
    | some 4 => .lost
    | some _ => .refused false
    | none =>
      if s.walkerLoaded (dieOf core) then .walk false
      else match s.walkVa ctx va with
        | .absent => .absent false
        | .refused => .refused false
        | .page pa size p host _ enc =>
          if !p.allow need then .refused host
          else if host then .walk true
          else .ok (devLoc (s.keyOf ctx enc) (pa + va % size))

/-- The same where a VA in a peer window names the peer's memory, which no code comes from (R354). -/
def State.translateFor (s : State) (who core ctx va : Nat) (need : BitVec 3) : Trans :=
  match s.window ctx va with
  | some w => if need.getLsbD 2 || !s.linked then .refused false else .peer w.dev w.rctx (w.remote va)
  | none => s.translateHere who core ctx va need

/-- The translation of a VA by a core for an access of the issuing stream; on-chip windows are open to its privileged code alone (R160). -/
def State.translate (s : State) (core ctx va : Nat) (need : BitVec 3) : Trans :=
  (s.translateFor s.st.sid core ctx va need).seen s.st.isPriv

/-- The entry that a successful built-in walk leaves in the TLB (R175, R179). -/
def State.tlbFill (s : State) (core ctx va : Nat) : State :=
  match s.tlbHit core ctx va, s.walkVa ctx va with
  | none, .page pa size p false _ enc =>
    s.tlbPut { core := core, ctx := ctx, pasid := 0, va := va / size * size, size := size, loc := devLoc (s.keyOf ctx enc) pa, perms := p }
  | _, _ => s

/-- A miss put into the walk queue of the core's die, joining a request with the same key (R324); a host page sends its ATS request at once when no walker routine is loaded (R328). -/
def State.queueWalk (s : State) (core ctx va : Nat) (need : BitVec 3) (ats : Bool) : State :=
  let die := dieOf core
  let d := s.dieRec die
  let pasid := s.pasidOf ctx
  let same : WalkReq → Bool := fun r => r.ctx == ctx && r.pasid == pasid && r.page == va / 4096 && r.need == need
  if d.walks.any same then
    s.modDie die (fun x => { x with walks := x.walks.map (fun r =>
      if same r then { r with cores := if r.cores.contains core then r.cores else r.cores ++ [core] } else r) })
  else
    let r : WalkReq := { tag := d.nextTag, ctx := ctx, pasid := pasid, page := va / 4096, need := need, cores := [core],
                         taken := none, refused := false, stale := false }
    let s1 := s.modDie die (fun x => { x with walks := x.walks ++ [r], nextTag := x.nextTag + 1 })
    if ats then s1.say (.atsRequest 0 (die * 65536 + d.nextTag.toNat) ctx va pasid need) else s1

/-- A translation that still misses, with the answer of its walk (R327). -/
def Trans.answered (t : Trans) (a : Option Nat) : Trans :=
  match t, a with
  | .walk _, some 1 => .absent false
  | .walk _, some 3 => .absent true
  | .walk _, some 4 => .lost
  | .walk _, some _ => .refused true
  | x, _ => x

/-- One that waited has taken its answers (R327). -/
def State.dropAnswersOf (s : State) (who : Nat) : State :=
  { s with dies := s.dies.map (fun d => { d with answers :=
      (d.answers.map (fun a => { a with who := a.who.filter (· != who) })).filter (fun a => !a.who.isEmpty) }) }

/-- The issuing stream has taken its answers. -/
def State.dropAnswers (s : State) : State := s.dropAnswersOf s.st.sid

/-- The bytes of the run that starts at va on frame pa, of at most len bytes, walked page by page (R172, R212, R354). A run holds pages with ENC or pages without, no mix (log entry 11). -/
def State.runLen (s : State) (ctx : Nat) (p : Perms) (enc : Bool) (fuel va pa len : Nat) : Nat :=
  match fuel with
  | 0 => 0
  | k + 1 =>
    if len = 0 ∨ (s.window ctx va).isSome then 0
    else match s.walkVa ctx va with
      | .page f size q false _ e =>
        if f + va % size = pa ∧ q = p ∧ e = enc then
          let n := size - va % size
          if len ≤ n then len else n + s.runLen ctx p enc k (va + n) (pa + n) (len - n)
        else 0
      | _ => 0

/-- The binding that TBSET makes (R172, R212). -/
def State.bindTb (s : State) (ctx va len : Nat) : TransReg :=
  match s.walkVa ctx va with
  | .page f size p false _ enc =>
    { bound := true, va := va, len := len, run := f + va % size,
      limit := s.runLen ctx p enc (2 ^ 20 + 1) va (f + va % size) len, perms := p, stale := false, key := s.keyOf ctx enc }
  | _ => { bound := true, va := va, len := len, run := 0, limit := 0, perms := ⟨false, false, false⟩, stale := false }

/-- Translation register n of the issuing stream. -/
def State.tbReg (s : State) (n : Nat) : TransReg := s.st.tb.getD n TransReg.unbound

/-- Whether the issuing stream addresses physical memory: a walker lane (R325). -/
def Stream.physical (x : Stream) : Bool :=
  match x.kind with
  | .walker _ => true
  | _ => false

/-- Whether a VA of the issuing stream's context has a walk to wait for: no entry of its core's TLB covers it and the die's walker routine serves the miss (R175). A walker lane's address is physical and has none (R325). -/
def State.unwalked (s : State) (va : Nat) : Bool :=
  !s.st.physical && s.walkerLoaded (dieOf s.gr.coreId) && (s.window s.gr.ctx va).isNone && (s.tlbHit s.gr.coreId s.gr.ctx va).isNone

/-- The binding that TBSET makes on a core: while the first page has a walk to wait for, none of the run is known and the next access translates again (R172, R175). -/
def State.tbBinding (s : State) (va len : Nat) : TransReg :=
  if s.unwalked va then { bound := true, va := va, len := len, run := 0, limit := 0, perms := ⟨false, false, false⟩, stale := true }
  else s.bindTb s.gr.ctx va len

/-- A stale register translated again before its next access (R174). -/
def State.freshTb (s : State) (n : Nat) : State :=
  if (s.tbReg n).bound && (s.tbReg n).stale then
    s.modSt (fun x => { x with tb := x.tb.set n (s.tbBinding (s.tbReg n).va (s.tbReg n).len) })
  else s

/-- Check 3 of R200 for a global access: the offset lies in the register's length and the address below 2^57 (R172, R201). -/
def State.offsetOk (s : State) (n : Nat) (off : Int) (size : Nat) : Bool :=
  let t := s.tbReg n
  t.bound && decide (0 ≤ off) && decide (off + size ≤ t.len) && decide (t.va + off < 2 ^ 57)

/-- The translation of an access at an offset of a translation register (R172, R325). -/
def State.transTb (s : State) (n off size : Nat) (need : BitVec 3) : Trans :=
  let t := s.tbReg n
  if s.st.physical then
    (if frameOk true (t.va + off) then .ok (.dev (t.va + off)) else .refused false)
  else if off + size ≤ t.limit then
    (if t.perms.allow need then (Trans.ok (devLoc t.key (t.run + off))).seen s.st.isPriv else .refused false)
  else s.translate s.gr.coreId s.gr.ctx (t.va + off) need

/-- Where a scratchpad access of a unit's core ci lies: the core's index in the unit and the offset in its window (R161, R162). -/
def UnitRec.locate (u : UnitRec) (ci o size : Nat) : Option (Nat × Nat) :=
  if u.coop then
    let k := o / 2 ^ 19
    if k < u.cores.length ∧ o % 2 ^ 19 + size ≤ u.scratch then some (k, o % 2 ^ 19) else .none
  else if o + size ≤ u.scratch then some (ci, o) else .none

/-- Where a scratchpad access of the issuing group lies. -/
def State.scratchAt (s : State) (off : Int) (size : Nat) : Option (Nat × Nat) :=
  if off < 0 then none else s.un.locate s.gr.coreIndex off.toNat size

/-- The on-chip address of a byte of a window of the issuing unit (R159). -/
def State.scratchLoc (s : State) (k o : Nat) : Loc :=
  match s.un.cores[k]? with
  | some c => .dev (Config.onChip + c.die * 2 ^ 44 + c.core * 2 ^ 38 + c.base + o)
  | none => .dev Config.onChipEnd

/-- Whether an access of n bytes at an offset lies in the window and meets no poisoned line (R161, R391). -/
def State.scratchGood (s : State) (off : Int) (n : Nat) : Bool :=
  match s.scratchAt off n with
  | some (k, o) => !s.poisoned true (s.scratchLoc k o) n
  | none => false

/-- Bytes of a scratchpad window. -/
def State.scratchGet (s : State) (k o n : Nat) : Nat :=
  match s.un.cores[k]? with
  | some c => c.window.getN o n
  | none => 0

/-- Bytes of a scratchpad window written. -/
def State.scratchPut (s : State) (k o v n : Nat) : State :=
  s.modUn (fun u => { u with cores := u.cores.modify k (fun c => { c with window := c.window.putN o v n }) })

end Sys2Proof.Machine
end

