-- ==== Sys2Proof/Machine/Streams.lean ====
section
/-!
DEFINITION. The issuing stream and the others: which one issues, where it stands in its clause (R18, R44), its flags (R19), restart points (R309, R311), overlay slots (R242), the event counters (R379), cache effects (R164 to R170) and launch status (R366).
-/
namespace Sys2Proof.Machine

/-- A stream brought into st, with its group and unit; the issuing one goes back to the lists. -/
def State.focus (s : State) (sid : Nat) : State :=
  if s.st.sid = sid then s
  else match s.streams.find? (fun x => x.sid == sid) with
    | none => s
    | some x =>
      let rest := s.streams.filter (fun y => y.sid != sid)
      let s1 := { s with st := x, streams := if s.st.sid = 0 then rest else rest ++ [s.st] }
      if x.gid = s.gr.gid then s1
      else match s.groups.find? (fun g => g.gid == x.gid) with
        | none => s1
        | some g =>
          let gs := s.groups.filter (fun y => y.gid != g.gid)
          let s2 := { s1 with gr := g, groups := if s.gr.live then gs ++ [s.gr] else gs }
          if g.uid = s.un.uid then s2
          else
            let u := (s.units.find? (fun y => y.uid == g.uid)).getD UnitRec.none
            let us := s.units.filter (fun y => y.uid != g.uid)
            { s2 with un := u, units := if s.un.live then us ++ [s.un] else us }

/-- A stream by number. -/
def State.stream? (s : State) (sid : Nat) : Option Stream := s.allStreams.find? (fun x => x.sid == sid)

/-- A live group by number. -/
def State.group? (s : State) (gid : Nat) : Option Group := s.allGroups.find? (fun g => g.live && g.gid == gid)

/-- A live unit by number. -/
def State.unit? (s : State) (uid : Nat) : Option UnitRec := s.allUnits.find? (fun u => u.live && u.uid == uid)

/-- A launch changed. -/
def State.modLaunch (s : State) (key : Nat) (f : Launch → Launch) : State :=
  { s with launches := s.launches.map (fun x => if x.key = key then f x else x) }

/-- The launch of a unit. -/
def State.launchOf (s : State) (u : UnitRec) : Option Launch := s.launches.find? (fun x => x.key == u.launch)

/-- R366: the status of the first event of the list that the launch met, and the first trap's cause (R365). -/
def State.launchStatus (s : State) (key status : Nat) (detail : BitVec 8) : State :=
  s.modLaunch key (fun x => { x with status := max x.status status, detail := if x.detail = 0 then detail else x.detail })

/-- A core's registers changed. -/
def State.modCore (s : State) (core : Nat) (f : CoreRec → CoreRec) : State :=
  { s with cores := s.cores.map (fun x => if x.core = core then f x else x) }

/-- A core's registers. -/
def State.coreRec (s : State) (core : Nat) : Option CoreRec := s.cores.find? (fun x => x.core == core)

/-- An event counted by the counters whose select names its source (R379). -/
def bump (src n : Nat) (sel : List Word) (cnt : List (BitVec 48)) : List (BitVec 48) :=
  cnt.mapIdx (fun i c => if (sel.getD i 0).toNat % 256 = src ∧ (sel.getD i 0).getLsbD 8 then c + BitVec.ofNat 48 n else c)

/-- Core events. -/
def State.countCore (s : State) (core src n : Nat) : State :=
  s.modCore core (fun x => { x with ecnt := bump src n x.ecsel x.ecnt })

/-- Die events. -/
def State.countDie (s : State) (die src n : Nat) : State :=
  s.modDie die (fun x => { x with ecnt := bump src n x.ecsel x.ecnt })

/-- Tile-cache events of a die by tensor tag: a select with TAGEN counts its own tag alone (R379). -/
def State.countTile (s : State) (die src : Nat) (tag : BitVec 12) : State :=
  s.modDie die (fun x => { x with ecnt := x.ecnt.mapIdx (fun i c =>
    let e : Word := x.ecsel.getD i 0
    if e.toNat % 256 = src ∧ e.getLsbD 8 ∧ (!e.getLsbD 19 ∨ e.extractLsb' 20 12 = tag) then c + 1 else c) })

/-- N of a header, 0 meaning 16 (R44). -/
def hdrN (h : Word) : Nat := if h.toNat / 2 ^ 28 = 0 then 16 else h.toNat / 2 ^ 28

/-- WAIT, SETA, SETB, MARK and CONV of a header (R44). -/
def hdrWait (h : Word) : BitVec 12 := h.extractLsb' 16 12
def hdrSetA (h : Word) : Nat := (h.extractLsb' 12 4).toNat
def hdrSetB (h : Word) : Nat := (h.extractLsb' 8 4).toNat
def hdrMark (h : Word) : Bool := h.getLsbD 7
def hdrConv (h : Word) : Bool := h.getLsbD 6

/-- The flag that counts a memory access or an engine command of the issuing clause, if one does (R19). -/
def State.setA (s : State) : Option Nat := if hdrSetA s.st.hdr < 12 then some (hdrSetA s.st.hdr) else none
def State.setB (s : State) : Option Nat := if hdrSetB s.st.hdr < 12 then some (hdrSetB s.st.hdr) else none

/-- One more outstanding operation under a flag. -/
def State.flagAdd (s : State) (f : Option Nat) : State :=
  match f with
  | some i => s.modSt (fun x => { x with flags := x.flags.modify i (· + 1) })
  | none => s

/-- Whether an operation of a stream stands in the program order of x: its own, or one of those with which that order begins (R187). -/
def Stream.owns (x : Stream) (sid op : Nat) : Bool := x.sid == sid || x.lineage.any (fun a => a.1 == sid && decide (op < a.2))

/-- Operation op of a stream under a flag has completed (R20), for the stream and for the fragments whose flag tracks it (R291); streams that wait for flags look again. -/
def State.flagDone (s : State) (sid op : Nat) (f : Option Nat) : State :=
  match f with
  | some i => s.mapStreams (fun x => if !x.owns sid op then x else
      { x with flags := x.flags.modify i (· - 1),
               status := if x.status = .waitFlags then .runnable else x.status })
  | none => s

/-- The flags whose outstanding count is not 0. -/
def Stream.pending (x : Stream) : BitVec 12 :=
  (List.range 12).foldl (fun b i => if x.flags.getD i 0 = 0 then b else b ||| ((1#12) <<< i)) 0

/-- PATHD: every entry, on chip and spilled (R125). -/
def Stream.pathd (x : Stream) : Nat := x.stack.length + x.below.length

/-- The address of the instruction at which the stream stands: its EXT word's for a pair (R52). -/
def State.instrPc (s : State) : CodeVa := if s.st.ext.isSome then s.st.pc - 4 else s.st.pc

/-- The position of that address in its clause. -/
def State.instrPos (s : State) : Nat := if s.st.ext.isSome then s.st.pos - 1 else s.st.pos

/-- The segment of a code address (R45). -/
def segOf (a : CodeVa) : Nat := a.toNat / 4096 * 4096

/-- The valid slot that holds a segment for a context: new transfers match it (R242, R243). -/
def State.slotFor (s : State) (core ctx va : Nat) : Option Overlay :=
  s.overlays.find? (fun o => o.core == core && o.ctx == ctx && o.va == va && !o.marked)

/-- The slot a stream runs from: the one in which it has fetched its clause, valid or marked; else a valid one, else one that is marked but still pinned (R243). -/
def State.slotOf (s : State) (x : Stream) (core ctx va : Nat) : Option Overlay :=
  let same : Overlay → Bool := fun o => o.core == core && o.ctx == ctx && o.va == va
  match x.slot.bind (fun n => s.overlays.find? (fun o => same o && o.gen == n)), s.slotFor core ctx va with
  | some o, _ | none, some o => some o
  | none, none => s.overlays.find? same

/-- The word at a code address as the issuing stream's core holds it. -/
def State.codeWord (s : State) (a : CodeVa) : Option Word :=
  (s.slotOf s.st s.gr.coreId s.gr.ctx (segOf a)).map (fun o => sparseGet 0#32 o.words (a.toNat % 4096 / 4 * 4))

/-- Whether a transfer to a code address finds its segment (R110). -/
def State.segPresent (s : State) (a : CodeVa) : Bool := (s.slotFor s.gr.coreId s.gr.ctx (segOf a)).isSome

/-- A transfer, a pop, a resume or a restart takes the stream into the valid slot of its segment (R243, R244). -/
def State.enterSlot (s : State) : State :=
  if s.st.fresh || s.st.slot.isNone then
    s.modSt (fun x => { x with slot := (s.slotFor s.gr.coreId s.gr.ctx (segOf x.pc)).map (·.gen) })
  else s

/-- A stream, running or parked, pins the slot that holds its PC (R242); one that has fetched nothing in its segment yet, whichever slot holds that. -/
def State.pinned (s : State) (o : Overlay) : Bool :=
  s.allStreams.any (fun x => x.status != .ended && segOf x.pc == o.va && x.slot.all (· == o.gen) &&
    (s.allGroups.any (fun g => g.live && g.gid == x.gid && g.coreId == o.core && g.ctx == o.ctx)))

/-- Slots of an overlay: 64 for a core, 16 for a conjugator unit (R2, R248). -/
def slotCount (core : Nat) : Nat := if Config.coresPerDie ≤ core % 64 then 16 else 64

/-- A slot from which a stream fetches a clause has been used (R242, log entry 65). -/
def State.slotUsed (s : State) (core ctx va : Nat) : State :=
  { s with overlays := s.overlays.map (fun o => if o.core = core ∧ o.ctx = ctx ∧ o.va = va then { o with used := s.dev.clock.toNat } else o) }

/-- A segment put into a slot: a present one is refreshed; else the least recently used slot that is not pinned gives way; with every slot pinned the fetch is dropped (R242). -/
def State.slotPut (s : State) (core ctx va : Nat) (ws : List (Nat × Word)) : State :=
  match s.slotFor core ctx va with
  | some _ => { s with overlays := s.overlays.map (fun o =>
      if o.core = core ∧ o.ctx = ctx ∧ o.va = va ∧ !o.marked then { o with used := s.dev.clock.toNat } else o) }
  | none =>
    let new : Overlay := { core := core, ctx := ctx, va := va, words := ws, marked := false, used := s.dev.clock.toNat,
                           gen := (s.overlays.filter (fun o => o.core == core && o.ctx == ctx && o.va == va)).foldl (fun n o => max n (o.gen + 1)) 0 }
    let own := s.overlays.filter (fun o => o.core == core)
    if own.length < slotCount core then { s with overlays := s.overlays ++ [new] }
    else
      let free := own.filter (fun o => !s.pinned o)
      match free with
      | [] => s.countCore core 10 1
      | f :: r =>
        let old : Overlay := r.foldl (fun a b => if b.used < a.used then b else a) f
        { s with overlays := s.overlays.filter (fun o => decide (o ≠ old)) ++ [new] }

/-- The translation of a segment for a code fetch of who: a stream, or the number under which another requester waits (R175, R179, R242). chip: it may come from an on-chip window (R160). -/
def State.segTrans (s : State) (who core ctx va : Nat) (chip : Bool) : Trans :=
  ((s.translateFor who core ctx va needX).seen chip).struck s true 4096

/-- The words of a segment at a location; those that are 0 are left out. -/
def State.wordsAt (s : State) (l : Loc) : List (Nat × Word) :=
  (List.range 1024).foldr (fun i acc =>
    let w := BitVec.ofNat 32 (s.getN (l.plus (4 * i)) 4)
    if w = 0 then acc else (4 * i, w) :: acc) []

/-- The built-in walk that an access of a core or of an engine makes where its TLB misses: the entry that it leaves, one miss and one completed walk (R175, R379; log entry 9). -/
def State.noteWalk (s : State) (core ctx va : Nat) : State :=
  if (s.tlbHit core ctx va).isSome || (s.window ctx va).isSome || s.walkerLoaded (dieOf core) then s
  else ((s.tlbFill core ctx va).countCore core 6 1).countDie (dieOf core) 6 1

/-- A marked slot goes once nothing pins it (R243). -/
def State.dropMarked (s : State) : State :=
  { s with overlays := s.overlays.filter (fun o => !o.marked || s.pinned o) }

/-- The core cluster of a core: six cores of a die (R188). A unit that is none of the 36 cores records in the die's last cluster (R377; log entry 70). -/
def clusterOf (core : Nat) : Nat := dieOf core * 6 + min (core % 64 / 6) 5

/-- The L1 of a core invalidated by an acquire that reaches beyond it (R165). -/
def State.dropL1 (s : State) (core : Nat) : State := { s with l1 := s.l1.filter (fun x => x.core != core) }

/-- An acquire of the issuing stream at a scope: clu to sys always, unit when the unit is cooperative (R165). -/
def State.acquire (s : State) (scope : Nat) : State :=
  if 2 ≤ scope ∨ (scope = 1 ∧ s.un.coop) then s.dropL1 s.gr.coreId else s

/-- The L1 sector of an address that a core holds for a context: one never hits another's (R164, R390). -/
def State.l1Hit (s : State) (core ctx : Nat) (l : Loc) : Option L1Sector :=
  s.l1.find? (fun x => x.core == core && x.ctx == ctx && decide (x.sector = l.sector))

/-- Whether a line is held by a synchronisation engine (R170). -/
def State.isSync (s : State) (l : Loc) : Bool :=
  match l with
  | .dev a | .enc _ a => s.syncLines.contains (a / 128)
  | .host _ => false

/-- n bytes as a load of a core reads them for a context: from its L1 when it may and holds the sector (R164, R166). -/
def State.loadBytes (s : State) (core ctx : Nat) (useL1 : Bool) (l : Loc) (n : Nat) : Nat :=
  if useL1 && !s.isSync l then
    match s.l1Hit core ctx l with
    | some x => gatherLE (fun i => x.bytes.getD (l.num % 32 + i) 0) n
    | none => s.getN l n
  else s.getN l n

/-- The bytes of a sector at its home. -/
def State.sectorBytes (s : State) (l : Loc) : List Byte := (List.range 32).map (fun i => s.byteAt (l.sector.plus i))

/-- What a load leaves in the L1: a miss allocates; a load that reached the home, past the L1 or because a synchronisation engine served it, refreshes the sector that it names (R164, R166, R190, R191). -/
def State.noteLoad (s : State) (core ctx : Nat) (useL1 : Bool) (l : Loc) : State :=
  if !useL1 || s.isSync l then
    { s with l1 := s.l1.map (fun x => if x.core = core ∧ x.sector = l.sector then { x with bytes := s.sectorBytes l } else x) }
  else
    match s.l1Hit core ctx l with
    | some _ => s.countCore core 4 1
    | none =>
      let own := s.l1.filter (fun x => x.core == core)
      let rest := s.l1.filter (fun x => x.core != core)
      ({ s with l1 := rest ++ (if own.length < Config.l1Sectors then own else own.drop 1)
          ++ [(⟨core, ctx, l.sector, s.sectorBytes l⟩ : L1Sector)] } : State).countCore core 5 1

/-- A store updates the sectors of its core's L1 that it hits (R164). -/
def State.noteStore (s : State) (core : Nat) (l : Loc) (v : Byte) : State :=
  { s with l1 := s.l1.map (fun x => if x.core = core ∧ x.sector = l.sector then
      { x with bytes := x.bytes.set (l.num % 32) v } else x) }

/-- An atomic invalidates the sectors it names in its core's L1 (R166). -/
def State.noteAtomic (s : State) (core : Nat) (l : Loc) : State :=
  { s with l1 := s.l1.filter (fun x => !(x.core == core && decide (x.sector = l.sector))) }

/-- The counted reads of a keep class (R168). -/
def keepReads (cls : Nat) : Nat :=
  match cls with
  | 2 => 1
  | 3 => 2
  | 4 => 4
  | 5 => 8
  | _ => 0

/-- Lines of a die's tile cache: 160 MiB (R2). -/
def tileLines : Nat := 0x140000

/-- Lines of a die's synchronisation SRAM: 8 MiB (R2, R170). -/
def syncSram : Nat := 0x10000

/-- Whether a line of physical memory has its home on a die. -/
def lineOn (die line : Nat) : Bool := 128 * line / Config.hbmPerDie == die

/-- Whether a VA lies in its context's pinned window (R168). -/
def State.inPinned (s : State) (ctx va : Nat) : Bool :=
  match s.ctxRec ctx with
  | some c => decide (c.pinned.va ≤ va) && decide (va < c.pinned.va + c.pinned.len)
  | none => false

/-- The class that an access gives a line: pinned only in the window and within the quota, default outside them (R168). -/
def State.lineClass (s : State) (ctx va line cls : Nat) : Nat :=
  if cls ≠ 6 then cls
  else if s.inPinned ctx va && decide ((s.lines.filter (fun x => x.ctx == ctx && x.cls == 6 && x.line != line)).length <
      ((s.ctxRec ctx).map (·.pinned.quota)).getD 0) then 6 else 0

/-- The class that a line is treated as: a pinned one is pinned only while it lies in the window and among the quota's most recently used lines of its context, else default (R168, log entry 66). -/
def State.classNow (s : State) (x : TileLine) : Nat :=
  if x.cls ≠ 6 then x.cls
  else
    let later := (s.lines.reverse.takeWhile (fun y => y.line != x.line)).filter (fun y => y.ctx == x.ctx && y.cls == 6)
    if s.inPinned x.ctx x.va && decide (later.length < ((s.ctxRec x.ctx).map (·.pinned.quota)).getD 0) then 6 else 0

/-- A line that an access of a class hits: it takes the access's class and tag, but a pinned one stays pinned while it lies in the window; a keep line counts a load (R168). -/
def State.hitLine (s : State) (x : TileLine) (ctx va : Nat) (load : Bool) (cls : Nat) (tag : BitVec 12) : TileLine :=
  if s.classNow x = 6 then { x with tag := tag }
  else
    let c := s.lineClass ctx va x.line cls
    let left := if load && (2 ≤ x.cls && x.cls ≤ 5) then x.reads - 1 else x.reads
    if x.cls = c ∧ 2 ≤ c ∧ c ≤ 5 then { x with ctx := ctx, va := va, cls := if left = 0 then 0 else c, reads := left, tag := tag }
    else { x with ctx := ctx, va := va, cls := c, reads := keepReads c, tag := tag }

/-- The line that gives way on a die: a stream line, else a default one, else a keep line, each the least recently used; never a pinned one (R169; the whole die is one set, log entry 66). -/
def State.victim (s : State) (die : Nat) : Option TileLine :=
  let own := s.lines.filter (fun x => lineOn die x.line)
  match own.find? (fun x => x.cls == 1) with
  | some x => some x
  | none =>
    match own.find? (fun x => s.classNow x == 0 || x.cls == 7) with
    | some x => some x
    | none => own.find? (fun x => s.classNow x != 6)

/-- A line put into the tile cache of its home die; with nothing to give way it is not allocated (R169). -/
def State.allocLine (s : State) (x : TileLine) : State :=
  let die := 128 * x.line / Config.hbmPerDie
  if (s.lines.filter (fun y => lineOn die y.line)).length < tileLines then { s with lines := s.lines ++ [x] }
  else
    match s.victim die with
    | some v => { s with lines := s.lines.filter (fun y => y.line != v.line) ++ [x] }
    | none => s

/-- A tile-cache line touched by an access of a class (R168): a hit is the most recent use, a no-allocate access adds no line, a miss moves a sector of HBM (R379). -/
def State.touchLine (s : State) (ctx va : Nat) (l : Loc) (load : Bool) (cls : Nat) (tag : BitVec 12) : State :=
  match l.pa with
  | none => s
  | some a =>
    if Config.hbmBytes ≤ a ∨ s.isSync l then s
    else
      match s.lines.find? (fun x => x.line == a / 128) with
      | some x =>
        ({ s with lines := s.lines.filter (fun y => y.line != a / 128) ++ [s.hitLine x ctx va load cls tag] } : State).countTile
          (Loc.homeDie l) 1 tag
      | none =>
        let c := s.lineClass ctx va (a / 128) cls
        let s1 := if c = 7 then s else s.allocLine ⟨a / 128, ctx, va, c, tag, keepReads c⟩
        (s1.countTile (Loc.homeDie l) 2 tag).countDie (Loc.homeDie l) 3 1

/-- R169: the device OS demotes every line of a context and tag to stream. -/
def State.demoteLines (s : State) (ctx : Nat) (tag : BitVec 12) : State :=
  { s with lines := s.lines.map (fun x => if x.ctx = ctx ∧ x.tag = tag then { x with cls := 1, reads := 0 } else x) }

/-- A line becomes a synchronisation line when an atomic performs on it; when the SRAM of the die and its overflow area are full, the least recently used one returns to the tile cache (R170, log entry 66). -/
def State.syncLine (s : State) (l : Loc) : State :=
  match l.pa with
  | none => s
  | some a =>
    let s1 := { s with syncLines := s.syncLines.filter (· != a / 128) ++ [a / 128], lines := s.lines.filter (fun x => x.line != a / 128) }
    let own := s1.syncLines.filter (lineOn (Loc.homeDie l))
    if own.length ≤ syncSram then s1
    else if own.length ≤ syncSram + Config.syncOverflow then s1
    else
      match own with
      | [] => s1
      | old :: _ => ({ s1 with syncLines := s1.syncLines.filter (· != old) } : State).allocLine ⟨old, 0, 0, 0, 0, 0⟩

/-- The header of the clause that holds the place where the stream stands: the word there, when it is a header (R44, R304, R311). -/
def State.hdrHere (s : State) : Word := if s.instrPos = 0 then (s.codeWord s.instrPc).getD s.st.hdr else s.st.hdr

/-- The snapshot of a restart point where the stream now stands (R311). -/
def State.snapshot (s : State) : RestartPoint :=
  { pc := s.st.pc, hdr := s.hdrHere, pos := s.st.pos, exm := s.st.exm, fmt := s.st.fmt, dep := s.st.dep,
    pathd := s.st.pathd, cbatch := s.gr.cbatch, mbatch := s.gr.mbatch, flags := s.st.pending }

/-- A restart point set (R309); a stream that a CANCEL has reached stops there (R318). -/
def State.markRestart (s : State) : State :=
  s.modSt (fun x => { x with restart := s.snapshot, status := if x.cancelAt.isSome then .stopped else x.status })

/-- Whether a context is confidential (R381, R392). -/
def State.confidential (s : State) (ctx : Nat) : Bool := ((s.ctxRec ctx).bind (·.key)).isSome

/-- Whether breakpoints and precise stops act on a context: it is not confidential, or its owner has asked for them (R381). -/
def State.debuggable (s : State) (ctx : Nat) : Bool := !s.confidential ctx || s.ctxs.any (fun c => c.ctx == ctx && c.debug)

/-- A record of a cluster's trace buffer (R377): dropped and counted when 256 are held; a confidential context's records of type 2 to 4 carry NAME = 0, its fault records the cause alone, and it has none of type 1 (R381). -/
def State.trace (s : State) (core ctx type : Nat) (name rest : List Word) : State :=
  if type = 1 && s.confidential ctx then s
  else
    { s with clusters := s.clusters.map (fun c =>
        if c.cluster ≠ clusterOf core then c
        else if 256 ≤ c.trace.length then { c with loss := min 255 (c.loss + 1) }
        else
          let head := BitVec.ofNat 32 (type * 2 ^ 28 + c.loss * 2 ^ 20 + core % 64 % 6 * 2 ^ 16 + ctx % 2 ^ 16)
          let rest := if type = 4 && s.confidential ctx then [rest.getD 0 0 &&& 0x1F#32] else rest
          let nm := if 2 ≤ type && type ≤ 4 && s.confidential ctx then [0, 0, 0] else name.take 3
          { c with trace := c.trace ++ [(head :: BitVec.ofNat 32 s.dev.clock.toNat ::
              BitVec.ofNat 32 (s.dev.clock.toNat / 2 ^ 32) :: (nm ++ name.drop 3 ++ rest ++ List.replicate (9 - rest.length) 0))],
                   loss := 0 }) }

/-- The words w3 to w6 of a trace record: NAME, then group slot and FRAGID (R371, R377). -/
def State.traceName (s : State) : List Word :=
  [BitVec.ofNat 32 s.instrPc.toNat, BitVec.ofNat 32 (s.instrPc.toNat / 2 ^ 32), s.gr.cmdseq,
   BitVec.ofNat 32 (s.gr.coreSlot * 2 ^ 16 + fragId s.gr s.st.kind)]

end Sys2Proof.Machine
end

