-- ==== Sys2Proof/Machine/Frames.lean ====
section
/-!
DEFINITION. The frame spill engine (R182 to R186): background moves, the demands of CALL, RET and XMOV, and the addresses of the frame and divergence areas (R125, R185, R292).
-/
namespace Sys2Proof.Machine

/-- An access of the device for a group at a translation: the address, or the fault or the miss that it meets. -/
def areaResult (t : Trans) (lane va : Nat) (write : Bool) : Except LaneFault Loc :=
  let f : Bool → Bool → LaneFault := fun host refused =>
    { lane := lane, va := va, write := write, host := host, spill := true, refused := refused, settled := none }
  match t with
  | .ok l => .ok l
  | .absent h => .error (f h false)
  | .walk h => .error { f h false with miss := true }
  | .refused h => .error (f h true)
  | .lost => .error { f true true with settled := some false }
  | .peer .. => .error (f false true)

/-- The address that the spill engine, the path stack and the banking of a handler entry reach for a group in its frame area, its divergence area or a save block, for the stream or the group that waits for a walk as who: groups of conjugators, walkers and pairs have theirs in physical memory (R249, R324, R325, R388), others never in an on-chip window (R160). -/
def State.areaLoc (s : State) (who : Nat) (g : Group) (lane va : Nat) (write : Bool) : Except LaneFault Loc :=
  if g.uid = 0 then areaResult ((Trans.ok (.dev va)).seen true) lane va write
  else areaResult (((s.translateFor who g.coreId g.ctx va (if write then needW else needR)).seen false).struck s true 4) lane va write

/-- The walk that an access for a group makes, where the built-in one serves it (R379). -/
def State.areaWalk (s : State) (g : Group) (va : Nat) : State := if g.uid = 0 then s else s.noteWalk g.coreId g.ctx va

/-- What a miss of such an access waits for: its walk (R324), or in a peer window the peer's answer, which is asked for once (R354). -/
def State.askWalk (s : State) (g : Group) (f : LaneFault) : State :=
  match s.window g.ctx f.va with
  | none =>
    let t := s.queueWalk g.coreId g.ctx f.va (if f.write then needW else needR) f.host
    if t.dies = s.dies then s else t.countCore g.coreId 6 1
  | some w =>
    if s.st.peer.any (fun p => p.va == f.va && p.lane == 64 + f.lane) then s
    else
      let op : PeerOp := if f.write then .write f.bytes (BitVec.ofNat 128 f.data) else .read f.bytes
      (s.say (.peerRequest s.st.sid w.dev w.rctx [(64 + f.lane, w.remote f.va, op)])).modSt
        (fun x => { x with peer := x.peer ++ [{ lane := 64 + f.lane, va := f.va, write := f.write, answer := none, sure := true }] })

/-- A fault sent to the pager, or for a host page to the host, unless the die's walker routine has sent its page request (R300, R327); of a page in a peer window the peer's pager knows (R354). -/
def State.tellFault (s : State) (die ctx va : Nat) (need : BitVec 3) (host refused : Bool) : State :=
  if (s.window ctx va).isSome then s
  else if host then (if s.walkerLoaded die && !refused then s else s.askHost ctx va need)
  else s.ask (.deviceFault ctx va refused)

/-- An access of the device's own through a peer window that it has asked for (R354). -/
def State.farOf (s : State) (who ctx va : Nat) (op : PeerOp) : Option FarAccess :=
  s.far.find? (fun a => a.who == who && a.ctx == ctx && a.va == va && a.op == op)

/-- The device asks peers for accesses of its own, one request for each sector (R203, R354). -/
def State.askFar (s : State) (who ctx : Nat) (xs : List (Nat × PeerOp)) : State :=
  let as := (xs.filter (fun x => (s.farOf who ctx x.1 x.2).isNone)).mapIdx (fun i x =>
    ({ id := s.nextId + i, who := who, ctx := ctx, va := x.1, op := x.2, answer := none } : FarAccess))
  let at_ : FarAccess → Option (BitVec 12 × Word × Nat) := fun a => (s.window ctx a.va).map (fun w => (w.dev, w.rctx, w.remote a.va))
  let keys := (as.filterMap (fun a => (at_ a).map (fun k => (k.1, k.2.1, k.2.2 / 32)))).eraseDups
  { s with far := s.far ++ as, nextId := s.nextId + as.length,
           out := s.out ++ keys.map (fun k => .peerRequest 0 k.1 k.2.1 (as.filterMap (fun a => (at_ a).bind (fun x =>
             if (x.1, x.2.1, x.2.2 / 32) = k then some (a.id, x.2.2, a.op) else none)))) }

/-- What peers have answered to accesses of the device's own; until all of them have, the state in which it waits, with the address that it waits at. One that a peer has no page for is asked again once the peer's pager has served it (R354). -/
def State.farValues (s : State) (who ctx : Nat) (xs : List (Nat × PeerOp)) : Except (State × Nat) (List (BitVec 128)) :=
  match xs.find? (fun x => (s.farOf who ctx x.1 x.2).isNone) with
  | some x => .error (s.askFar who ctx xs, x.1)
  | none =>
    let as := xs.filterMap (fun x => s.farOf who ctx x.1 x.2)
    match as.find? (fun a => a.answer = some .absent), as.find? (fun a => a.answer = none || a.answer = some .refused) with
    | some a, _ => .error ({ s with far := s.far.filter (fun y => y.id != a.id) }, a.va)
    | none, some a => .error (s, a.va)
    | none, none => .ok (as.map (fun a => match a.answer with
        | some (.done v) => v
        | _ => 0))

/-- The device's accesses for a requester are over. -/
def State.dropFar (s : State) (who ctx : Nat) (vas : List Nat) : State :=
  { s with far := s.far.filter (fun a => !(a.who == who && a.ctx == ctx && vas.contains a.va)) }

/-- A fault of the issuing stream told, unless it is settled already (R354). -/
def State.reportFault (s : State) (f : LaneFault) : State :=
  if f.settled.isSome then s else s.tellFault s.gr.die s.gr.ctx f.va (if f.write then needW else needR) f.host f.refused

/-- What a peer has answered to the device's access of n bytes for a lane of a group's stream, or for the save or the restart of its unit; nothing yet is a miss (R354). -/
def State.areaAnswer (s : State) (g : Group) (lane va : Nat) (write : Bool) (data n : Nat) : Except LaneFault Nat :=
  let f : LaneFault := { lane := lane, va := va, write := write, host := false, spill := true, refused := false, settled := none, data := data, bytes := n }
  let op : PeerOp := if write then .write n (BitVec.ofNat 128 data) else .read n
  match ((s.farOf g.uid g.ctx va op).map (·.answer)).getD ((s.st.peer.find? (fun p => p.lane == 64 + lane && p.va == va)).bind (·.answer)) with
  | some (.done v) => .ok v.toNat
  | some .absent => .error f
  | some .refused => .error { f with refused := true, settled := some false }
  | none => .error { f with miss := true }

/-- n bytes written by such an access, 4 of a frame word or a save block or 16 of half a stack entry; one in a peer window travels (R354). -/
def State.areaPut (s : State) (who : Nat) (g : Group) (lane va v n : Nat) : Except LaneFault State :=
  if g.uid ≠ 0 ∧ (s.window g.ctx va).isSome ∧ s.linked then (s.areaAnswer g lane va true v n).map (fun _ => s)
  else match s.areaLoc who g lane va true with
    | .error f => .error f
    | .ok loc => .ok ((s.areaWalk g va).putN loc v n)

/-- n bytes read so. -/
def State.areaGet (s : State) (who : Nat) (g : Group) (lane va n : Nat) : Except LaneFault (State × Nat) :=
  if g.uid ≠ 0 ∧ (s.window g.ctx va).isSome ∧ s.linked then (s.areaAnswer g lane va false 0 n).map (fun v => (s, v))
  else match s.areaLoc who g lane va false with
    | .error f => .error f
    | .ok loc => .ok (s.areaWalk g va, s.getN loc n)

/-- The lines of the sectors at some addresses touched by such accesses: one access a sector, of the default class (R184, R185). -/
def State.touchArea (s : State) (who : Nat) (g : Group) (write : Bool) (vas : List Nat) : State :=
  vas.foldl (fun t va => match t.areaLoc who g 0 va write with
    | .ok loc => t.touchLine g.ctx va loc (!write) 0 0
    | .error _ => t) s

/-- What a replay asks its peers again is forgotten: all but what they have performed, and what the spill engine and the path stack have moved (R298, R354). -/
def Stream.forget (x : Stream) : Stream :=
  { x with peer := x.peer.filter (fun y => match y.answer with
    | some (.done _) => y.sure && (y.write || decide (64 ≤ y.lane))
    | _ => false) }

/-- Where absolute word w of lane l is spilled (R185). -/
def Group.spillVa (g : Group) (l w : Nat) : Nat := g.fa + 4 * (w * g.width + l)

/-- The words [lo, hi) that a demand has the engine move for a lane (R184). -/
def Demand.range (d : Demand) (x : Lane) : Nat × Nat :=
  if d.spill then
    (x.lowres, if d.need ≤ x.lowres then x.lowres else min (max x.lowres d.bound) (x.lowres + 32 * ((d.need - x.lowres + 31) / 32)))
  else
    (if x.lowres ≤ d.need then x.lowres else max (min d.bound x.lowres) (x.lowres - 32 * ((x.lowres - d.need + 31) / 32)), x.lowres)

/-- The sectors that lanes (l, lo, hi) name with their words [lo, hi), each by the word and the first of its 8 lanes: lanes that name the same word share one access (R184, R185). -/
def rangeSectors (rs : List (Nat × Nat × Nat)) : List (Nat × Nat) :=
  (List.range 8).flatMap (fun b =>
    let mine := rs.filter (fun r => r.1 / 8 == b && decide (r.2.1 < r.2.2))
    let lo := mine.foldl (fun n r => min n r.2.1) ((mine[0]?).map (·.2.1) |>.getD 0)
    let hi := mine.foldl (fun n r => max n r.2.2) 0
    (List.range (hi - lo)).filterMap (fun i =>
      if mine.any (fun r => decide (r.2.1 ≤ lo + i) && decide (lo + i < r.2.2)) then some (lo + i, 8 * b) else none))

/-- The sectors that the demands of a group's lanes move (R181, R184). -/
def Group.demandSectors (g : Group) (ds : List Demand) : List (Nat × Nat) :=
  rangeSectors (ds.map (fun d => (d.lane, d.range (g.lanes.getD d.lane Lane.start))))

/-- Words [lo, lo + n) of a lane written to its frame area (R185). -/
def State.spillWords (s : State) (who : Nat) (g : Group) (l : Nat) (x : Lane) (lo n : Nat) : Except LaneFault State :=
  match n with
  | 0 => .ok s
  | k + 1 =>
    match s.spillWords who g l x lo k with
    | .error f => .error f
    | .ok s1 => s1.areaPut who g l (g.spillVa l (lo + k)) (x.word g.allot (lo + k)).toNat 4

/-- Words [lo, lo + n) of a lane read back from its frame area. -/
def State.refillWords (s : State) (who : Nat) (g : Group) (l : Nat) (x : Lane) (lo n : Nat) : Except LaneFault (State × Lane) :=
  match n with
  | 0 => .ok (s, x)
  | k + 1 =>
    match s.refillWords who g l x lo k with
    | .error f => .error f
    | .ok (s1, y) => (s1.areaGet who g l (g.spillVa l (lo + k)) 4).map (fun r => (r.1, y.putWord g.allot (lo + k) (BitVec.ofNat 32 r.2)))

/-- The demand of CALL, CALLR and handler entry (R184): chunks of at most 32 words go out until lowres reaches need; none at or above bound. -/
def State.spillTo (s : State) (who : Nat) (g : Group) (l : Nat) (x : Lane) (need bound fuel : Nat) : Except LaneFault (State × Lane) :=
  match fuel with
  | 0 => .ok (s, x)
  | k + 1 =>
    if need ≤ x.lowres ∨ bound ≤ x.lowres then .ok (s, x)
    else
      match s.spillWords who g l x x.lowres (min 32 (bound - x.lowres)) with
      | .error f => .error f
      | .ok s1 => (s1.countCore g.coreId 12 1).spillTo who g l { x with lowres := min (x.lowres + 32) bound } need bound k

/-- The demand of RET and XMOV (R184): chunks [max(lowres - 32, floor), lowres) come back until lowres is at most need. -/
def State.refillTo (s : State) (who : Nat) (g : Group) (l : Nat) (x : Lane) (need floor fuel : Nat) : Except LaneFault (State × Lane) :=
  match fuel with
  | 0 => .ok (s, x)
  | k + 1 =>
    if x.lowres ≤ need then .ok (s, x)
    else
      let lo := max (x.lowres - 32) floor
      match s.refillWords who g l x lo (x.lowres - lo) with
      | .error f => .error f
      | .ok (s1, y) => (s1.countCore g.coreId 13 1).refillTo who g l { y with lowres := lo } need floor k

/-- top - lowres, the resident words of a lane (R182). -/
def Lane.resident (x : Lane) : Nat := x.fb + 58 - x.lowres

/-- What a background move of a group meets: a miss waits in the walk queue, a fault goes to the pager of the group's die and context (R186, R324). -/
def State.bgFault (s : State) (g : Group) (f : LaneFault) : State :=
  if f.miss then (if (s.window g.ctx f.va).isSome then s else s.askWalk g f)
  else
    let s1 := (s.areaWalk g f.va).dropAnswersOf g.gid
    if f.settled.isSome then s1 else s1.tellFault g.die g.ctx f.va (if f.write then needW else needR) f.host f.refused

/-- The lines that a move of words [lo, hi) of a lane touches. -/
def State.touchMove (s : State) (who : Nat) (g : Group) (write : Bool) (rs : List (Nat × Nat × Nat)) : State :=
  s.touchArea who g write ((rangeSectors rs).map (fun k => g.spillVa k.2 k.1))

/-- A background spill of a lane (R183); a page fault leaves the chunk where it is and goes to the pager (R186). -/
def State.bgSpill (s : State) (g : Group) (l : Nat) : State :=
  let x := g.lanes.getD l Lane.start
  if g.allot - x.resident < 64 ∧ x.lowres < x.fb then
    match s.spillWords g.gid g l x x.lowres (min 32 (x.fb - x.lowres)) with
    | .error f => s.bgFault g f
    | .ok s1 =>
      ((s1.touchMove g.gid g true [(l, x.lowres, min (x.lowres + 32) x.fb)]).countCore g.coreId 12 1).modGroup g.gid (fun h =>
        { h with lanes := h.lanes.modify l (fun y => { y with lowres := min (x.lowres + 32) x.fb }) })
  else s

/-- A background refill of a lane (R183). -/
def State.bgRefill (s : State) (g : Group) (l : Nat) : State :=
  let x := g.lanes.getD l Lane.start
  if g.allot - x.resident < 64 ∧ x.lowres < x.fb then s
  else if x.fb - x.lowres < 64 ∧ 0 < x.lowres ∧ 96 ≤ g.allot - x.resident then
    match s.refillWords g.gid g l x (x.lowres - 32) (x.lowres - (x.lowres - 32)) with
    | .error f => s.bgFault g f
    | .ok (s1, y) =>
      ((s1.touchMove g.gid g false [(l, x.lowres - 32, x.lowres)]).countCore g.coreId 13 1).modGroup g.gid (fun h =>
        { h with lanes := h.lanes.set l { y with lowres := x.lowres - 32 } })
  else s

/-- A demand served for the issuing stream: the lane's new lowres and words, or the fault it met (R184, R186); a miss queues its walk, and the stream waits for it (R324). -/
def State.serve (s : State) (d : Demand) : State :=
  let x := s.lane d.lane
  let put : Lane → State → State := fun y t => t.modGr (fun g => { g with lanes := g.lanes.set d.lane y })
  let r := if d.spill then
      s.spillTo s.st.sid s.gr d.lane (d.words.foldl (fun y w => y.putWord s.gr.allot w.1 w.2) x) d.need d.bound 128
    else s.refillTo s.st.sid s.gr d.lane x d.need d.bound 128
  match r with
  | .ok (s1, y) => put (if d.spill then { x with lowres := y.lowres } else y) s1
  | .error f =>
    if f.miss then (s.askWalk s.gr f).modSt (fun t => { t with status := .waitWalk })
    else ((s.areaWalk s.gr f.va).dropAnswers).modSt (fun t => { t.forget with faults := t.faults ++ [{ f with settled := none, dead := f.settled.isSome }] })

/-- The demands that a group of lanes makes: what each lane moves, and one access for each sector that moved (R184). -/
def State.serveAll (s : State) (ds : List Demand) : State :=
  let s1 := ds.foldl State.serve s
  let moved : Bool → List (Nat × Nat × Nat) := fun spill =>
    (ds.filter (fun d => d.spill == spill)).map (fun d =>
      let a := (s.lane d.lane).lowres
      let b := (s1.lane d.lane).lowres
      (d.lane, min a b, max a b))
  (s1.touchMove s.st.sid s.gr true (moved true)).touchMove s.st.sid s.gr false (moved false)

end Sys2Proof.Machine
end

