-- ==== Sys2Proof/Machine/Paths.lean ====
section
/-!
DEFINITION. The path stack of the issuing stream (R125, R126, R292), the membership of its path (R122), and named barriers (R134 to R136, R149).
-/
namespace Sys2Proof.Machine

/-- Entries of a stream's stack below which the running path does not reach: in a handler, those of the trapped stream (R306). -/
def Stream.floor (x : Stream) : Nat := if x.privileged then x.trap.hpathd else 0

/-- The entries of the running path, the youngest first, spilled ones as they were pushed. -/
def Stream.entries (x : Stream) : List PathEntry := (x.stack ++ x.below).take (x.pathd - x.floor)

/-- The topmost JOIN with its position, counted from the oldest entry. -/
def Stream.topJoin (x : Stream) : Option (Nat × PathEntry) :=
  let es := x.entries
  match es.dropWhile (fun e => !e.join) with
  | [] => .none
  | e :: _ => some (x.pathd - 1 - (es.takeWhile (fun e => !e.join)).length, e)

/-- The lanes from which the membership starts when no JOIN is on the stack. -/
def Stream.floorLanes (x : Stream) : Mask := if x.privileged then x.trap.mask else x.base

/-- R122: the membership of the running path. -/
def Stream.membership (x : Stream) : Mask :=
  let pends := x.entries.takeWhile (fun e => !e.join)
  let start := match x.topJoin with
    | some (_, e) => e.mask
    | .none => x.floorLanes
  pends.foldl (fun m e => m.minus e.mask) (start &&& x.base)

/-- On-chip entries, entries written by an overflow, and entries in all: R125 for a group, R292 for a fragment. -/
def stackSizes (k : StreamKind) : Nat × Nat × Nat :=
  match k with
  | .fragment _ => (4, 2, 132)
  | _ => (16, 8, 528)

/-- The fragment-table entry of a stream (R305). -/
def State.tableEntry (s : State) : Nat :=
  match s.st.kind with
  | .fragment e => e
  | _ => s.gr.coreSlot

/-- The stream save block of the issuing stream (R305). -/
def State.saveBlock (s : State) : Nat :=
  ((s.coreRec s.gr.coreId).map (·.sbase)).getD 0 + 0x2000 * s.tableEntry

/-- The address of spilled entry i of the issuing stream's stack (R125, R292). -/
def State.entryVa (s : State) (i : Nat) : Nat :=
  match s.st.kind with
  | .fragment _ => s.saveBlock + 0x1000 + 32 * i
  | _ => s.gr.da + 32 * i

/-- An entry as the 32 bytes of R126. -/
def PathEntry.bits (e : PathEntry) : Nat :=
  e.addr.toNat + (if e.join then 0 else 2 ^ 63) + e.depth.toNat * 2 ^ 64 + e.fmt.toNat * 2 ^ 96 + e.mask.toNat * 2 ^ 128

/-- An entry from its 32 bytes. -/
def PathEntry.ofBits (n : Nat) : PathEntry :=
  { join := !n.testBit 63, addr := BitVec.ofNat 57 n, depth := BitVec.ofNat 32 (n / 2 ^ 64),
    mask := BitVec.ofNat 64 (n / 2 ^ 128), fmt := BitVec.ofNat 32 (n / 2 ^ 96) }

/-- Entries written to the spill area, the youngest first; i is the position of the oldest of them. -/
def State.spillEntries (s : State) (i : Nat) (es : List PathEntry) : Except LaneFault State :=
  match es with
  | [] => .ok s
  | e :: r =>
    match s.spillEntries i r with
    | .error f => .error f
    | .ok s1 =>
      let va := s1.entryVa (i + r.length)
      match s1.areaPut s1.st.sid s1.gr s1.st.exm.lowest va (e.bits % 2 ^ 128) 16 with
      | .error f => .error f
      | .ok s2 => (s2.areaPut s2.st.sid s2.gr s2.st.exm.lowest (va + 16) (e.bits / 2 ^ 128) 16).map (fun t => t.touchArea t.st.sid t.gr true [va])

/-- n spilled entries read back, those at positions i and up, the youngest first; ended lanes stay absent (R116). -/
def State.readEntries (s : State) (i n : Nat) : Except LaneFault (State × List PathEntry) :=
  match n with
  | 0 => .ok (s, [])
  | k + 1 =>
    match s.readEntries i k with
    | .error f => .error f
    | .ok (t, es) =>
      let va := s.entryVa (i + k)
      let half : State → Nat → Except LaneFault (State × Nat) := fun u o => u.areaGet s.st.sid s.gr s.st.base.lowest (va + o) 16
      match half t 0 with
      | .error f => .error f
      | .ok (t1, lo) =>
        match half t1 16 with
        | .error f => .error f
        | .ok (t2, hi) =>
          let e := PathEntry.ofBits (lo + hi * 2 ^ 128)
          .ok (t2.touchArea s.st.sid s.gr false [va], { e with mask := e.mask &&& s.gr.alive } :: es)

/-- How a push ends. -/
inductive Push where
  | ok (s : State)
  | overflow
  | fault (f : LaneFault)
deriving DecidableEq, Repr

/-- A push onto the issuing stream's stack (R125, R292). -/
def State.push (s : State) (e : PathEntry) : Push :=
  let (cap, n, most) := stackSizes s.st.kind
  if most ≤ s.st.pathd then .overflow
  else if s.st.stack.length < cap then .ok (s.modSt (fun x => { x with stack := e :: x.stack }))
  else
    let old := s.st.stack.drop (s.st.stack.length - n)
    match s.spillEntries s.st.below.length old with
    | .error f => .fault f
    | .ok s1 => .ok (s1.modSt (fun x =>
        { x with stack := e :: x.stack.take (x.stack.length - n), below := old ++ x.below }))

/-- Several pushes, the first of the list first. -/
def State.pushAll (s : State) (es : List PathEntry) : Push :=
  match es with
  | [] => .ok s
  | e :: r =>
    match s.push e with
    | .ok s1 => s1.pushAll r
    | .overflow => .overflow
    | .fault f => .fault f

/-- The stack with its top entry on chip (R125). -/
def State.refillStack (s : State) : Except LaneFault State :=
  if s.st.stack.isEmpty && !s.st.below.isEmpty then
    let n := min (stackSizes s.st.kind).2.1 s.st.below.length
    match s.readEntries (s.st.below.length - n) n with
    | .error f => .error f
    | .ok (t, es) => .ok (t.modSt (fun x => { x with stack := es, below := x.below.drop n }))
  else .ok s

/-- A waiting stream made runnable (R142). -/
def State.wake (s : State) (p : Stream → Bool) : State :=
  s.mapStreams (fun x => if p x then { x with status := .runnable, woken := x.bwait } else x)

/-- The barrier word i of the issuing unit on the issuing core. -/
def State.barrier (s : State) (i : Nat) : Barrier :=
  ((s.un.cores[s.gr.coreIndex]?).bind (fun c => c.bars[i]?)).getD (Barrier.ofWord 0)

/-- R136: the completion rule on one word, and whether the phase completed. -/
def Barrier.evaluate (b : Barrier) : Barrier × Bool :=
  if 0 < b.arrived.toNat ∧ b.expected.toNat ≤ b.arrived.toNat then ({ b with phase := !b.phase, arrived := 0 }, true)
  else (b, false)

/-- A barrier word of the issuing unit's core changed and completion evaluated; a completion ends the waits on the old phase, and leaving them is an acquire at unit scope (R136, R151, R154). -/
def State.modBarrier (s : State) (i : Nat) (f : Barrier → Barrier) : State :=
  let (b, done) := (f (s.barrier i)).evaluate
  let s1 := s.modUn (fun u => { u with cores := u.cores.modify s.gr.coreIndex (fun c => { c with bars := c.bars.set i b }) })
  if done then
    (((if s.un.coop then s1.dropL1 s.gr.coreId else s1) : State).countCore s.gr.coreId 14 1).wake (fun x => decide (x.status = .waitBarrier i) &&
      s1.allGroups.any (fun g => g.gid == x.gid && g.uid == s.gr.uid && g.coreId == s.gr.coreId))
  else s1

/-- R136: the lanes that depart lower EXPECTED of every AUTO barrier of the unit on this core, stopping at 0. -/
def State.lowerBarriers (s : State) (n : Nat) : State :=
  ((List.range ((s.un.cores[s.gr.coreIndex]?).map (·.bars.length) |>.getD 0))).foldl
    (fun t i => if (t.barrier i).auto then
        t.modBarrier i (fun b => { b with expected := BitVec.ofNat 16 (b.expected.toNat - n) }) else t) s

/-- R330: the lanes of a unit that have not ended. -/
def State.liveLanes (s : State) (uid : Nat) : Nat :=
  (s.allGroups.filter (fun g => g.live && g.uid == uid)).foldl (fun n g => n + g.alive.size) 0

/-- The streams of a unit that wait at a SYSCALL, as (sgrp, lowest lane, stream) (R330). -/
def State.sysWaiters (s : State) (uid : Nat) : List (Nat × Nat × Stream) :=
  s.allStreams.filterMap (fun x =>
    if x.status = .waitSyscall then
      match s.allGroups.find? (fun g => g.live && g.gid == x.gid && g.uid == uid) with
      | some g => some (g.sgrp, x.exm.lowest, x)
      | none => none
    else none)

/-- The sender of a call: the waiting stream that holds the lowest lane of the lowest group (R330). -/
def sysSender (ws : List (Nat × Nat × Stream)) : Option (Nat × Nat × Stream) :=
  match ws with
  | [] => none
  | w :: r =>
    match sysSender r with
    | none => some w
    | some v => if w.1 < v.1 ∨ (w.1 = v.1 ∧ w.2.1 ≤ v.2.1) then some w else some v

/-- The flag that counts the SYSCALLs of waiting streams clears when the call is sent (R330). -/
def State.clearSysFlags (s : State) (uid : Nat) : State :=
  (s.sysWaiters uid).foldl (fun t w => if hdrSetB w.2.2.hdr < 12 then t.modStream w.2.2.sid (fun x =>
    { x with flags := x.flags.modify (hdrSetB w.2.2.hdr) (· - 1) }) else t) s

/-- R330: the call goes to the device OS once every live lane of the unit has arrived. -/
def State.checkSyscall (s : State) : State :=
  if s.un.sysSent ∨ s.un.sysarr = 0 ∨ s.un.sysarr ≠ s.liveLanes s.un.uid then s
  else
    match sysSender (s.sysWaiters s.un.uid) with
    | none => s
    | some (_, l, x) =>
      match s.allGroups.find? (fun g => g.gid == x.gid) with
      | none => s
      | some g =>
        let args := (List.range 6).map (fun i => (g.lanes.getD l Lane.start).word g.allot ((g.lanes.getD l Lane.start).fb + i))
        let lid := ((s.launchOf s.un).map (·.lid)).getD 0
        ((s.clearSysFlags s.un.uid).modUn (fun u => { u with sysSent := true })).ask
          (.syscall s.un.ctx s.un.uid x.sysCode args s.un.index lid)

/-- The lanes of a set that wait at a SYSCALL count no longer among the arrivals when they end (R330, log entry 67). -/
def State.unarrive (s : State) (n : Nat) : State := s.modUn (fun u => { u with sysarr := u.sysarr - n })

/-- R116: the lanes of a set end: they leave EXM, the stack's masks and the restart state, lower the AUTO barriers, and may set a SYSCALL off or end the group. -/
def State.endLanes (s : State) (e : Mask) : State :=
  let cut : PathEntry → PathEntry := fun p => { p with mask := p.mask.minus e }
  let s1 := s.modSt (fun x =>
    { x with exm := x.exm.minus e, base := x.base.minus e, stack := x.stack.map cut, below := x.below.map cut,
             restart := { x.restart with exm := x.restart.exm.minus e } })
  let s2 := s1.modGr (fun g => { g with alive := g.alive.minus e })
  let s3 := (s2.lowerBarriers e.size).checkSyscall
  if s.gr.alive ≠ 0 ∧ s2.gr.alive = 0 then s3.post (.groupEnd s.gr.gid) else s3

/-- A fragment's stream leaves its pool entry, and a parent that waits for it looks again (R116, R294). -/
def State.dropFragment (s : State) (sid parent : Nat) : State :=
  let s1 := { s with streams := s.streams.filter (fun x => x.sid != sid),
                     st := if s.st.sid = sid then Stream.none else s.st }
  s1.wake (fun x => x.sid == parent && decide (x.status = .waitJoin))

/-- The fragments that target entry i of the issuing stream's stack (R293). -/
def State.rejoiners (s : State) (i : Nat) : List Stream :=
  s.streams.filter (fun x => x.rejoinSid == s.st.sid && x.rejoinPos == some i && x.status != .ended)

/-- The arrived fragments of entry i given back to the issuing stream (R294); what they have issued stands in its program order from here on (R187). -/
def State.rejoin (s : State) (i : Nat) : State :=
  let back := (s.rejoiners i).foldl (fun m x => m ||| x.base) 0
  let order := s.st.lineage ++ (s.rejoiners i).flatMap (fun x => (x.sid, s.nextId) :: x.lineage)
  let live := order.filter (fun a => s.stores.any (fun p => p.sid == a.1) || s.atomics.any (fun p => p.sid == a.1) || s.cmds.any (fun c => c.sid == a.1))
  { s with st := { s.st with base := s.st.base ||| back, lineage := live },
           streams := s.streams.filter (fun x => !(x.rejoinSid == s.st.sid && x.rejoinPos == some i && x.status != .ended)) }

end Sys2Proof.Machine
end

