-- ==== Sys2Proof/Machine/Ops.lean ====
section
/-!
DEFINITION. What instructions share: splitting a stream (R290 to R298), taking a precise trap and coming back (R301 to R308, R322), the end of a path (R127, R293, R294), and the retirement of an instruction (R309, R376, R379).
-/
namespace Sys2Proof.Machine

/-- The code of a cause (R59). -/
def Cause.code (c : Cause) : BitVec 8 :=
  match c with
  | .illegal => 0x01 | .misalign => 0x02 | .prot => 0x03 | .regBound => 0x04 | .segAbsent => 0x05 | .segEdge => 0x06
  | .unif => 0x07 | .bkpt => 0x08 | .trapi => 0x09 | .mshape => 0x0A | .mscale => 0x0B | .mkind => 0x0C
  | .batcherr => 0x0D | .objerr => 0x0E | .frameOvf => 0x0F | .priv => 0x11 | .syserr => 0x12 | .watchdog => 0x13
  | .double => 0x14

/-- A lane fault record (R299). -/
def faultRecord (va : Nat) (write host spill : Bool) (cause : Nat) : Word :=
  BitVec.ofNat 32 (va / 2 ^ 12 % 2 ^ 20 * 2 ^ 12 + write.toNat * 2 ^ 7 + host.toNat * 2 ^ 6 + spill.toNat * 2 ^ 5 + cause)

/-- The record of a lane fault (R299). -/
def LaneFault.record (f : LaneFault) : Word := faultRecord f.va f.write f.host f.spill (if f.refused then 0x1E else 0x1F)

/-- The record of a lane that a PROT concerns: it keeps the access's address (R299, R300). -/
def LaneFault.protRecord (f : LaneFault) : Word := faultRecord f.va f.write f.host f.spill Cause.prot.code.toNat

/-- The records that a PROT gives the lanes of a list of faults. -/
def protRecords (fs : List LaneFault) : List (Nat × Word) := fs.map (fun f => (f.lane, f.protRecord))

/-- One word in LANEFLT of each lane of a list. -/
def State.putRecords (s : State) (recs : List (Nat × Word)) : State :=
  recs.foldl (fun t r => t.modGr (fun g => { g with lanes := g.lanes.modify r.1 (fun x => { x with lanefault := r.2 }) })) s

/-- The records of the lanes of a list of faults written. -/
def State.noteFaults (s : State) (fs : List LaneFault) : State :=
  s.putRecords (fs.map (fun f => (f.lane, f.record)))

/-- LANEFLT of every lane of a set := a record without an address (R299). -/
def State.noteTrap (s : State) (c : Cause) (t : Mask) : State :=
  s.mapLanes t (fun _ x => { x with lanefault := faultRecord 0 false false false c.code.toNat })

/-- A stream's held quantum REDs sent to their homes (R196). -/
def State.flushHeld (s : State) (sid : Nat) : State :=
  match s.stream? sid with
  | none => s
  | some x =>
    if x.held.isEmpty then s
    else
      let core := ((s.allGroups.find? (fun g => g.gid == x.gid)).map Group.coreId).getD 0
      let a : PendAtomic := { id := s.nextId, sid := sid, gid := x.gid, core := core, ops := x.held.map (·.op), flags := x.heldFlags, sample := none,
                              more := x.held.flatMap (·.samples) }
      ({ s with atomics := s.atomics ++ [a], nextId := s.nextId + 1 }.modStream sid (fun y =>
        { y with held := [], heldFlags := [] })).post (.atomicPerform a.id)

/-- A command changed. -/
def State.modCmd (s : State) (id : Nat) (f : Cmd → Cmd) : State :=
  { s with cmds := s.cmds.map (fun c => if c.id = id then f c else c) }

/-- A command by number. -/
def State.cmd? (s : State) (id : Nat) : Option Cmd := s.cmds.find? (fun c => c.id == id)

/-- The group of a command. -/
def State.groupOf (s : State) (gid : Nat) : Group := (s.group? gid).getD Group.none

/-- A VA pair whole (R223). -/
def vaPair (lo hi : Word) : Nat := lo.toNat + hi.toNat * 2 ^ 32

/-- Word i of a descriptor. -/
def Cmd.w (c : Cmd) (i : Nat) : Word := c.regs.getD i 0

/-- A command that was parked, or that waited for a peer, goes on (R227). -/
def State.resumeCmd (s : State) (id : Nat) : State :=
  match s.cmd? id with
  | none => s
  | some c =>
    let parked : Bool := match c.state with
      | .parked _ | .waiting => true
      | _ => false
    if !parked then s
    else
      let s1 := s.modCmd id (fun x => { x with state := .accepted })
      match c.kind with
      | .copy _ => s1.post (.copyComplete id)
      | .mmv => s1.post (.mmvComplete id)
      | .cfetch => s1.post (.overlayFetchComplete c.core c.ctx c.arg)
      | .cred _ => s1.post (.credContributionArrival id)
      | .launch => s1.post (.launchRecordRead id)
      | .mmag => s1.post (.mmagEntry id)
      | _ => s1.post (.matrixOperation c.gid)

/-- Who waits for a walk of a page: the streams that wait for walks, the commands parked on the page, the units whose entry segment lies there, the groups whose frame area does, those that have ended and write their profile records, the accesses of peers there, the units whose save or restart it holds up with their streams, and 0 for the intake of a context whose count word or completion record does (R324, R327). -/
def State.walkWaiters (s : State) (r : WalkReq) : List Nat :=
  let streams : List Nat := (s.allStreams.filter (fun x => decide (x.status = .waitWalk) || (decide (x.status = .entryParked) && x.faults.isEmpty))).map (·.sid)
  let areas : List Nat := (s.allGroups.filter (fun g => g.live && g.uid != 0 && g.ctx == r.ctx && decide (g.fa / 4096 ≤ r.page) &&
    decide (4096 * r.page < g.fa + 4 * g.faw * g.width))).map (·.gid)
  let cmds : List Nat := (s.cmds.filter (fun c => c.ctx == r.ctx && (match c.state with
    | .parked va => va / 4096 == r.page
    | _ => false))).map (·.id)
  let units : List Nat := (s.allUnits.filter (fun u => u.live && u.ctx == r.ctx && s.allStreams.any (fun x =>
    decide (x.status = .waitPlaced) && x.pc.toNat / 4096 == r.page && s.allGroups.any (fun g => g.gid == x.gid && g.uid == u.uid)))).map (·.uid)
  let intake : List Nat := if s.ctxs.any (fun c => c.ctx == r.ctx && c.queues.any (fun q => q.any (fun x =>
      x.fields.dyn && x.fields.cntva / 4096 == r.page))) || s.records.any (fun x => x.ctx == r.ctx && x.va / 4096 == r.page) then [0] else []
  let ends : List Nat := (s.allGroups.filter (fun g => g.live && g.uid != 0 && g.ctx == r.ctx && g.alive == 0)).map (·.gid)
  let asks : List Nat := (s.peerAsks.filter (fun a => a.ctx == r.ctx && a.va / 4096 == r.page)).map (·.id)
  let saves : List Nat := (s.allUnits ++ s.saved.map (·.unit)).flatMap (fun u => if u.ctx = r.ctx ∧ u.saveWait = some r.page then
    u.uid :: (s.allStreams.filter (fun x => s.allGroups.any (fun g => g.gid == x.gid && g.uid == u.uid))).map (·.sid) else [])
  streams ++ cmds ++ units ++ areas ++ ends ++ asks ++ saves ++ intake

/-- Saves and restarts that a page holds up go on (R312, R316). -/
def State.resumeSaves (s : State) (ctx page : Nat) : State :=
  let go : UnitRec → UnitRec := fun u => if u.ctx = ctx ∧ u.saveWait = some page then { u with saveWait := none } else u
  { s.mapUnits go with saved := s.saved.map (fun v => { v with unit := go v.unit }) }

/-- Whether an instruction of a stream is held at issue (R376, log entry 78). -/
def Stream.heldAtIssue (x : Stream) : Bool :=
  match x.status with
  | .waitSpill | .waitWalk | .waitPeer | .waitOrder | .waitAccept _ | .waitObjdel _ | .waitFetch _ | .waitRequests => true
  | _ => false

/-- Those who waited look again. -/
def State.walkRetry (s : State) (r : WalkReq) (who : List Nat) : State :=
  let s0 := (s.allStreams.filter (fun x => who.contains x.sid && decide (x.status = .entryParked))).foldl (fun t x => t.post (.handlerEntryResume x.sid)) s
  let s1 := (who.foldl State.resumeCmd (s0.resumeSaves r.ctx r.page)).wake (fun x => who.contains x.sid && decide (x.status = .waitWalk))
  let s2 := (who.filter (fun i => s1.allUnits.any (fun u => u.live && u.uid == i))).foldl (fun t i => t.post (.entrySegmentFetch i)) s1
  let s3 := (who.filter (fun i => s2.allGroups.any (fun g => g.live && g.uid != 0 && g.gid == i && g.alive == 0))).foldl (fun t i => t.post (.groupEnd i)) s2
  if who.contains 0 then (s3.post (.launchFire r.ctx)).post (.launchComplete 0) else s3

/-- The result that a status gives a request (R327): 0 retry, 1 page fault, 2 refusal, 3 host page fault; 4 stands for a page request that the host has answered with failure (R300, R361). -/
def WalkReq.result (r : WalkReq) (status : Nat) : Nat :=
  if status = 0 then (if r.refused && !r.stale then 2 else 0) else if status < 5 then status else 2

/-- Walk requests completed with a status (R327). -/
def State.completeWalks (s : State) (die : Nat) (p : WalkReq → Bool) (status : Nat) : State :=
  let done := (s.dieRec die).walks.filter p
  let ans := done.filterMap (fun r =>
    if r.result status = 0 then none
    else some ({ ctx := r.ctx, page := r.page, need := r.need, status := r.result status, who := s.walkWaiters r } : WalkAnswer))
  let s1 := (s.modDie die (fun x => { x with walks := x.walks.filter (fun r => !p r), answers := x.answers ++ ans })).countDie die 6 done.length
  done.foldl (fun t r => t.walkRetry r (s.walkWaiters r)) s1

/-- The issuing stream is gone: its lanes have ended or its slot is stopped. -/
def State.dropSelf (s : State) : State := { s with st := Stream.none }

/-- The group of the issuing stream released without the bookkeeping of R116: a wave, a walker slot, a service pair. -/
def State.dropBareGroup (s : State) : State := { s with st := Stream.none, gr := Group.none, un := UnitRec.none }

/-- Replies of a batch on their way to their requesters (R250, R284). -/
def State.sendReplies (s : State) (rs : List ObjReply) : State :=
  rs.foldl (fun t r => { t with replies := t.replies ++ [r] }.post (.objectReplyArrival r.id)) s

/-- The handle of an object (R245). -/
def ObjSlot.handle (o : ObjSlot) : Word := BitVec.ofNat 32 (o.die * 2 ^ 30 + o.gen.toNat * 2 ^ 12 + o.idx)

/-- An object changed. -/
def State.modObject (s : State) (ctx idx : Nat) (f : ObjSlot → ObjSlot) : State :=
  s.modCtx ctx (fun c => { c with objects := c.objects.map (fun o => if o.idx = idx then f o else o) })

/-- The slot of an object that has ended but still has requests or a batch (R246). -/
def ObjSlot.ending (o : ObjSlot) : Bool := !o.live && (!o.queue.isEmpty || o.running)

/-- What a wave leaves in its conjugator's frame store (R249). -/
def State.keepColumns (s : State) : State :=
  match s.st.kind with
  | .wave u => s.modDie s.gr.die (fun d => { d with conj := d.conj.modify u (fun c =>
      { c with owner := s.gr.ctx, cols := s.gr.lanes.map (·.col) }) })
  | _ => s

/-- The conjugator that runs the issuing wave is free, its object may run its next batch (R248, R251); the end of a deleted object is due after its last one (R246). -/
def State.endWave (s : State) : State :=
  match s.st.wave with
  | none => s.dropBareGroup
  | some w =>
    let s1 := (s.keepColumns.modObject s.gr.ctx w.obj (fun o => { o with running := false })).dropBareGroup.post
      (.conjugatorBatchStart s.gr.die)
    match (s1.ctxRec s.gr.ctx).bind (fun c => c.objects.find? (fun o => o.idx == w.obj)) with
    | some o => if o.live || !o.queue.isEmpty then s1 else s1.post (.objdelAtHome s.gr.ctx o.handle)
    | none => s1

/-- R252: the batch is aborted; every request has an error reply with the cause. -/
def State.abortWave (s : State) (c : Cause) : State :=
  match s.st.wave with
  | none => s.dropBareGroup
  | some w => (s.sendReplies (w.reqs.map (fun r =>
      { id := r.id, sid := r.sid, lane := r.lane, value := 0, error := some c }))).endWave

/-- R325: a trap of some lanes of a walker slot is a machine check, and the requests it took are completed with status 2. Its fault record enters the trace buffer: the cause as LANEFLT has it, and the page of the request of the lowest lane concerned (R377). -/
def State.stopWalker (s : State) (slot : Nat) (c : Cause) (t : Mask) : State :=
  let mine := (s.dieRec (slot / 16)).walks.filter (fun r => r.taken == some slot)
  let va := 4096 * ((mine[t.lowest]?).map (·.page)).getD 0
  let s1 := s.trace s.gr.coreId s.gr.ctx 4 s.traceName
    [(s.lane t.lowest).lanefault, BitVec.ofNat 32 va, BitVec.ofNat 32 (va / 2 ^ 32)]
  ((s1.say (.machineCheck 1 c.code.toNat)).completeWalks (slot / 16) (fun r => r.taken == some slot) 2).dropBareGroup

/-- R387 to R389: the pair leaves service until the next start; with none left the device reports a fatal error. -/
def State.stopPair (s : State) (die : Nat) : State :=
  let s1 := (s.modDie die (fun d => { d with pairOk := false })).say (.machineCheck 2 die)
  if s.dieRec die |>.pairOk then
    (if s1.dies.any (·.pairOk) then s1 else { s1 with dev := { s1.dev with record := some (0, die, 2) } }.say (.fatal 0 die 2))
  else s1

/-- R307 TEND: every lane of every path and fragment of the issuing group ends; that may set a SYSCALL of the unit off (R330). -/
def State.killGroup (s : State) : State :=
  let mine := (s.allStreams.filter (fun x => x.gid == s.gr.gid)).map (·.sid)
  let arrived := (s.allStreams.filter (fun x => x.gid == s.gr.gid && decide (x.status = .waitSyscall))).foldl (fun n x => n + x.exm.size) 0
  let s1 := mine.foldl State.flushHeld (s.unarrive arrived)
  let s2 := { s1 with streams := s1.streams.filter (fun x => x.gid != s1.gr.gid), st := Stream.none }
  let s3 := (s2.modGr (fun g => { g with alive := 0 })).checkSyscall
  if s.gr.alive = 0 then s3 else s3.post (.groupEnd s.gr.gid)

/-- R308: DOUBLE. A second cause in a service pair's handler stops the pair (R388); of a confidential context the host sees the causes alone (R381). -/
def State.double (s : State) (first : Nat) (tpc : CodeVa) (second : Nat) (pc : CodeVa) : State :=
  match s.st.kind with
  | .pair => (s.stopPair s.gr.die).dropBareGroup
  | _ =>
    ((s.say (if s.confidential s.gr.ctx then .doubleRecord s.gr.ctx first 0 second 0 else .doubleRecord s.gr.ctx first tpc second pc)).launchStatus s.un.launch 3 (BitVec.ofNat 8 first)).killGroup

/-- DOUBLE for an event in the handler of the issuing stream. -/
def State.doubleIn (s : State) (second : Nat) (pc : CodeVa) : State :=
  s.double s.st.trap.cause.toNat s.st.trap.at_ second pc

/-- The entry that a trap of a context's stream takes (R344). -/
def State.contextEntry (s : State) (c : Cause) (w : Word) : Option CodeVa :=
  let sb := w.getLsbD 31
  let maj := (w.extractLsb' 25 6).toNat
  let fn := (w.extractLsb' 0 3).toNat
  let b : Nat :=
    if !sb && maj == 0x02 && decide (4 ≤ fn) then 2
    else if sb && maj == 0x14 && fn == 6 then 7
    else if (!sb && (maj == 0x1F || maj == 0x2C)) || (sb && maj == 0x16) then 8
    else if sb && maj == 0x18 then 9
    else if !sb && maj == 0x13 && fn == 7 then 10
    else if sb && maj == 0x15 then 11
    else 0
  let bound := if c = .illegal ∧ b ≠ 0 ∧ !Config.feat0.getLsbD b then
      ((s.ctxRec s.gr.ctx).bind (fun x => x.bindings.find? (fun e => e.1 == b))).map (·.2)
    else none
  match bound with
  | some e => some e
  | none => (s.ctxRec s.gr.ctx).bind (·.handler)

/-- The entry that a trap takes: a service pair's is fixed by the firmware image (R388), every other by its context (R344). -/
def State.trapEntry (s : State) (c : Cause) (w : Word) : Option CodeVa :=
  match s.st.kind with
  | .pair => some s.dev.pairEntry
  | _ => s.contextEntry c w

/-- The words that handler entry banks, with their offsets in the save block (R305). -/
def State.bankWords (s : State) : List (Nat × Word) :=
  let t := s.tbReg 7
  (List.range 12).map (fun i => (4 * i, s.st.sregs.getD (48 + i) 0)) ++
    [(0x30, BitVec.ofNat 32 t.va), (0x34, BitVec.ofNat 32 (t.va / 2 ^ 32)), (0x38, BitVec.ofNat 32 t.len),
     (0x3C, s.st.ix.getD 3 0), (0x40, if s.st.q.getLsbD 7 then 1 else 0)]

/-- Words written into the save block of the issuing stream, or what an access to it meets. -/
def State.putBlock (s : State) (ws : List (Nat × Word)) : Except LaneFault State :=
  match ws with
  | [] => .ok s
  | (o, w) :: r =>
    match s.areaPut s.st.sid s.gr 0 (s.saveBlock + o) w.toNat 4 with
    | .error f => .error f
    | .ok t => t.putBlock r

/-- Words of the save block, with their offsets. -/
def State.getBlock (s : State) (os : List Nat) : Except LaneFault (State × List (Nat × Word)) :=
  match os with
  | [] => .ok (s, [])
  | o :: r =>
    match s.areaGet s.st.sid s.gr 0 (s.saveBlock + o) 4 with
    | .error f => .error f
    | .ok (t, v) => (t.getBlock r).map (fun x => (x.1, (o, BitVec.ofNat 32 v) :: x.2))

/-- tb7 as a handler finds it: the first 4 KiB of the save block, which for a service pair lies in physical memory (R305, R388). -/
def State.blockTb (s : State) : TransReg :=
  if s.gr.uid = 0 then
    { bound := true, va := s.saveBlock, len := 0x1000, run := s.saveBlock, limit := 0x1000, perms := ⟨true, true, false⟩, stale := false }
  else s.tbBinding s.saveBlock 0x1000

/-- The handler window of a lane of T (R301, R333). -/
def Lane.enterHandler (x : Lane) (allot : Nat) : Lane :=
  let fb := x.fb + 18 + x.locals
  { x with fb := fb, locals := 0, trapL := x.locals }.putWord allot fb (BitVec.ofNat 32 x.locals)

/-- The demands of handler entry (R301, R184). -/
def State.entryDemands (s : State) : List Demand :=
  s.st.exm.lanes.filterMap (fun l =>
    let x := s.lane l
    let fb := x.fb + 18 + x.locals
    if fb + 58 - s.gr.allot ≤ x.lowres then none
    else some { lane := l, spill := true, need := fb + 58 - s.gr.allot, bound := fb, words := [] })

/-- The distinct sectors of a list of locations, in the order in which they first occur (R203). -/
def sectorsOf (ls : List Loc) : List Loc :=
  ls.foldl (fun acc l => if acc.contains l.sector then acc else acc ++ [l.sector]) []

/-- The requests that demands of a group's lanes need at once: the spill engine moves chunks of at most 32 words a lane (R184, log entry 61). -/
def Group.demandRequests (g : Group) (ds : List Demand) : Nat := min 256 (g.demandSectors ds).length

/-- The requests that a core has outstanding (R181): sectors of loads, stores, atomics, spill traffic and accesses through peer windows, and TLB misses. -/
def State.outstanding (s : State) (core : Nat) : Nat :=
  let mine : List Stream := s.allStreams.filter (fun x => s.allGroups.any (fun g => g.gid == x.gid && g.coreId == core))
  let here : Nat → Bool := fun sid => mine.any (fun x => x.sid == sid)
  mine.foldl (fun n x => n + x.loads.length +
      (if x.status = .waitSpill then (s.allGroups.filter (fun g => g.gid == x.gid)).foldl (fun k g => k + g.demandRequests x.demand) 0 else 0) +
      (((x.peer.filter (fun p => p.answer.isNone)).map (fun p => p.va / 32)).eraseDups).length) 0 +
    (s.stores.filter (fun x => here x.sid)).foldl (fun n x => n + (sectorsOf (x.writes.map (·.1))).length) 0 +
    (s.atomics.filter (fun x => here x.sid)).foldl (fun n x => n + (sectorsOf (x.ops.map (·.loc))).length) 0 +
    (s.dies.filter (fun d => d.die == dieOf core)).foldl (fun n d => n + (d.walks.filter (fun w => w.cores.contains core)).length) 0

/-- Whether a core has n requests left (R181). -/
def State.hasRoom (s : State) (n : Nat) : Bool := decide (s.outstanding s.gr.coreId + n ≤ 1536)

/-- The issuing stream waits for the walk of a segment that it fetches (R175). -/
def State.waitSegment (s : State) (va : Nat) (ats : Bool) : State :=
  (s.queueWalk s.gr.coreId s.gr.ctx va needX ats).modSt (fun x => { x with status := .waitWalk })

/-- A fault of the whole path that is not an access of one of its lanes. -/
def pathFault (va : Nat) (host : Bool) : LaneFault :=
  { lane := 64, va := va, write := false, host := host, spill := false, refused := false, settled := none }

/-- The trapped stream parks with the trap already taken (R301). -/
def State.parkEntry (s : State) (fs : List LaneFault) : State :=
  fs.foldl State.reportFault (s.modSt (fun x => { x with status := .entryParked, faults := fs }))

/-- The frame space of handler entry is there: the handler's segment, which the core fetches itself, and the handler starts (R301). -/
def State.startHandler (s : State) : State :=
  let start : State → State := fun t =>
    ((t.mapLanes t.st.exm (fun _ x => x.enterHandler t.gr.allot)).modSt (fun x =>
      { x with status := .runnable, pos := 0, fresh := false, slot := none })).markRestart
  let va := segOf s.st.pc
  if s.segPresent s.st.pc then start s
  else
    match s.segTrans s.st.sid s.gr.coreId s.gr.ctx va true with
    | .ok l =>
      let s2 := ((s.noteWalk s.gr.coreId s.gr.ctx va).dropAnswers).slotPut s.gr.coreId s.gr.ctx va (s.wordsAt l)
      if s2.segPresent s2.st.pc then start s2 else s2.modSt (fun x => { x with status := .entryParked })
    | .walk ats => (s.waitSegment va ats).modSt (fun x => { x with status := .entryParked })
    | .absent h =>
      if s.st.kind = .pair then s.doubleIn Cause.prot.code.toNat 0
      else ((s.noteWalk s.gr.coreId s.gr.ctx va).dropAnswers).parkEntry [{ pathFault va h with lane := s.st.exm.lowest }]
    | _ => s.doubleIn Cause.prot.code.toNat 0

/-- R301: entry completes: the banked registers reach the save block, then frame space, the handler's segment, and the handler starts. On a page fault the stream parks with the trap already taken; what waits for a walk, a peer or room for its requests stands so too, with no fault. -/
def State.completeEntry (s : State) : State :=
  let waits : State → State := fun t => t.modSt (fun x => { x with status := .entryParked, faults := [] })
  match s.putBlock s.st.bank with
  | .error f =>
    if f.miss then waits (s.askWalk s.gr f)
    else if f.refused || decide (s.st.kind = .pair) then s.doubleIn Cause.prot.code.toNat 0
    else ((s.areaWalk s.gr f.va).dropAnswers.modSt Stream.forget).parkEntry [f]
  | .ok s0 =>
    let s1 := s0.modSt (fun x => { x with faults := [], bank := [] })
    let ds := s1.entryDemands
    if ds ≠ [] ∧ s1.hasRoom (s1.gr.demandRequests ds) = false then waits s1
    else
      let s2 := s1.serveAll ds
      if s2.st.status = .waitWalk then waits s2
      else if s2.st.faults ≠ [] then
        if s2.st.kind = .pair || s2.st.faults.any (·.dead) then s2.doubleIn Cause.prot.code.toNat 0 else s2.parkEntry s2.st.faults
      else s2.startHandler

/-- The entry goes on, unless a CANCEL stops the stream at its restart point (R309, R318). -/
def State.enterIf (s : State) : State := if s.st.status = .stopped then s else s.completeEntry

/-- TINSTR: the word at the PC, the prefixed word of a pair, whether or not its EXT has been read; 0 past the end of a segment (R52, R304, log entry 16). -/
def State.trapWord (s : State) : Word :=
  let w := (s.codeWord s.st.pc).getD 0
  let next := (s.codeWord (s.st.pc + 4)).getD 0
  if s.st.ext.isNone && 0 < s.st.pos && s.st.pos < hdrN s.st.hdr && w.extractLsb' 25 6 == 0x3F && next.extractLsb' 25 6 != 0x3F then next else w

/-- What a trap leaves in the issuing stream at once (R301, R304): the trap registers, privilege, the mask T, the handler's place and tb7, the registers of R305 held until the save block has them. -/
def State.trapTaken (s : State) (c : Cause) (t : Mask) (x : TrapInfo) (entry : CodeVa) : State :=
  let regs : TrapRegs :=
    { cause := c.code, instr := x.instr.getD s.trapWord, pc := s.instrPc, mask := t, hdr := if c = .segEdge then s.st.hdr else s.hdrHere, fl := x.fl,
      depth := s.st.dep, cmdPc := x.cmdPc, cmdSeq := x.cmdSeq, frag := BitVec.ofNat 16 (fragId s.gr s.st.kind), dbgst := x.dbgst,
      et := s.st.exm, hpathd := s.st.pathd, hdep := s.st.dep + 1, tfmt := s.st.fmt, at_ := s.instrPc,
      pos := s.instrPos, tb7 := (s.tbReg 7).bound }
  (s.modSt (fun y =>
    { y with trap := regs, privileged := true, dep := y.dep + 1, exm := t, pc := entry, pos := 0, ext := none, slot := none,
             q := y.q &&& 0x7F, ix := y.ix.set 3 0, bank := s.bankWords,
             sregs := (List.range 60).map (fun i => if i < 48 then y.sregs.getD i 0 else 0),
             tb := y.tb.set 7 s.blockTb })).markRestart

/-- Handler entry of R301 for a stream that is not privileged. -/
def State.enterHandler (s : State) (c : Cause) (t : Mask) (x : TrapInfo) : State :=
  match s.trapEntry c (x.instr.getD s.trapWord) with
  | none => s.double c.code.toNat s.instrPc 0 0
  | some entry =>
    if t.lanes.any (fun l => decide (s.gr.faw ≤ (s.lane l).fb + 18 + (s.lane l).locals + 57)) then
      s.double c.code.toNat s.instrPc Cause.frameOvf.code.toNat 0
    else (s.trapTaken c t x entry).enterIf

/-- A LAUNCH that has still to write one of the registers that handler entry banks (R286, R305). -/
def State.owedBank (s : State) : Option Nat :=
  match s.st.kind with
  | .wave _ | .walker _ => none
  | _ => if s.st.privileged then none else (s.st.owed.find? (fun o => decide (48 ≤ o.1))).map (·.2)

/-- The records of a trap made (R299, R377), and what the stream holds for its standing instruction gone. -/
def State.trapNoted (s : State) (c : Cause) (t : Mask) (recs : List (Nat × Word)) : State :=
  ((s.noteTrap c t).putRecords recs).modSt (fun y =>
    { y with faults := [], peer := [], demand := [], edged := false, unsplit := false, bwait := false, woken := false })

/-- A precise trap of the issuing stream (R301, R306, R252, R325, R388). T is never empty. LANEFLT of each lane of T names the cause; recs are the records of lanes whose check or access has an address (R299, log entry 8). A trap whose entry banks a register that a LAUNCH has still to write waits for it (R286). -/
def State.takeTrap (s : State) (c : Cause) (t : Mask) (recs : List (Nat × Word)) (x : TrapInfo) : State :=
  match s.owedBank with
  | some id => s.modSt (fun y => { y with status := .waitAccept id, edged := y.edged || (decide (c = .segEdge) && y.pos == 0) })
  | none =>
  let t' := if t = 0 then s.st.exm else t
  let s1 := s.trapNoted c t' recs
  let s2 := if c = .segAbsent then s1.countCore s1.gr.coreId 11 1 else s1
  match s2.st.kind with
  | .wave _ => s2.abortWave c
  | .walker n => s2.stopWalker n c t'
  | _ => if s2.st.privileged then s2.doubleIn c.code.toNat s2.instrPc else s2.enterHandler c t' x

/-- The refill that leaving a handler demands, so that the trapped window is resident again (R11, log entry 18). -/
def State.leaveRefill (s : State) (ls : List Nat) : Except LaneFault State :=
  match ls with
  | [] => .ok s
  | l :: r =>
    let x := s.lane l
    let fb := x.fb - 18 - x.trapL
    match s.refillTo s.st.sid s.gr l x fb (fb + 58 - s.gr.allot) 128 with
    | .error f => .error f
    | .ok (s1, y) => ((s1.touchMove s1.st.sid s1.gr false [(l, y.lowres, x.lowres)]).modGr (fun g => { g with lanes := g.lanes.set l y })).leaveRefill r

/-- R307: where execution resumes: inside the trapped clause at the trapped address, or 4 or 8 bytes on within it; elsewhere, and after a SEG_EDGE past the end of a segment, TPC is a clause header. -/
def TrapRegs.resumePos (t : TrapRegs) : Nat :=
  let d := (t.pc - t.at_).toNat
  if t.pos = 0 ∧ t.cause = Cause.segEdge.code then 0
  else if d = 0 ∨ d = 4 ∨ d = 8 then
    let p := t.pos + d / 4
    if t.pos = 0 ∧ d = 0 then 0 else if p ≤ hdrN t.hdr then p else 0
  else 0

/-- The banked registers and FMT restored and the trapped window back; EXM := E_t less the ended lanes (R305, R307); or what the reads of the save block meet. -/
def State.leaveHandler (s : State) : Except LaneFault State :=
  (s.getBlock ((List.range 17).map (4 * ·))).map (fun (s0, ws) =>
    let word : Nat → Word := fun o => ((ws.find? (fun x => x.1 == o)).map (·.2)).getD 0
    let t := s.st.trap
    let va := (word 0x30).toNat + (word 0x34).toNat % 2 ^ 25 * 2 ^ 32
    let len := (word 0x38).toNat
    let tb7 := if t.tb7 then s0.tbBinding va (if len = 0 then 2 ^ 32 else len) else TransReg.unbound
    let s1 := s0.mapLanes (t.mask &&& s.gr.alive) (fun _ x =>
      { x with fb := x.fb - 18 - x.trapL, locals := x.trapL })
    (s1.modSt (fun y =>
      { y with sregs := (List.range 60).map (fun i => if i < 48 then y.sregs.getD i 0 else word (4 * (i - 48))),
               tb := y.tb.set 7 tb7, ix := y.ix.set 3 (word 0x3C),
               q := (y.q &&& 0x7F) ||| (if (word 0x40).getLsbD 0 then 0x80 else 0), fmt := t.tfmt, dep := t.depth,
               exm := t.et &&& s.gr.alive &&& y.base, pc := t.pc, pos := t.resumePos, hdr := t.hdr, ext := none,
               fresh := true, privileged := false, status := .runnable })).markRestart)

/-- The issuing path parks unsplit on a fault (R289); on a miss it waits for the walk (R324). -/
def State.parkOn (s : State) (fs : List LaneFault) : State :=
  if fs.any (·.miss) then ((fs.filter (·.miss)).foldl (fun t f => t.askWalk t.gr f) s).modSt (fun x => { x with status := .waitWalk })
  else
  let s1 := fs.foldl State.reportFault (s.modSt (fun x => { x.forget with status := .parked, faults := fs }))
  if fs.all (fun f => f.settled.isSome) then s1.post (.fragmentResume s.st.sid) else s1

/-- Whether the issuing stream is a conjugator batch. -/
def State.isWave (s : State) : Bool :=
  match s.st.kind with
  | .wave _ => true
  | _ => false

/-- R252: a method fault discards the batch's buffer; the batch waits for the repair and starts again. -/
def State.methodFault (s : State) (fs : List LaneFault) : State :=
  (s.modSt (fun x => { x with wave := x.wave.map (fun w =>
    { w with started := false, buf := [], replies := [],
             refused := w.refused ++ (fs.filter (·.refused)).map (fun f => f.va / 4096) }) })).parkOn fs

/-- A wave whose pages are refused again at its rerun (R202, R252). -/
def State.refusedAgain (s : State) (fs : List LaneFault) : List LaneFault :=
  fs.filter (fun f => f.refused && (match s.st.wave with
    | some w => w.refused.contains (f.va / 4096)
    | none => false))

/-- R248: a conjugator unit fetches a segment of method code into its own overlay without trapping; then the stream looks again. -/
def State.fetchMethod (s : State) (va : Nat) : Verdict :=
  match s.segTrans s.st.sid s.gr.coreId s.gr.ctx va false with
  | .ok l => .hold (((s.noteWalk s.gr.coreId s.gr.ctx va).dropAnswers).slotPut s.gr.coreId s.gr.ctx va (s.wordsAt l))
  | .absent h => .hold (((s.noteWalk s.gr.coreId s.gr.ctx va).dropAnswers).methodFault [{ pathFault va h with lane := 0 }])
  | .walk ats => .hold (s.waitSegment va ats)
  | _ => .trap .prot s.st.exm s

/-- R306: a stream in a handler meets a segment that its core does not hold: the core fetches it without trapping, then the stream looks again; a page fault parks the path, a refusal ends the group (log entry 20). -/
def State.handlerFetch (s : State) (a : CodeVa) : State :=
  let va := segOf a
  match s.segTrans s.st.sid s.gr.coreId s.gr.ctx va true with
  | .ok l => ((s.noteWalk s.gr.coreId s.gr.ctx va).dropAnswers).slotPut s.gr.coreId s.gr.ctx va (s.wordsAt l)
  | .walk ats => s.waitSegment va ats
  | .absent h =>
    if s.st.kind = .pair then s.doubleIn Cause.prot.code.toNat s.instrPc
    else ((s.noteWalk s.gr.coreId s.gr.ctx va).dropAnswers).parkOn [pathFault va h]
  | _ => s.doubleIn Cause.prot.code.toNat 0

/-- A fragment that has reached its sentinel arrives once its flags are clear and its REDs flushed (R293). -/
def State.arrive (s : State) : State :=
  if s.st.base = 0 then (s.flushHeld s.st.sid).dropFragment s.st.sid s.st.rejoinSid
  else
    let s1 := (s.flushHeld s.st.sid).modSt (fun x => { x with exm := 0, pos := 0, ext := none })
    if s1.st.pending ≠ 0 ∨ s1.atomics.any (fun a => s1.st.owns a.sid a.id) then
      s1.modSt (fun x => { x with status := if x.pending ≠ 0 then .waitFlags else .waitOrder })
    else
      (s1.modSt (fun x => { x with status := .arrived })).markRestart.wake (fun x =>
        x.sid == s1.st.rejoinSid && decide (x.status = .waitJoin))

/-- R127 when the running path has no entry left: a fragment with a rejoin target arrives, other lanes end. -/
def State.pathFloor (s : State) : State :=
  match s.st.kind with
  | .wave _ => s.abortWave .objerr
  | .fragment _ =>
    match s.st.rejoinPos with
    | some _ => s.arrive
    | none =>
      let s1 := (s.flushHeld s.st.sid).endLanes s.st.base
      s1.dropFragment s1.st.sid 0
  | _ => ((s.flushHeld s.st.sid).endLanes s.st.base).dropSelf

/-- R127: the end of a path. -/
def State.pathEndFor (s : State) (fuel : Nat) : State :=
  match fuel with
  | 0 => s
  | k + 1 =>
    if s.st.pathd ≤ s.st.floor then
      if s.st.privileged then
        let s1 := s.endLanes s.st.membership
        if s1.st.trap.mask &&& s1.st.base ≠ 0 then s1
        else
          match s1.leaveHandler with
          | .error f =>
            if f.refused || decide (s1.st.kind = .pair) then s1.doubleIn Cause.prot.code.toNat 0 else s1.parkOn [{ f with lane := 64 }]
          | .ok s2 => if s2.st.exm ≠ 0 then s2 else s2.pathEndFor k
      else s.pathFloor
    else
      match s.refillStack with
      | .error f =>
        match s.st.kind with
        | .walker _ | .pair => s.takeTrap .prot s.st.membership [] TrapInfo.plain
        | _ => s.parkOn [f]
      | .ok s1 =>
        match s1.st.stack with
        | [] => s1
        | e :: r =>
          let i := s1.st.pathd - 1
          if e.join && (s1.rejoiners i).any (fun x => decide (x.status ≠ .arrived)) then
            (s1.modSt (fun x => { x with status := .waitJoin, pos := 0, ext := none })).markRestart
          else
            let s2 := if e.join then s1.rejoin i else s1
            let s3 := s2.modSt (fun x =>
              { x with stack := r, exm := e.mask &&& x.base, dep := e.depth, fmt := e.fmt, pc := e.addr, pos := 0,
                       ext := none, fresh := true, status := .runnable })
            if s3.st.exm ≠ 0 then s3.markRestart else s3.pathEndFor k

/-- The end of the running path (R127). -/
def State.pathEnd (s : State) : State :=
  (s.modSt (fun x => { x with exm := 0, pos := 0, ext := none })).pathEndFor (s.st.pathd + 2)

/-- The lanes of a set end by EXIT, and the path with them if none is left (R116); held quantum REDs go first (R196). -/
def State.exitLanes (s : State) (e : Mask) : State :=
  let s1 := (s.flushHeld s.st.sid).endLanes e
  if s1.st.exm = 0 then s1.pathEnd else s1

/-- A free pool entry of the issuing core's fragment table (R290). -/
def State.freeEntry (s : State) : Option Nat :=
  let used : List Nat := s.allStreams.filterMap (fun x => match x.kind with
    | .fragment e =>
      if x.status ≠ .ended ∧ s.allGroups.any (fun g => g.live && g.gid == x.gid && g.coreId == s.gr.coreId) then some e
      else none
    | _ => none)
  (List.range 64).findSome? (fun i => if used.contains (64 + i) then none else some (64 + i))

/-- How an instruction goes on after some of its lanes faulted. -/
inductive AfterFaults where
  /-- the other lanes go on -/
  | run (s : State)
  /-- the instruction ends so -/
  | stop (v : Verdict)
deriving DecidableEq, Repr

/-- The fragment that splits off at the instruction where the issuing stream stands (R290 to R293). -/
def State.newFragment (s : State) (e : Nat) (fs : List LaneFault) : Stream :=
  let f := Mask.ofLanes (fs.map (·.lane))
  let own := s.st.topJoin
  let same := match s.st.kind with
    | .fragment _ => own.isNone
    | _ => false
  let base : Stream :=
    { s.st with sid := s.nextId, kind := .fragment e, status := if s.st.cancelAt.isSome then .stopped else .parked, pc := s.instrPc, pos := s.instrPos, ext := none,
                fresh := true, exm := f, base := f, stack := [], below := [], unifstk := 0, clockHi := none,
                ecntHi := List.replicate 16 none, faults := fs, peer := [], demand := [], loads := [], held := [],
                heldFlags := [], trap := TrapRegs.zero, promoted := none, admitted := false,
                unsplit := false, bwait := false, woken := false, idle := 0, splits := [], reissues := 0,
                lineage := s.st.lineage ++ [(s.st.sid, s.nextId)], replay := some (s.st.replay.getD 0),
                restart := { s.snapshot with pc := s.instrPc, pos := s.instrPos, hdr := s.hdrHere, exm := f, pathd := 0 } }
  if same then base
  else
    match own with
    | some (i, j) => { base with rejoinSid := s.st.sid, rejoinPos := some i, rejoinAddr := j.addr, rejoinDep := j.depth }
    | none => { base with rejoinSid := 0, rejoinPos := none }

/-- Lanes of an instruction that met faults (R289, R290, R298): they split off, once the stream's held quantum REDs, which stand in the fragment's program order too, are on their way (R187, R196); a stream that never splits, or that replays after it has parked whole, parks whole; a lane refused again at its replay, and any refusal in a walker slot or a service pair, traps PROT (R300, R325, R388). -/
def State.onFaults (s : State) (fs : List LaneFault) : AfterFaults :=
  let again := fs.filter (fun f => f.refused && s.st.faults.any (fun h => h.refused && h.lane == f.lane && h.settled.isSome))
  let f := Mask.ofLanes (fs.map (·.lane))
  if fs.isEmpty then .run s
  else if s.st.physical ∨ s.st.kind = .pair then .stop (.trapRec .prot f (protRecords fs) s)
  else if again ≠ [] then .stop (.trapRec .prot (Mask.ofLanes (again.map (·.lane))) (protRecords again) s)
  else
    match s.st.kind with
    | .wave _ =>
      if s.refusedAgain fs ≠ [] then
        .stop (.trapRec .prot (Mask.ofLanes ((s.refusedAgain fs).map (·.lane))) (protRecords (s.refusedAgain fs)) s)
      else .stop (.hold ((s.noteFaults fs).methodFault fs))
    | _ =>
      if s.st.privileged then .stop (.hold ((s.noteFaults fs).parkOn fs))
      else if s.st.unsplit then .stop (.hold ((s.noteFaults fs).parkOn fs))
      else
        match s.freeEntry with
        | none =>
          .stop (.hold (((s.noteFaults fs).countCore s.gr.coreId 8 1).modSt (fun x =>
            { x with unifstk := x.unifstk ||| 2, unsplit := true }) |>.parkOn fs))
        | some e =>
          let s0 := fs.foldl State.reportFault (((s.flushHeld s.st.sid).noteFaults fs).countCore s.gr.coreId 7 1)
          let s1 := if fs.all (fun f => f.settled.isSome) then s0.post (.fragmentResume s0.nextId) else s0
          .run { s1 with streams := s1.streams ++ [s0.newFragment e fs], nextId := s1.nextId + 1,
                         st := { s1.st with splits := s1.st.splits ++ [s1.nextId], exm := s1.st.exm.minus f, base := s1.st.base.minus f,
                                            restart := { s1.st.restart with exm := s1.st.restart.exm.minus f } } }

/-- A fault of the whole path at its instruction (SLD, SST, path-stack spills): it parks unsplit; a refusal traps PROT (R125, R211). -/
def State.onStreamFault (s : State) (f : LaneFault) : Verdict :=
  let all := s.st.exm.lanes.map (fun l => (l, f.protRecord))
  if f.refused then .trapRec .prot s.st.exm all s
  else
    match s.st.kind with
    | .wave _ => .hold (s.methodFault [{ f with lane := 64 }])
    | .walker _ | .pair => .trapRec .prot s.st.exm all s
    | _ => .hold (s.parkOn [{ f with lane := 64 }])

/-- Execution goes on at another clause header (R18, R109). -/
def State.goto (s : State) (a : CodeVa) : State := s.modSt (fun x => { x with pc := a, pos := 0, ext := none, fresh := false, slot := none })

/-- The lanes that have left the issuing stream in fragments at the standing instruction (R290). -/
def State.splitOff (s : State) : Mask :=
  (s.streams.filter (fun x => s.st.splits.contains x.sid)).foldl (fun m x => m ||| x.base) 0

/-- The instruction counts of R379, for P - F (R202). before: the state in which the instruction issued. -/
def State.countRetired (s before : State) : State :=
  let w := (before.codeWord before.st.pc).getD 0
  let p := if w.getLsbD 31 then 0 else ((before.active (w.extractLsb' 21 4)).minus s.splitOff).size
  (s.countCore before.gr.coreId 2 1).countCore before.gr.coreId 3 p

/-- A stream whose instruction has retired: what it held for a replay goes, and a single step is used up (R374). -/
def Stream.retire (x : Stream) : Stream :=
  { x with ext := .none, faults := [], peer := [], demand := [], step := x.step.map (· - 1), unsplit := false, bwait := false, woken := false,
           splits := [], reissues := 0, atLimit := false, replay := .none }

/-- A stream at the next word of the clause, or at the header after it (R18). -/
def Stream.onward (x : Stream) : Stream :=
  { x with pc := x.pc + 4, pos := if x.pos < hdrN x.hdr then x.pos + 1 else 0, fresh := false }

/-- The instruction has retired, if its stream still issues. -/
def State.settle (s before : State) : State :=
  (s.countRetired before).modSt (fun x => if x.sid = before.st.sid then x.retire else x)

/-- Execution goes on at the next word. -/
def State.advance (s : State) : State := s.modSt Stream.onward

/-- Execution that runs past the last word of a segment traps SEG_EDGE (R45). -/
def State.edge (s : State) : State :=
  if s.st.pos = 0 ∧ s.st.pc.toNat % 4096 = 0 then
    (if s.st.status = .runnable then s.takeTrap .segEdge s.st.exm [] { TrapInfo.plain with instr := some 0 }
     else s.modSt (fun x => { x with edged := true }))
  else s

/-- What a trap of an instruction comes to: the entry; or, where the entry would bank a register that a LAUNCH has still to write, the instruction waits for that at issue (R286). -/
def State.trapUnlessOwed (before trapped : State) : State :=
  match before.owedBank with
  | some id => before.modSt (fun x => { x with status := .waitAccept id })
  | none => trapped

/-- The end of an instruction of the issuing stream; before is the state in which it issued, nonIdem says whether R310 names it. A path that it left without lanes ends. -/
def State.finish (before : State) (nonIdem : Bool) (v : Verdict) : State :=
  match v with
  | .next s =>
    let s1 := (s.settle before).advance
    if s1.st.exm = 0 then s1.pathEnd
    else
      let s2 := if nonIdem then s1.markRestart else s1
      s2.edge
  | .moved s =>
    let s1 := s.settle before
    if nonIdem && s1.st.sid == before.st.sid then s1.markRestart else s1
  | .trap c t s => before.trapUnlessOwed (s.takeTrap c t [] TrapInfo.plain)
  | .trapRec c t recs s => before.trapUnlessOwed (s.takeTrap c t recs TrapInfo.plain)
  | .trapWith c t x s => before.trapUnlessOwed (s.takeTrap c t [] x)
  | .hold s => s

/-- Whether every load of the issuing stream has returned, and every atomic of its program order whose old value its registers get (R21, R203, R209). -/
def State.landed (s : State) : Bool :=
  s.st.loads.isEmpty && s.atomics.all (fun p => !s.st.owns p.sid p.id || p.ops.all (fun o => o.words.isEmpty))

/-- The outcome of an instruction that R310 does not name. It waits for the loads and atomics of its stream, whose values its registers may name (R21, R203; log entry 2). -/
def State.run (s : State) (v : Verdict) : Host.Outcome State Fault Refusal := .next (if s.landed then s.finish false v else s)

/-- The outcome of a non-idempotent instruction (R310). -/
def State.runN (s : State) (v : Verdict) : Host.Outcome State Fault Refusal := .next (if s.landed then s.finish true v else s)

/-- An instruction after which its stream can trap without a replay waits for the LAUNCHes that owe the registers which that entry banks (R286). -/
def State.unlessOwed (s : State) (f : State → Verdict) : Verdict :=
  match s.owedBank with
  | some id => .hold (s.modSt (fun x => { x with status := .waitAccept id }))
  | none => f s

/-- The instruction is held and issues again (R378). -/
def State.reissued (s : State) : State := s.modSt (fun x => { x with reissues := x.reissues + 1 })

/-- R181: an instruction that needs more requests than are left waits at issue. -/
def State.requesting (s : State) (n : Nat) (f : State → Verdict) : Verdict :=
  if s.hasRoom n then f s else .hold (s.modSt (fun x => { x with reissues := x.reissues + 1, atLimit := true }))

/-- The faults that the standing instruction has met so far, for the split at its retirement. -/
def State.newFaults (s : State) : List LaneFault :=
  (s.st.faults.filter (fun x => x.settled.isNone)).map (fun x => if x.dead then { x with settled := some false } else x)

/-- The lanes of a set that have met no fault yet. -/
def State.unfaulted (s : State) (p : Mask) : Mask := p.minus (Mask.ofLanes (s.newFaults.map (·.lane)))

/-- The demands of an instruction's lanes on the spill engine: those of lanes that have met no fault there wait until the engine has served them, then f goes on (R184, R186). -/
def State.awaitDemands (s : State) (ds : List Demand) (f : State → Verdict) : Verdict :=
  let left := ds.filter (fun d => (s.unfaulted (Mask.ofLanes [d.lane])) ≠ 0)
  if left.isEmpty then f s
  else s.requesting (s.gr.demandRequests left) (fun t =>
    .hold ((t.modSt (fun x => { x with status := .waitSpill, demand := left })).post (.demandSpillDone s.st.sid)))

/-- An instruction whose lanes demand the spill engine: once every lane has been served or has met a fault, those that have split off, in one fragment, and f goes on with the others (R184, R186, R290). -/
def State.withDemands (s : State) (ds : List Demand) (f : State → Verdict) : Verdict :=
  s.awaitDemands ds (fun s1 =>
    match s1.onFaults s1.newFaults with
    | .stop v => v
    | .run s2 => f (s2.modSt (fun x => { x with faults := x.faults.filter (fun y => y.settled.isSome) })))

/-- A push of the issuing instruction: an overflow traps FRAME_OVF for EXM, a page fault parks the path (R125). -/
def State.pushThen (s : State) (es : List PathEntry) (f : State → Verdict) : Verdict :=
  match s.pushAll es with
  | .ok s1 => f s1
  | .overflow => .trap .frameOvf s.st.exm s
  | .fault x => s.onStreamFault x

/-- A measurement of the module power (R394). -/
def State.measurePower (s : State) (watts : Nat) : State :=
  let n := s.dev.throttle
  let next := if s.dev.cap < watts then max 8 (n - 8) else if 100 * watts < 95 * s.dev.cap then min 64 (n + 8) else n
  { s with dev := { s.dev with throttle := next, power := watts } }

end Sys2Proof.Machine
end

