-- ==== Sys2Proof/Machine/Special.lean ====
section
/-!
DEFINITION. SRD and SWR with every special register of R56, R323 and R372 (R57, R58, R60, R94, R95, R321), and the events that are their sub-steps: EXM_WRITE, UNIFSTK_CLEAR, CLOCK_LOW_READ and ECNT_LOW_READ.
-/
namespace Sys2Proof.Machine

/-- Whether a word is a memory-access instruction (R19). -/
def isMemWord (w : Word) : Bool :=
  let maj := (w.extractLsb' 25 6).toNat
  if w.getLsbD 31 then maj == 0x0A || maj == 0x0B else decide (0x19 ≤ maj) && decide (maj ≤ 0x1E)

/-- Whether a word is an engine command (R19, R219). -/
def isEngineWord (w : Word) : Bool :=
  let maj := (w.extractLsb' 25 6).toNat
  let fn := (w.extractLsb' 0 3).toNat
  if w.getLsbD 31 then
    maj == 0x11 || (maj == 0x14 && fn != 2) || (maj == 0x15 && fn == 0) || (maj == 0x17 && fn == 0) || maj == 0x18 || maj == 0x19
  else maj == 0x1F

/-- The words of the issuing clause after the one that issues. -/
def State.restOfClause (s : State) : List Word :=
  (List.range (hdrN s.st.hdr - s.st.pos)).map (fun (i : Nat) => (s.codeWord (s.st.pc.addWords ((i : Nat) + 1 : Int))).getD 0)

/-- FLAGS: a flag is pending while operations under it are outstanding, and from the issue of a clause that names it while counted words of the clause are still to come (R19). -/
def State.flagsWord (s : State) : Word :=
  let add : Nat → Bool → BitVec 12 := fun f b => if f < 12 ∧ b then (1#12) <<< f else 0
  ((s.st.pending ||| add (hdrSetA s.st.hdr) (s.restOfClause.any isMemWord) |||
    add (hdrSetB s.st.hdr) (s.restOfClause.any isEngineWord)) : BitVec 12).setWidth 32

/-- PLACE (R58). -/
def Group.place (g : Group) : Word :=
  BitVec.ofNat 32 (g.die * 2 ^ 30 + g.core * 2 ^ 24 + g.part * 2 ^ 22 + g.slot * 2 ^ 18 + g.seg * 2 ^ 15)

/-- A trap register by its number less 0x200 (R323). -/
def TrapRegs.reg (t : TrapRegs) (n : Nat) : Word :=
  match n with
  | 0 => t.cause.setWidth 32
  | 1 => t.instr
  | 2 => t.pc.setWidth 32
  | 3 => (t.pc.extractLsb' 32 25).setWidth 32
  | 4 => t.mask.setWidth 32
  | 5 => t.mask.extractLsb' 32 32
  | 6 => t.hdr
  | 7 => t.fl.setWidth 32
  | 8 => t.depth
  | 9 => t.cmdPc.setWidth 32
  | 10 => (t.cmdPc.extractLsb' 32 25).setWidth 32
  | 11 => t.cmdSeq
  | _ => t.frag.setWidth 32

/-- A debug register of the issuing core (R372); none where the number is not assigned. DESIGN CHOICE, log entry 81: the ignored bits [18:9] of ECSEL read back as they were written. -/
def State.debugReg (s : State) (n : Nat) : Option Word :=
  let c := (s.coreRec s.gr.coreId).getD (CoreRec.start 0)
  let bp : Nat → Breakpoint := fun i => c.breaks.getD i ⟨0, false, 0⟩
  if 0x300 ≤ n ∧ n ≤ 0x30F then
    let b := bp ((n - 0x300) / 2)
    some (if n % 2 = 0 then b.va.setWidth 32 &&& 0xFFFFFFFC
      else (b.va.extractLsb' 32 25).setWidth 32 ||| (if b.en then 0x80000000 else 0))
  else if 0x310 ≤ n ∧ n ≤ 0x317 then some (bp (n - 0x310)).ctx
  else if n = 0x318 then some (s.st.trap.dbgst.setWidth 32)
  else if n = 0x320 then some (c.sampn.setWidth 32)
  else if 0x330 ≤ n ∧ n ≤ 0x33F then some (c.ecsel.getD (n - 0x330) 0)
  else if 0x340 ≤ n ∧ n ≤ 0x35F then
    let i := (n - 0x340) / 2
    let v : BitVec 48 := c.ecnt.getD i 0
    some (if n % 2 = 0 then v.setWidth 32
      else (((s.st.ecntHi.getD i none).getD (v.extractLsb' 32 16)) : BitVec 16).setWidth 32)
  else none

/-- The fields of the running launch (R56, R399). A stream that has none, a batch, a walker slot or a service pair, reads 0, and of JOBID its context (log entry 70). -/
def State.launchReg (s : State) (n : Nat) : Word :=
  match s.launchOf s.un with
  | none => if n = 0x17 then BitVec.ofNat 32 s.gr.ctx else 0
  | some x =>
    match n with
    | 0x12 => BitVec.ofNat 32 x.fields.argva
    | 0x13 => BitVec.ofNat 32 (x.fields.argva / 2 ^ 32)
    | 0x14 => x.lid
    | 0x15 => x.graphid
    | 0x16 => x.phaseid
    | _ => BitVec.ofNat 32 s.gr.ctx

/-- The value of a special register below 0x200 (R56); none where the number is not assigned. -/
def State.special (s : State) (n : Nat) : Option Word :=
  if 0x12 ≤ n ∧ n ≤ 0x17 then some (s.launchReg n)
  else if 0x100 ≤ n ∧ n ≤ 0x10F then some (if n = 0x100 then Config.feat0 else 0)
  else
    match n with
    | 0x000 => some (s.st.exm.setWidth 32)
    | 0x001 => some (s.st.exm.extractLsb' 32 32)
    | 0x002 => some s.st.fmt
    | 0x003 => some (BitVec.ofNat 32 s.st.pathd)
    | 0x004 => some s.flagsWord
    | 0x005 => some s.gr.cbatch
    | 0x006 => some s.gr.mbatch
    | 0x007 => some s.gr.cmdseq
    | 0x008 => some s.st.dep
    | 0x009 => some (BitVec.ofNat 32 (fragId s.gr s.st.kind))
    | 0x00A => some (BitVec.ofNat 32 s.gr.allot)
    | 0x00B => some (BitVec.ofNat 32 s.gr.ilp)
    | 0x010 => some (s.dev.clock.setWidth 32)
    | 0x011 => some (s.st.clockHi.getD (s.dev.clock.extractLsb' 32 32))
    | 0x018 => some s.gr.place
    | 0x019 => some (BitVec.ofNat 32 s.gr.ctx)
    | 0x01A => some (s.st.unifstk.setWidth 32)
    | _ => none

/-- A read of CLOCK[31:0] latches the high half (R56). -/
def State.latchClock (s : State) : State := s.modSt (fun x => { x with clockHi := some (s.dev.clock.extractLsb' 32 32) })

/-- A read of a core counter's low half latches its high half (R372). -/
def State.latchEcnt (s : State) (i : Nat) : State :=
  let v : BitVec 48 := ((s.coreRec s.gr.coreId).map (fun c => c.ecnt.getD i 0)).getD 0
  s.modSt (fun x => { x with ecntHi := x.ecntHi.set i (some (v.extractLsb' 32 16)) })

/-- What a read leaves latched. -/
def State.latch (s : State) (n : Nat) : State :=
  if n = 0x010 then s.latchClock
  else if 0x340 ≤ n ∧ n ≤ 0x35F ∧ n % 2 = 0 then s.latchEcnt ((n - 0x340) / 2)
  else s

/-- The value that SRD reads, or the cause it traps with (R56, R57, R321, R372). -/
def State.srdValue (s : State) (n : Nat) : Except Cause Word :=
  if n < 0x200 then
    match s.special n with
    | some v => .ok v
    | none => .error .illegal
  else if !s.st.isPriv then .error .priv
  else if n ≤ 0x20C then .ok (if s.st.privileged then s.st.trap.reg (n - 0x200) else 0)
  else if 0x300 ≤ n ∧ n < 0x400 then
    if !s.st.privileged then .error .priv
    else match s.debugReg n with
      | some v => .ok v
      | none => .error .illegal
  else .error .illegal

/-- SRD (R94, R95). -/
def execSrd (g : BitVec 4) (d : BitVec 6) (r : BitVec 12) (s : State) : Host.Outcome State Fault Refusal :=
  s.run (match s.srdValue r.toNat with
    | .error c => .trap c s.st.exm s
    | .ok v => s.once g true (fun x => (x.latch r.toNat).setSreg d.toNat v))

/-- A half of EXM written, ANDed with the membership (R95, R131). -/
def State.writeExm (s : State) (hi : Bool) (v : Word) : State :=
  let m := s.st.membership
  s.modSt (fun x =>
    { x with exm := if hi then ((v &&& m.extractLsb' 32 32) ++ (x.exm.setWidth 32 : Word) : BitVec 64)
                    else ((x.exm.extractLsb' 32 32 : Word) ++ (v &&& m.setWidth 32) : BitVec 64) })

/-- Bits of UNIFSTK written as 1 clear (R95). -/
def State.clearUnifstk (s : State) (v : Word) : State :=
  s.modSt (fun x => { x with unifstk := x.unifstk &&& ~~~ (v.setWidth 2) })

/-- The effect of SWR on a register that can be written; none where the number is RO or not assigned. -/
def State.swrEffect (s : State) (n : Nat) (v : Word) : Option State :=
  match n with
  | 0x000 => some (s.writeExm false v)
  | 0x001 => some (s.writeExm true v)
  | 0x002 => some (s.modSt (fun x => { x with fmt := v &&& 0xFFFF }))
  | 0x01A => some (s.clearUnifstk v)
  | 0x202 => if s.st.privileged then some (s.modSt (fun x =>
      { x with trap := { x.trap with pc := (x.trap.pc.extractLsb' 32 25 ++ v : BitVec 57) } })) else none
  | 0x203 => if s.st.privileged then some (s.modSt (fun x =>
      { x with trap := { x.trap with pc := ((v.setWidth 25 : BitVec 25) ++ (x.trap.pc.setWidth 32 : Word) : BitVec 57) } })) else none
  | _ => none

/-- SWR (R94, R95, R321, R323, R372). -/
def execSwr (g : BitVec 4) (d : BitVec 6) (r : BitVec 12) (s : State) : Host.Outcome State Fault Refusal :=
  s.run (
    if 0x200 ≤ r.toNat ∧ (!s.st.isPriv ∨ (0x300 ≤ r.toNat ∧ r.toNat < 0x400 ∧ !s.st.privileged)) then .trap .priv s.st.exm s
    else
      match s.swrEffect r.toNat (s.sreg d.toNat) with
      | none => .trap .illegal s.st.exm s
      | some t => if s.uniGuard g then .next t else .next s)

/-- EXM_WRITE, the sub-step of an SWR to EXM on the issuing stream; an EXM left empty ends the path (R95, R131). -/
def execExmWrite (hi : Bool) (v : Word) (s : State) : Host.Outcome State Fault Refusal :=
  .next (let t := s.writeExm hi v; if t.st.exm = 0 then t.pathEnd else t)

/-- UNIFSTK_CLEAR, the sub-step of an SWR to UNIFSTK (R95). -/
def execUnifstkClear (v : Word) (s : State) : Host.Outcome State Fault Refusal := .next (s.clearUnifstk v)

/-- CLOCK_LOW_READ, the sub-step of an SRD of 0x010 (R56). -/
def execClockLowRead (s : State) : Host.Outcome State Fault Refusal := .next s.latchClock

/-- ECNT_LOW_READ, the sub-step of an SRD of a counter's low half (R372). -/
def execEcntLowRead (n : BitVec 4) (s : State) : Host.Outcome State Fault Refusal := .next (s.latchEcnt n.toNat)

end Sys2Proof.Machine
end

