-- ==== Sys2Proof/Machine/Float.lean ====
section
/-!
DEFINITION. The number formats of R24 to R41 by exact dyadic values: decoding, the one rounding step, arithmetic of the vector and uniform pipes (R27), conversions (R33, R34), drains (R38), the summation trees (R36, R39) and the fixed-point reduction (R40).
-/
namespace Sys2Proof.Machine

/-- A value: NaN, an infinity, or (-1)^neg * m * 2^e. -/
inductive FVal where
  | nan
  | inf (neg : Bool)
  | fin (neg : Bool) (m : Nat) (e : Int)
deriving DecidableEq, Repr

/-- What the top exponent of a kind encodes (R24). -/
inductive FForm where
  | ieee | e4m3 | e2m1
deriving DecidableEq, Repr

/-- A floating-point kind (R24). -/
structure FKind where
  eb : Nat
  mb : Nat
  bias : Nat
  form : FForm
deriving DecidableEq, Repr

/-- The kinds of R24. -/
def kF32 : FKind := ⟨8, 23, 127, .ieee⟩
def kF16 : FKind := ⟨5, 10, 15, .ieee⟩
def kBf16 : FKind := ⟨8, 7, 127, .ieee⟩
def kE4m3 : FKind := ⟨4, 3, 7, .e4m3⟩
def kE5m2 : FKind := ⟨5, 2, 15, .ieee⟩
def kE2m1 : FKind := ⟨2, 1, 1, .e2m1⟩

/-- The exponent of the least subnormal. -/
def FKind.emin (k : FKind) : Int := 1 - (k.bias : Int) - (k.mb : Int)

/-- The sign bit in place. -/
def FKind.sign (k : FKind) (neg : Bool) : Nat := if neg then 2 ^ (k.eb + k.mb) else 0

/-- The code of the largest finite value (R24). -/
def FKind.maxCode (k : FKind) : Nat :=
  match k.form with
  | .ieee => (2 ^ k.eb - 1) * 2 ^ k.mb - 1
  | .e4m3 => 0x7E
  | .e2m1 => 7

/-- The code of a NaN result: the canonical NaN, and 0b1000 for e2m1 (R24, R33). -/
def FKind.nanCode (k : FKind) : Nat :=
  match k.form with
  | .ieee => (2 ^ k.eb - 1) * 2 ^ k.mb + 2 ^ (k.mb - 1)
  | .e4m3 => 0x7F
  | .e2m1 => 8

/-- R25, R26: the value of a code. -/
def FKind.value (k : FKind) (v : Nat) : FVal :=
  let neg := v.testBit (k.eb + k.mb)
  let ex := (v >>> k.mb) % 2 ^ k.eb
  let m := v % 2 ^ k.mb
  let num := if ex = 0 then FVal.fin neg m k.emin else .fin neg (2 ^ k.mb + m) ((ex : Int) - k.bias - k.mb)
  match k.form with
  | .ieee => if ex = 2 ^ k.eb - 1 then (if m = 0 then .inf neg else .nan) else num
  | .e4m3 => if v % 128 = 127 then .nan else num
  | .e2m1 => num

/-- Rounding directions: nearest-even, toward zero, away from zero, toward minus and plus infinity. -/
inductive Rnd where
  | rne | rz | ra | floor | ceil
deriving DecidableEq, Repr

/-- m / 2^d as an integer. -/
def roundShift (r : Rnd) (neg : Bool) (m d : Nat) : Nat :=
  let q := m >>> d
  let rem := m % 2 ^ d
  let up := match r with
    | .rne => decide (2 ^ d < 2 * rem) || (decide (2 * rem = 2 ^ d) && decide (q % 2 = 1) && decide (d ≠ 0))
    | .rz => false
    | .ra => decide (rem ≠ 0)
    | .floor => neg && decide (rem ≠ 0)
    | .ceil => (!neg) && decide (rem ≠ 0)
  if up then q + 1 else q

/-- What a result beyond the largest finite value becomes: saturated, or as R34 says. -/
def FKind.overflow (k : FKind) (sat neg : Bool) : Nat :=
  match k.form with
  | .ieee => k.sign neg + (if sat then k.maxCode else (2 ^ k.eb - 1) * 2 ^ k.mb)
  | .e4m3 => k.sign neg + (if sat then k.maxCode else 0x7F)
  | .e2m1 => k.sign neg + 7

/-- A finite value rounded to a kind. Rounding toward zero never overflows to infinity (R38). -/
def FKind.roundFin (k : FKind) (r : Rnd) (sat neg : Bool) (m : Nat) (e : Int) : Nat :=
  let q : Int := max ((m.log2 : Int) + e - k.mb) k.emin
  let n := if q ≤ e then m <<< (e - q).toNat else roundShift r neg m (q - e).toNat
  let code := (q - k.emin).toNat * 2 ^ k.mb + n
  if k.maxCode < code then k.overflow (sat || r == .rz) neg
  else if k.form = .e2m1 ∧ code = 0 then 0
  else k.sign neg + code

/-- A value converted to a kind (R33, R34, R38). -/
def FKind.code (k : FKind) (r : Rnd) (sat : Bool) (x : FVal) : Nat :=
  match x with
  | .nan => k.nanCode
  | .inf neg => k.overflow sat neg
  | .fin neg m e => if m = 0 then (if k.form = .e2m1 then 0 else k.sign neg) else k.roundFin r sat neg m e

/-- The value with its sign turned. -/
def FVal.neg (x : FVal) : FVal :=
  match x with
  | .nan => .nan
  | .inf s => .inf (!s)
  | .fin s m e => .fin (!s) m e

/-- The signed integer that a finite value is at exponent q, q at most its own. -/
def scaled (neg : Bool) (m : Nat) (e q : Int) : Int :=
  if neg then -((m <<< (e - q).toNat : Nat) : Int) else ((m <<< (e - q).toNat : Nat) : Int)

/-- The exact sum; a zero sum is +0 unless both operands are negative zeros (R27). -/
def FVal.add (x y : FVal) : FVal :=
  match x, y with
  | .nan, _ => .nan
  | _, .nan => .nan
  | .inf s, .inf t => if s = t then .inf s else .nan
  | .inf s, .fin .. => .inf s
  | .fin .., .inf t => .inf t
  | .fin s m e, .fin t n f =>
    let q := min e f
    let v := scaled s m e q + scaled t n f q
    if v = 0 then .fin (s && t && m == 0 && n == 0) 0 0 else .fin (decide (v < 0)) v.natAbs q

/-- The exact product; infinity times zero is NaN (R27). -/
def FVal.mul (x y : FVal) : FVal :=
  match x, y with
  | .nan, _ => .nan
  | _, .nan => .nan
  | .inf s, .inf t => .inf (xor s t)
  | .inf s, .fin t n _ => if n = 0 then .nan else .inf (xor s t)
  | .fin s m _, .inf t => if m = 0 then .nan else .inf (xor s t)
  | .fin s m e, .fin t n f => .fin (xor s t) (m * n) (e + f)

/-- x < y as numbers; zeros are equal (R102). -/
def FVal.lt (x y : FVal) : Bool :=
  match x, y with
  | .nan, _ => false
  | _, .nan => false
  | .inf s, .inf t => s && !t
  | .inf s, .fin .. => s
  | .fin .., .inf t => !t
  | .fin s m e, .fin t n f => decide (scaled s m e (min e f) < scaled t n f (min e f))

/-- x = y as numbers. -/
def FVal.eqv (x y : FVal) : Bool := x != .nan && y != .nan && !x.lt y && !y.lt x

/-- The sign of a value that is no NaN. -/
def FVal.isNeg (x : FVal) : Bool :=
  match x with
  | .nan => false
  | .inf s => s
  | .fin s _ _ => s

/-- The value of a word read as f32. -/
def f32 (a : Word) : FVal := kF32.value a.toNat

/-- RNE32 (R36). -/
def rne32 (x : FVal) : Word := BitVec.ofNat 32 (kF32.code .rne false x)

/-- A f32 result: a NaN is the canonical one (R27). -/
def canonical (a : Word) : Word := if f32 a = .nan then 0x7FC00000#32 else a

/-- The pipes' sum, difference, product and fused forms (R100). -/
def fAdd (a b : Word) : Word := rne32 ((f32 a).add (f32 b))
def fSub (a b : Word) : Word := rne32 ((f32 a).add (f32 b).neg)
def fMul (a b : Word) : Word := rne32 ((f32 a).mul (f32 b))
def fFma (c a b : Word) : Word := rne32 (((f32 a).mul (f32 b)).add (f32 c))
def fNfma (c a b : Word) : Word := rne32 (((f32 a).mul (f32 b)).neg.add (f32 c))

/-- MinNum over codes of a kind (R101). -/
def FKind.minNum (k : FKind) (a b : Nat) : Nat :=
  let x := k.value a
  let y := k.value b
  match x, y with
  | .nan, .nan => k.nanCode
  | .nan, _ => b
  | _, .nan => a
  | _, _ => if x.lt y then a else if y.lt x then b else if x.isNeg then a else b

/-- MaxNum over codes of a kind (R101). -/
def FKind.maxNum (k : FKind) (a b : Nat) : Nat :=
  let x := k.value a
  let y := k.value b
  match x, y with
  | .nan, .nan => k.nanCode
  | .nan, _ => b
  | _, .nan => a
  | _, _ => if x.lt y then b else if y.lt x then a else if x.isNeg then b else a

/-- FMIN and FMAX (R100). -/
def fMin (a b : Word) : Word := BitVec.ofNat 32 (kF32.minNum a.toNat b.toNat)
def fMax (a b : Word) : Word := BitVec.ofNat 32 (kF32.maxNum a.toNat b.toNat)

/-- FADDMN (R100). -/
def fAddMin (d a b : Word) : Word := fMin d (fAdd a b)

/-- The condition of FSET (R102). -/
def floatCond (f : BitVec 3) (a b : Word) : Bool :=
  let x := f32 a
  let y := f32 b
  let num := x != .nan && y != .nan
  match f.toNat with
  | 0 => x.eqv y
  | 1 => !x.eqv y
  | 2 => x.lt y
  | 3 => x.lt y || x.eqv y
  | 4 => y.lt x
  | 5 => y.lt x || x.eqv y
  | 6 => num
  | _ => !num

/-- The half kind that HALFK selects (R30). -/
def halfKind (fmt : Word) : Option FKind :=
  match fmt.toNat / 2 ^ 12 % 4 with
  | 0 => some kF16
  | 1 => some kBf16
  | _ => none

/-- The byte kind that BYTEK selects (R30). -/
def byteKind (fmt : Word) : Option FKind :=
  match fmt.toNat / 2 ^ 14 % 4 with
  | 0 => some kE4m3
  | 1 => some kE5m2
  | _ => none

/-- A word operation on both halves (R103). -/
def onHalves (f : Nat → Nat → Nat → Nat) (d a b : Word) : Word :=
  BitVec.ofNat 32 (f (d.toNat % 2 ^ 16) (a.toNat % 2 ^ 16) (b.toNat % 2 ^ 16)
    + f (d.toNat / 2 ^ 16) (a.toNat / 2 ^ 16) (b.toNat / 2 ^ 16) * 2 ^ 16)

/-- The half operations of HAR (R103); c is the addend of HPFMA. -/
def FKind.hAdd (h : FKind) (_ a b : Nat) : Nat := h.code .rne false ((h.value a).add (h.value b))
def FKind.hSub (h : FKind) (_ a b : Nat) : Nat := h.code .rne false ((h.value a).add (h.value b).neg)
def FKind.hMul (h : FKind) (_ a b : Nat) : Nat := h.code .rne false ((h.value a).mul (h.value b))
def FKind.hFma (h : FKind) (c a b : Nat) : Nat := h.code .rne false (((h.value a).mul (h.value b)).add (h.value c))
def FKind.hMin (h : FKind) (_ a b : Nat) : Nat := h.minNum a b
def FKind.hMax (h : FKind) (_ a b : Nat) : Nat := h.maxNum a b

/-- A value as an integer between lo and hi, NaN as 0 (R33). -/
def toIntSat (r : Rnd) (lo hi : Int) (x : FVal) : Int :=
  match x with
  | .nan => 0
  | .inf s => if s then lo else hi
  | .fin s m e =>
    let n := if 0 ≤ e then m <<< e.toNat else roundShift r s m (-e).toNat
    let v : Int := if s then -(n : Int) else n
    max lo (min hi v)

/-- The kinds of CVT (R106). -/
inductive CvtKind where
  | i32 | n32
  | flt (k : FKind)
deriving DecidableEq, Repr

/-- The kind of a CVT code (R106). -/
def cvtKind (c : BitVec 3) : CvtKind :=
  match c.toNat with
  | 0 => .i32
  | 1 => .n32
  | 2 => .flt kF32
  | 3 => .flt kF16
  | 4 => .flt kBf16
  | 5 => .flt kE4m3
  | 6 => .flt kE5m2
  | _ => .flt kE2m1

/-- The rounding of a CVT FN (R106). -/
def cvtRnd (r : BitVec 3) : Rnd :=
  match r.toNat with
  | 2 => .rz
  | 3 => .floor
  | 4 => .ceil
  | _ => .rne

/-- An integer as a value. -/
def FVal.ofInt (v : Int) : FVal := .fin (decide (v < 0)) v.natAbs 0

/-- The bits of a kind in the low end of a register (R35). -/
def FKind.low (k : FKind) (a : Word) : FVal := k.value (a.toNat % 2 ^ (1 + k.eb + k.mb))

/-- CVT (R33, R106). -/
def cvt (u v : CvtKind) (r : BitVec 3) (a : Word) : Word :=
  let sat := r == 1#3
  match u, v with
  | .i32, .i32 => a
  | .n32, .n32 => a
  | .i32, .n32 => if sat && decide (a.toInt < 0) then 0 else a
  | .n32, .i32 => if sat && decide (2 ^ 31 ≤ a.toNat) then 0x7FFFFFFF#32 else a
  | .i32, .flt k => BitVec.ofNat 32 (k.code .rne sat (.ofInt a.toInt))
  | .n32, .flt k => BitVec.ofNat 32 (k.code .rne sat (.ofInt a.toNat))
  | .flt k, .i32 => BitVec.ofInt 32 (toIntSat (cvtRnd r) (-(2 ^ 31)) (2 ^ 31 - 1) (k.low a))
  | .flt k, .n32 => BitVec.ofInt 32 (toIntSat (cvtRnd r) 0 (2 ^ 32 - 1) (k.low a))
  | .flt k, .flt j => BitVec.ofNat 32 (j.code .rne sat (k.low a))

/-- A f32 word narrowed by the fn 0 rule (R33, R107). -/
def FKind.narrow (k : FKind) (a : Word) : Nat := k.code .rne false (f32 a)

/-- A code widened to f32 (R33, R107). -/
def FKind.widen (k : FKind) (c : Nat) : Word := rne32 (k.value c)

/-- One level of a binary summation tree: absent children are skipped (R39). -/
def pairUp {α : Type} (f : α → α → α) (l : List (Option α)) : List (Option α) :=
  match l with
  | a :: b :: r =>
    (match a, b with
      | some x, some y => some (f x y)
      | some x, none => some x
      | none, some y => some y
      | none, none => none) :: pairUp f r
  | r => r

/-- The root of a tree of n levels. -/
def treeSum {α : Type} (f : α → α → α) (n : Nat) (l : List (Option α)) : Option α :=
  match n with
  | 0 => l.headD none
  | k + 1 => treeSum f k (pairUp f l)

/-- The value of an element of an E2M1S block (R28). -/
def blockValue (c sw : Nat) : FVal :=
  let sexp := sw % 256
  let x : FVal := if c = 8 then kE4m3.value (sw / 256 % 256) else kE2m1.value c
  if sexp = 255 then .nan else x.mul (.fin false 1 ((sexp : Int) - 127))

/-- Integer square root by bits, from bit n - 1 down. -/
def isqrt (n : Nat) (r v : Nat) : Nat :=
  match n with
  | 0 => r
  | k + 1 => if (r + 2 ^ k) * (r + 2 ^ k) ≤ v then isqrt k (r + 2 ^ k) v else isqrt k r v

/-- The square root of m * 2^e, m below 2^90, with a sticky bit below its 60 or more bits. -/
def rootOf (m : Nat) (e : Int) : FVal :=
  let sh : Nat := if (e - 120) % 2 = 0 then 120 else 121
  let v := m <<< sh
  let r := isqrt 128 0 v
  .fin false (2 * r + (if r * r = v then 0 else 1)) ((e - sh) / 2 - 1)

/-- x / 2^k over m with a sticky bit: the reciprocal of m * 2^e. -/
def recipOf (neg : Bool) (m : Nat) (e : Int) : FVal :=
  let q := 2 ^ 80 / m
  .fin neg (2 * q + (if q * m = 2 ^ 80 then 0 else 1)) (-e - 81)

/-- The signed fixed-point form of R40 with lsb 2^q. -/
def fixedOf (q : Int) (x : FVal) : Int :=
  match x with
  | .fin s m e => scaled s m e q
  | _ => 0

end Sys2Proof.Machine
end

