-- ==== Sys2Proof/WellFormed.lean ====
section
/-!
DEFINITION. The static well-formedness of an instruction word taken without a prefix: the register numbers, predicate numbers, kinds and sub-fields that the encoding tables mark legal (R9, R53 to R55 and the entries). A word that breaks it raises ILLEGAL. Position in a clause, FMT and an EXT prefix are not static and are checked where the instruction runs.
-/
namespace Sys2Proof

/-- A pair base: even and below 56 (R9). -/
def pairBase (n : BitVec 6) : Bool := n.toNat % 2 == 0 && decide (n.toNat < 56)

/-- A quad base: a multiple of 4 and below 56 (R9). -/
def quadBase (n : BitVec 6) : Bool := n.toNat % 4 == 0 && decide (n.toNat < 56)

/-- The base of T for a size code of LD, ST and their kin (R48, R205): code 7 is illegal. -/
def sizeBase (z : BitVec 3) (t : BitVec 6) : Bool :=
  match z.toNat with
  | 3 => pairBase t
  | 4 => quadBase t
  | 7 => false
  | _ => true

/-- A lane predicate as a destination: 0 to 11 (R53). -/
def laneDest (p : BitVec 4) : Bool := decide (p.toNat < 12)

/-- A lane predicate as a source: 12 reads true (R90). -/
def laneSrc (p : BitVec 4) : Bool := decide (p.toNat < 13)

/-- A uniform predicate as a destination: 0 to 7 (R54). -/
def uniDest (p : BitVec 4) : Bool := decide (p.toNat < 8)

/-- A uniform predicate as a source: 8 reads true (R97). -/
def uniSrc (p : BitVec 4) : Bool := decide (p.toNat < 9)

/-- The static check of an atomic without a prefix, 32-bit and integer (R208). -/
def atomBase (o u : BitVec 3) (t : BitVec 6) : Bool :=
  (u.toNat != 5 || o.toNat == 0 || o.toNat == 5) && (o.toNat != 7 || t.toNat % 2 == 0)

/-- The descriptor base of an engine command: a multiple of 8 (R54, R266). -/
def descBase (a : BitVec 6) : Bool := a.toNat % 8 == 0

/-- A number that SRD reads, below 0x200 where no privilege is asked for (R56). -/
def srdNumber (r : BitVec 12) : Bool :=
  decide (0x200 ≤ r.toNat) || decide (r.toNat ≤ 0x00B) || (decide (0x010 ≤ r.toNat) && decide (r.toNat ≤ 0x01A)) ||
    (decide (0x100 ≤ r.toNat) && decide (r.toNat ≤ 0x10F))

/-- A number that SWR writes, below 0x200 where no privilege is asked for (R95). -/
def swrNumber (r : BitVec 12) : Bool := decide (0x200 ≤ r.toNat) || decide (r.toNat ≤ 0x002) || r.toNat == 0x01A

/-- Static well-formedness; an event is well-formed. -/
def Instr.wf (i : Instr) : Bool :=
  match i with
  | .idiv .. | .idivn .. | .irem .. | .iremn .. => false
  | .iset _ _ p _ _ _ | .fset _ _ p _ _ _ => laneDest p
  | .sset _ _ p _ _ _ => uniDest p
  | .pand _ d a b | .por _ d a b | .pxor _ d a b | .pandn _ d a b => laneDest d && laneSrc a && laneSrc b
  | .pnot _ d a => laneDest d && laneSrc a
  | .pset _ d | .pclr _ d => laneDest d
  | .qand _ d a b | .qor _ d a b | .qxor _ d a b | .qandn _ d a b => uniDest d && uniSrc a && uniSrc b
  | .qnot _ d a => uniDest d && uniSrc a
  | .qset _ d | .qclr _ d => uniDest d
  | .lsr _ _ b => decide (b.toNat < 5)
  | .cvt _ _ _ _ v r => decide (r.toNat < 5) && (decide (r.toNat < 2) || decide (v.toNat < 2))
  | .lmask _ d _ => pairBase d
  | .ld _ t _ _ z _ | .st _ t _ _ z _ | .lds _ t _ z _ | .sts _ t _ z _ | .sld _ t _ _ z _ | .sst _ t _ _ z _ =>
    sizeBase z t
  | .atom _ t _ _ o u => atomBase o u t
  | .red _ t _ _ o u => atomBase o u t && decide (o.toNat < 6)
  | .satom _ t _ o u => atomBase o u t && !(u.toNat == 3 || u.toNat == 4 || u.toNat == 5)
  | .joinat g _ => g.toNat == 0 || decide (13 ≤ g.toNat)
  | .callr g a => g.toNat != 13 && pairBase a
  | .callrU a | .jsegr _ a => pairBase a
  | .frame n => decide (n.toNat < 6)
  | .smov64 _ d a => pairBase d && pairBase a
  | .tbset _ _ a _ | .mmag _ _ a _ | .accrs _ _ a | .cfetch _ a | .launch _ _ a => pairBase a
  | .cinv _ s a => decide (s.toNat < 3) && pairBase a
  | .cpG2s _ _ a | .cpS2g _ _ a | .cpG2g _ _ a | .cpGath _ _ a | .cpReg _ _ a | .cpAcc _ _ a | .mma _ _ a | .mmv _ _ a
  | .objdef _ _ a | .credSum _ _ a | .credMax _ _ a | .credMin _ _ a => descBase a
  | .cpMma _ _ a => a.toNat % 16 == 0
  | .accrd _ d _ _ => d.toNat % 8 == 0 && decide (d.toNat ≤ 48)
  | .objcall _ _ a _ _ => decide (a.toNat < 55)
  | .walknext _ _ a | .prireq _ a | .tlbdone _ a _ => quadBase a
  | .tlbfill _ a b | .atsreq _ a b => quadBase a && quadBase b
  | .tlbinv _ a _ => quadBase a
  | .srd _ _ r => srdNumber r
  | .swr _ _ r => swrNumber r
  | _ => true

end Sys2Proof
end

