-- ==== Sys2Proof/Machine/Access.lean ====
section
/-!
DEFINITION. What the memory instructions share: the checks of R200, the translation of the lanes (R202, R354), bytes that read as undefined (R157, R226, R235), sectors (R203), the operation of an atomic (R209), held quantum REDs (R196), and samples (R378).
-/
namespace Sys2Proof.Machine

/-- The bytes of a size code (R48); code 7 has none. -/
def sizeOf (z : BitVec 3) : Nat :=
  match z.toNat with
  | 0 | 5 => 1
  | 1 | 6 => 2
  | 2 => 4
  | 3 => 8
  | 4 => 16
  | _ => 0

/-- The registers of a size code. -/
def regsOf (z : BitVec 3) : Nat :=
  match z.toNat with
  | 3 => 2
  | 4 => 4
  | _ => 1

/-- The register fields that an access names: T and what follows it, then A. -/
def accessFields (t a n : Nat) : List Nat := (List.range n).map (t + ·) ++ [a]

/-- The offset of lane l (R201, R207). -/
def State.laneOff (s : State) (a : BitVec 6) (l : Nat) : Int := (s.reg l a.toNat).toNat + s.disp

/-- The record of a lane whose access fails a check: the page and the direction of the access (R299). -/
def checkRecord (page : Nat → Word) (write : Bool) (c : Cause) (t : Mask) : List (Nat × Word) :=
  t.lanes.map (fun l => (l, page l &&& 0xFFFFF000#32 ||| faultRecord 0 write false false c.code.toNat))

/-- n free bytes as a value. -/
def State.freeValue (s : State) (n : Nat) : Nat := gatherLE (fun i => Config.freeByte (s.free + i)) n

/-- They are used up. -/
def State.useFree (s : State) (n : Nat) : State := { s with free := s.free + n }

/-- What the issuing stream has sent last, if its number is start or above, belongs to a sample, and so do the quantum REDs that its instruction has held; older held REDs that it flushed do not (R378). -/
def State.tagOps (s : State) (start last k : Nat) : State :=
  let own : List (Nat × Nat) → List (Nat × Nat) := fun m => m.map (fun x => (if x.1 = 0 then k else x.1, x.2))
  let t := s.modSt (fun x => { x with loads := x.loads.map (fun r => if start ≤ r.id ∧ r.id + 1 = last then { r with sample := some k } else r),
                                      held := x.held.map (fun h => { h with samples := own h.samples }) })
  { t with stores := t.stores.map (fun p => if start ≤ p.id ∧ p.id + 1 = last then { p with sample := some k } else p),
           atomics := t.atomics.map (fun p => if start ≤ p.id ∧ p.id + 1 = last then { p with sample := some k, more := own p.more } else { p with more := own p.more }) }

/-- The quantum REDs that the instruction has held belong to no sample (R378). -/
def State.untagOps (s : State) : State :=
  let own : List (Nat × Nat) → List (Nat × Nat) := fun m => m.filter (fun x => x.1 != 0)
  let t := s.modSt (fun x => { x with held := x.held.map (fun h => { h with samples := own h.samples }) })
  { t with atomics := t.atomics.map (fun p => { p with more := own p.more }) }

/-- Whether an operation of a sample, or a fragment's replay of its instruction, is still to come; but: a stream that does not count (R378). -/
def State.sampleOpen (s : State) (k but : Nat) : Bool :=
  s.allStreams.any (fun x => x.loads.any (fun r => r.sample == some k) || (x.replay == some k && x.sid != but) ||
      x.held.any (fun h => h.samples.any (fun m => m.1 == k))) ||
    s.stores.any (fun p => p.sample == some k) || s.atomics.any (fun p => p.sample == some k || p.more.any (fun m => m.1 == k))

/-- The records of the samples whose last lane has completed (R378). Queue times are free values. -/
def State.endSamples (s : State) (but : Nat) : State :=
  s.samples.foldl (fun t m =>
    if t.sampleOpen m.id but then t
    else
      (({ t with samples := t.samples.filter (fun x => x.id != m.id) } : State).trace m.core m.ctx 1 m.name
        [BitVec.ofNat 32 (m.sectors * 2 ^ 16 + m.lanes), BitVec.ofNat 32 (m.split * 2 ^ 24 + m.last * 2 ^ 16 + min m.reissues 65535),
         Config.freeWord t.free, Config.freeWord (t.free + 1)]).useFree 2) s

/-- An operation of a sample is over. -/
def State.sampleDone (s : State) (k : Option Nat) : State := if k.isSome then s.endSamples 0 else s

/-- A lane of a sample is served: the last one so far (R378). -/
def State.sampleLane (s : State) (k : Option Nat) (l : Nat) : State :=
  match k with
  | some k => ({ s with samples := s.samples.map (fun m => if m.id = k then { m with last := l } else m) } : State).endSamples 0
  | none => s

/-- A sample of the issuing group counts for the template that its launch runs (R348). -/
def State.countSample (s : State) : State :=
  match (s.launches.find? (fun l => l.key == s.un.launch)).bind (·.umell) with
  | none => s
  | some e => s.modCtx s.gr.ctx (fun c => { c with templates := c.templates.map (fun t => if t.entry = e.1 then { t with samples := t.samples + 1 } else t) })

/-- R378: a memory instruction of the core retires; every 2^SAMPN-th is sampled, with what it has sent last, under a number from start on. n: its sectors; p: the lanes that it served; last: the lane served last at retirement; extra: its bank conflicts. The lanes that left in fragments count too; a fragment's replay belongs to the instruction that split. -/
def State.sample (s : State) (start n p last extra : Nat) : State :=
  match s.st.replay, s.coreRec s.gr.coreId with
  | some k, _ =>
    if k = 0 then s.untagOps
    else
      (({ s with samples := s.samples.map (fun m => if m.id = k then
          { m with sectors := m.sectors + n, last := if p = 0 then m.last else last, reissues := m.reissues + s.st.reissues + extra } else m) } : State).tagOps start s.nextId k).endSamples s.st.sid
  | none, none => s.untagOps
  | none, some c =>
    let s1 := s.modCore s.gr.coreId (fun x => { x with sampled := x.sampled + 1 })
    if 4 ≤ c.sampn.toNat ∧ c.sampn.toNat ≤ 20 ∧ (c.sampled + 1) % 2 ^ c.sampn.toNat = 0 ∧ s.confidential s.gr.ctx = false then
      let k := s1.nextId
      let split := (s.streams.filter (fun x => s.st.splits.contains x.sid)).foldl (fun i x => i + x.base.size) 0
      let m : MemSample := { id := k, core := s.gr.coreId, ctx := s.gr.ctx, name := s.traceName, sectors := n, lanes := p + split, split := split, last := last,
                             reissues := s.st.reissues + extra }
      let s2 := (({ s1 with samples := s1.samples ++ [m], nextId := k + 1 } : State).countSample).tagOps start s.nextId k
      ({ s2 with streams := s2.streams.map (fun x => if s.st.splits.contains x.sid then { x with replay := some k } else x) } : State).endSamples s.st.sid
    else s1.untagOps

/-- The cycles beyond the first that distinct words of one bank take (R163): ws are the words that the lanes name. -/
def bankExtra (ws : List Nat) : Nat :=
  let ds := ws.eraseDups
  ds.foldl (fun n w => max n ((ds.filter (fun v => v % 32 == w % 32)).length - 1)) 0

/-- The checks of R200 over P: ILLEGAL for the whole instruction, then REG_BOUND, PROT and MISALIGN, which report P; the records of the lanes that fail hold the access. An empty P requests nothing. -/
def State.checked (s : State) (p : Mask) (legal : Bool) (fields : List Nat) (page : Nat → Word) (write : Bool)
    (inRange aligned : Nat → Bool) (f : Verdict) : Verdict :=
  let bound := s.beyondIn p fields
  let out := Mask.ofPred (fun l => p.has l && !inRange l)
  let odd := Mask.ofPred (fun l => p.has l && !aligned l)
  if !legal then .trap .illegal s.st.exm s
  else if p = 0 then .next (s.sample s.nextId 0 0 0 0)
  else if bound ≠ 0 then .trap .regBound p s
  else if out ≠ 0 then .trapRec .prot p (checkRecord page write .prot out) s
  else if odd ≠ 0 then .trapRec .misalign p (checkRecord page write .misalign odd) s
  else f

/-- The low word of the VA of an offset through a translation register; 0 when the register is unbound. -/
def State.vaWord (s : State) (n : Nat) (off : Int) : Word :=
  if (s.tbReg n).bound then BitVec.ofInt 32 ((s.tbReg n).va + off) else 0

/-- The checks of a global access through translation register n. -/
def State.globalChecked (s : State) (p : Mask) (legal : Bool) (fields : List Nat) (n : Nat) (a : BitVec 6) (size : Nat)
    (write : Bool) (f : Verdict) : Verdict :=
  s.checked p legal fields (fun l => s.vaWord n (s.laneOff a l)) write (fun l => s.offsetOk n (s.laneOff a l) size)
    (fun l => decide (((s.tbReg n).va + (s.laneOff a l).toNat) % size = 0)) f

/-- The checks of a scratchpad access. -/
def State.scratchChecked (s : State) (p : Mask) (legal : Bool) (fields : List Nat) (a : BitVec 6) (size : Nat)
    (write : Bool) (f : Verdict) : Verdict :=
  s.checked p legal fields (fun _ => 0) write (fun l => s.scratchGood (s.laneOff a l) size)
    (fun l => decide ((s.laneOff a l).toNat % size = 0)) f

/-- A lane of an access as R201 forms it: its VA and its translation; direct: within the run that the register records. -/
structure LaneVa where
  lane : Nat
  va : Nat
  direct : Bool
  trans : Trans
deriving DecidableEq, Repr

/-- The lanes of P at translation register n. -/
def State.laneVas (s : State) (p : Mask) (n : Nat) (a : BitVec 6) (size : Nat) (need : BitVec 3) : List LaneVa :=
  p.lanes.map (fun l =>
    let off := (s.laneOff a l).toNat
    { lane := l, va := (s.tbReg n).va + off, direct := s.st.physical || decide (off + size ≤ (s.tbReg n).limit),
      trans := (s.transTb n off size need).struck s false size })

/-- The walks that lanes still miss. -/
def missing (ls : List LaneVa) : List (Nat × Bool) :=
  ls.filterMap (fun x => match x.trans with
    | .walk ats => some (x.va, ats)
    | _ => none)

/-- The answer of a peer to what a lane of the issuing instruction has asked: with sure the access, else whether its page is there (R202, R354). -/
def State.peerAnswer (s : State) (l : Nat) (sure : Bool) : Option PeerAnswer :=
  (s.st.peer.find? (fun x => x.lane == l && x.sure == sure)).bind (·.answer)

/-- Whether a lane has asked its peer so. -/
def State.peerAsked (s : State) (l : Nat) (sure : Bool) : Bool := s.st.peer.any (fun x => x.lane == l && x.sure == sure)

/-- The lanes whose access travels, each with its device, the context there and its address there (R354). -/
def farLanes (ls : List LaneVa) : List (LaneVa × BitVec 12 × Word × Nat) :=
  ls.filterMap (fun x => match x.trans with
    | .peer dev rctx rva => some (x, dev, rctx, rva)
    | _ => none)

/-- Requests to peers: one for each sector, with the parts of its lanes (R203, R354). -/
def peerMsgs (sid : Nat) (op : Nat → PeerOp) (ls : List (LaneVa × BitVec 12 × Word × Nat)) : List HostMsg :=
  let keys := (ls.map (fun x => (x.2.1, x.2.2.1, x.2.2.2 / 32))).eraseDups
  keys.map (fun k => .peerRequest sid k.1 k.2.1
    ((ls.filter (fun x => (x.2.1, x.2.2.1, x.2.2.2 / 32) == k)).map (fun x => (x.1.lane, x.2.2.2, op x.1.lane))))

/-- Lanes ask their peers and wait (R181, R354). -/
def State.askPeers (s : State) (ls : List (LaneVa × BitVec 12 × Word × Nat)) (write sure : Bool) (op : Nat → PeerOp) : Verdict :=
  let msgs := peerMsgs s.st.sid op ls
  s.requesting msgs.length (fun t =>
    .hold (({ t with out := t.out ++ msgs } : State).modSt (fun x =>
      { x with peer := x.peer ++ ls.map (fun y => { lane := y.1.lane, va := y.1.va, write := write, answer := none, sure := sure }), status := .waitPeer })))

/-- The fault of a lane, if it has one: absent, refused, or so answered by its peer (R202, R354). -/
def State.laneFault (s : State) (write : Bool) (x : LaneVa) : Option LaneFault :=
  let f : Bool → Bool → LaneFault := fun host refused =>
    { lane := x.lane, va := x.va, write := write, host := host, spill := false, refused := refused, settled := none }
  match x.trans with
  | .absent h => some (f h false)
  | .refused h => some (f h true)
  | .lost => some { f true true with settled := some false }
  | .peer .. =>
    match s.peerAnswer x.lane true, s.peerAnswer x.lane false with
    | some .absent, _ | none, some .absent => some (f false false)
    | some .refused, _ | none, some .refused => some { f false true with settled := some false }
    | _, _ => none
  | _ => none

/-- Where the lanes that go on perform. -/
def okLanes (ls : List LaneVa) : List (Nat × Nat × Loc) :=
  ls.filterMap (fun x => match x.trans with
    | .ok l => some (x.lane, x.va, l)
    | _ => none)

/-- The lanes whose bytes lie in a line that an uncorrectable error has poisoned (R391). -/
def State.hurtLanes (s : State) (ls : List LaneVa) (size : Nat) : Mask :=
  Mask.ofLanes (((okLanes ls).filter (fun x => s.poisoned true x.2.2 size)).map (fun x => x.1))

/-- What peers gave the lanes that they served. -/
def State.peerData (s : State) (ls : List LaneVa) : List (Nat × BitVec 128) :=
  ls.filterMap (fun x => match x.trans, s.peerAnswer x.lane true with
    | .peer .., some (.done v) => some (x.lane, v)
    | _, _ => none)

/-- The entries that the lanes' built-in walks leave in the TLB, one miss and one completed walk for each page, whatever it finds (R175, R379). -/
def State.noteMisses (s : State) (ls : List LaneVa) : State :=
  let pages := ((ls.filter (fun x => !x.direct && (match x.trans with
    | .peer .. => false
    | _ => true))).map (fun x => x.va / 4096)).eraseDups
  pages.foldl (fun t p =>
    if (t.tlbHit t.gr.coreId t.gr.ctx (4096 * p)).isSome || t.walkerLoaded t.gr.die then t
    else ((t.tlbFill t.gr.coreId t.gr.ctx (4096 * p)).countCore t.gr.coreId 6 1).countDie t.gr.die 6 1) s

/-- The misses of an access put into the walk queue, one request for each page (R175, R181, R379). -/
def State.walkMisses (s : State) (walks : List (Nat × Bool)) (need : BitVec 3) : Verdict :=
  let pages := (walks.map (fun w => w.1 / 4096)).eraseDups
  s.requesting pages.length (fun t =>
    .hold (((walks.foldl (fun t w => t.queueWalk t.gr.coreId t.gr.ctx w.1 need w.2) t).countCore t.gr.coreId 6 pages.length).reissued.modSt
      (fun x => { x with status := .waitWalk })))

/-- R202: the lanes of an access translated. Misses wait for the walker. Lanes in peer windows ask their peers: a load for the bytes, a store or an atomic first whether the page is there. Then every lane that faults, here or there, splits off in one fragment before any lane performs (R290, R298); the other peer lanes perform (R354), and f goes on. -/
def State.located (s : State) (ls : List LaneVa) (size : Nat) (need : BitVec 3) (op : Nat → PeerOp)
    (f : State → List (Nat × Nat × Loc) → List (Nat × BitVec 128) → Verdict) : Verdict :=
  let write := need.getLsbD 1
  let walks := missing ls
  let far := farLanes ls
  if walks ≠ [] then s.walkMisses walks need
  else if s.hurtLanes ls size ≠ 0 then .trapRec .prot (s.hurtLanes ls size)
      (checkRecord (fun l => BitVec.ofNat 32 (((ls.find? (fun x => x.lane == l)).map (·.va)).getD 0)) write .prot (s.hurtLanes ls size)) s
  else
    let news := far.filter (fun x => !s.peerAsked x.1.lane true && !s.peerAsked x.1.lane false)
    if news ≠ [] then s.askPeers news write (!write) (if write then fun _ => .probe size need else op)
    else if far ≠ [] ∧ s.st.peer.any (fun p => p.answer.isNone) then .hold (s.modSt (fun x => { x with status := .waitPeer }))
    else
      match (s.dropAnswers.noteMisses ls).onFaults (ls.filterMap (s.laneFault write)) with
      | .stop v => v
      | .run s1 =>
        let go := far.filter (fun x => (s.laneFault write x.1).isNone && !s.peerAsked x.1.lane true)
        if go ≠ [] then s1.askPeers go write true op else f s1 (okLanes ls) (s.peerData ls)

/-- Whether a VA of a context lies in the frame area or the divergence area of one of its groups (R157). -/
def State.inArea (s : State) (ctx va : Nat) : Bool :=
  s.allGroups.any (fun g => g.live && g.uid != 0 && g.ctx == ctx &&
    ((decide (g.fa ≤ va) && decide (va < g.fa + 4 * g.faw * g.width)) || (decide (g.da ≤ va) && decide (va < g.da + 0x4000))))

/-- Whether an interval list covers a point. -/
def covers (rs : List (Nat × Nat)) (a : Nat) : Bool := rs.any (fun r => decide (r.1 ≤ a) && decide (a < r.1 + r.2))

/-- Whether a command leaves its destination bytes undefined: until the covering WAIT, or until a FENCE with ASYNC has made them older writes of the agent (R190, R194, R226, R235). -/
def Cmd.unsettled (c : Cmd) : Bool := !c.fenced

/-- Whether an access of size bytes at a VA touches an engine's destination bytes that are not settled. -/
def State.unsettledVa (s : State) (ctx va size : Nat) : Bool :=
  s.cmds.any (fun c => c.ctx == ctx && c.unsettled && (List.range size).any (fun i => covers c.destVa (va + i)))

/-- Where a page of a context lies, if its tables or some core's TLB say so. -/
def State.pageLoc (s : State) (ctx va : Nat) : Option Loc :=
  match s.tlb.find? (fun e => e.ctx == ctx && decide (e.va ≤ va) && decide (va < e.va + e.size)) with
  | some e => some (e.loc.plus (va - e.va))
  | none =>
    match s.walkVa ctx va with
    | .page pa size _ false _ enc => some (devLoc (s.keyOf ctx enc) (pa + va % size))
    | _ => none

/-- Whether a location is one of the bytes of a range of a command's context. -/
def State.destAt (s : State) (c : Cmd) (l : Loc) (r : Nat × Nat) : Bool :=
  let near : Loc → Nat → Nat → Bool := fun p va n => match p, l with
    | .dev x, .dev y | .enc _ x, .dev y | .dev x, .enc _ y | .enc _ x, .enc _ y | .host x, .host y => decide (x ≤ y) && decide (y < x + n) && decide (r.1 ≤ va + (y - x)) && decide (va + (y - x) < r.1 + r.2)
    | _, _ => false
  (List.range (if r.2 = 0 then 0 else (r.1 + r.2 - 1) / 4096 - r.1 / 4096 + 1)).any (fun k =>
    let va := 4096 * (r.1 / 4096 + k)
    match s.pageLoc c.ctx va with
    | some p => near p va 4096
    | none => false)

/-- The same for a location, whatever address names it: an on-chip byte, or one that the command reaches by a VA of its context (R226). -/
def State.unsettledLoc (s : State) (l : Loc) (size : Nat) : Bool :=
  s.cmds.any (fun c => c.unsettled && (List.range size).any (fun i =>
    (match l with
      | .host _ => false
      | .dev a | .enc _ a => covers c.destPa (a + i)) || c.destVa.any (s.destAt c (l.plus i))))

/-- Whether what a context reads is undefined (R157, R226). -/
def State.undefIn (s : State) (ctx va : Nat) (l : Loc) (size : Nat) : Bool :=
  s.inArea ctx va || s.unsettledVa ctx va size || s.unsettledLoc l size

/-- Whether what an access reads is undefined. -/
def State.undefAt (s : State) (va : Nat) (l : Loc) (size : Nat) : Bool := !s.st.physical && s.undefIn s.gr.ctx va l size

/-- The words that a loaded value of a size gives (R205). -/
def loadWords (size : Nat) (signed : Bool) (v : Nat) : List Word :=
  if size = 8 then [BitVec.ofNat 32 v, BitVec.ofNat 32 (v >>> 32)]
  else if size = 16 then [BitVec.ofNat 32 v, BitVec.ofNat 32 (v >>> 32), BitVec.ofNat 32 (v >>> 64), BitVec.ofNat 32 (v >>> 96)]
  else [widen v size signed]

/-- Words given to a lane of a group at absolute word positions; none is discarded. -/
def State.landLane (s : State) (gid l : Nat) (ws : List (Option Nat × Word)) : State :=
  s.modGroup gid (fun g => { g with lanes := g.lanes.modify l (fun x =>
    ws.foldl (fun y w => match w.1 with
      | some k => y.putWord g.allot k w.2
      | none => y) x) })

/-- Words given to scalar registers of a stream. -/
def State.landScalar (s : State) (sid : Nat) (ws : List (Option Nat × Word)) : State :=
  let put : List Word → Option Nat × Word → List Word := fun y w => match w.1 with
    | some k => y.set k w.2
    | none => y
  s.modStream sid (fun x => { x with sregs := ws.foldl put x.sregs })

/-- The absolute words that n registers from T name in a lane. -/
def State.laneWords (s : State) (l t n : Nat) : List (Option Nat) := (List.range n).map (fun i => (s.lane l).winWord (t + i))

/-- The scalar registers that n fields from T name. -/
def scalarWords (t n : Nat) : List (Option Nat) := (List.range n).map (fun i => if t + i < 60 then some (t + i) else none)

/-- The value of n registers of a lane, the first lowest (R4). -/
def State.regsValue (s : State) (l t n : Nat) : Nat :=
  match n with
  | 0 => 0
  | k + 1 => s.regsValue l t k + (s.reg l (t + k)).toNat <<< (32 * k)

/-- The value of n scalar registers. -/
def State.sregsValue (s : State) (t n : Nat) : Nat :=
  match n with
  | 0 => 0
  | k + 1 => s.sregsValue t k + (s.sreg (t + k)).toNat <<< (32 * k)

/-- The held quantum REDs go before an access of their agent to one of their locations (R196). -/
def State.flushAt (s : State) (ls : List Loc) (size : Nat) : State :=
  if s.st.held.any (fun h => ls.any (fun l => l.meets size h.op.loc h.op.size)) then s.flushHeld s.st.sid else s

/-- The operation of an atomic on its location (R209). n: its size in bytes. -/
def atomNew (opa : BitVec 3) (n : Nat) (sgn flt : Bool) (old v nv : Pair) : Pair :=
  let w := 8 * n
  let lo : Pair → Nat := fun x => x.toNat % 2 ^ w
  let f : (Word → Word → Word) → Pair := fun g => (g (old.setWidth 32) (v.setWidth 32)).setWidth 64
  let lt : Bool := if sgn then decide ((BitVec.ofNat w (lo old)).toInt < (BitVec.ofNat w (lo v)).toInt) else decide (lo old < lo v)
  let r : Pair := match opa.toNat with
    | 0 => if flt then f fAdd else old + v
    | 1 => if flt then f fMin else if lt then old else v
    | 2 => if flt then f fMax else if lt then v else old
    | 3 => old &&& v
    | 4 => old ||| v
    | 5 => old ^^^ v
    | 6 => v
    | _ => if lo old = lo v then nv else old
  BitVec.ofNat 64 (lo r)

/-- An atomic at its home: the new value is written (R170, R209), and the old one, which is a free value where a read is undefined (R190). -/
def State.performAtom (s : State) (a : AtomLane) : State × Pair :=
  let old : Pair := BitVec.ofNat 64 (if a.undef then s.freeValue a.size else s.getN a.loc a.size)
  ((((s.putN a.loc (atomNew a.opa a.size a.sgn a.flt old a.v a.nv).toNat a.size).syncLine a.loc).countDie (Loc.homeDie a.loc) 4 1).useFree
    (if a.undef then a.size else 0), old)

/-- The atomic of a core counted on its page (R171). -/
def State.countPage (s : State) (core : Nat) (a : AtomLane) : State :=
  match a.loc.pa with
  | none => s
  | some x =>
    if s.pageCounts.any (fun c => c.page == x / 4096 && c.die == dieOf core) then
      { s with pageCounts := s.pageCounts.map (fun c =>
          if c.page = x / 4096 ∧ c.die = dieOf core then { c with count := c.count + 1, movable := c.movable || a.movable } else c) }
    else { s with pageCounts := s.pageCounts ++ [(⟨x / 4096, dieOf core, 1, a.movable⟩ : PageCount)] }

/-- One lane's atomic performed: its core's L1 sector goes (R166), its page counts it, the old value lands. -/
def State.performLane (s : State) (gid core : Nat) (a : AtomLane) : State :=
  let (s1, old) := s.performAtom a
  ((s1.noteAtomic core a.loc).countPage core a).landLane gid a.lane (a.words.zip (loadWords (if a.size = 8 then 8 else 4) false old.toNat))

/-- A quantum RED joins the agent's held ones: one of the same operation on the same location is aggregated, one of another operation flushes them first (R196). -/
def State.holdRed (s : State) (a : AtomLane) : State :=
  let same : HeldRed → Bool := fun h => h.op.loc == a.loc && h.op.size == a.size && h.op.opa == a.opa && h.op.flt == a.flt && h.op.sgn == a.sgn
  if s.st.held.any same then
    s.modSt (fun x => { x with held := x.held.map (fun h =>
      if same h then { h with op := { h.op with v := atomNew a.opa a.size a.sgn a.flt h.op.v a.v 0 }, samples := h.samples ++ [(0, a.lane)] } else h) })
  else
    let s1 := s.flushAt [a.loc] a.size
    s1.modSt (fun x => { x with held := x.held ++ [{ op := { a with words := [] }, since := s1.dev.clock.toNat, samples := [(0, a.lane)] }] })

end Sys2Proof.Machine
end

