-- ==== Sys2Proof/Machine/Control.lean ====
section
/-!
DEFINITION. Control: EXT (R49 to R52), FRAME, CALL, CALLR, RET (R14 to R17, R113, R114), branches and joins (R109 to R112, R148), EXIT (R116), uniform transfers (R117), TRAP and BKPT (R118), barriers (R150 to R153), and the handler's returns (R322).
-/
namespace Sys2Proof.Machine

/-- An EXT latched for the next word of its clause; EXT before EXT, or last in its clause, is ILLEGAL (R52). -/
def State.prefix (s : State) (x : Ext) : Verdict :=
  let next := ((s.codeWord (s.st.pc + 4)).getD 0).extractLsb' 25 6
  if s.st.ext.isSome ∨ hdrN s.st.hdr ≤ s.st.pos ∨ next = 0x3F then
    .trap .illegal s.st.exm (s.modSt (fun t => { t with ext := none }))
  else .hold (s.modSt (fun t => { t with pc := t.pc + 4, pos := t.pos + 1, fresh := false, ext := some x }))

/-- EXT with K = 0 (R50). -/
def execExtImmediate (i : BitVec 24) (s : State) : Host.Outcome State Fault Refusal := s.run (s.prefix (.imm i))

/-- EXT with K = 1 (R51). -/
def execExtOperand (c : BitVec 6) (sc : BitVec 3) (w n f : BitVec 1) (m : BitVec 12) (s : State) :
    Host.Outcome State Fault Refusal :=
  s.run (s.prefix (.opnd c sc (w == 1) (n == 1) (f == 1) m))

/-- The target of an LB or UB word (R48, R50, R109). -/
def State.target (s : State) (o : BitVec 21) : CodeVa :=
  s.st.pc.addWords (match s.extImm with
    | some x => (joinImm x o).toInt
    | none => o.toInt)

/-- Whether a target lies outside the segment of the transfer (R110). -/
def State.leaves (s : State) (t : CodeVa) : Bool := segOf t != segOf s.st.pc

/-- Whether the instruction is the last word of its clause (R46). -/
def State.lastWord (s : State) : Bool := s.st.pos == hdrN s.st.hdr

/-- R111: a branch of the lanes of t to a target. -/
def State.branch (s : State) (t : Mask) (a : CodeVa) : Verdict :=
  let n := s.st.exm.minus t
  if t = 0 then .next s
  else if n = 0 then .moved (s.goto a)
  else s.pushThen [{ join := false, addr := a, depth := s.st.dep, mask := t, fmt := s.st.fmt }]
    (fun s1 => .next (s1.modSt (fun x => { x with exm := n })))

/-- BRA (R111). -/
def execBra (g : BitVec 4) (o : BitVec 21) (s : State) : Host.Outcome State Fault Refusal :=
  s.run (if s.leaves (s.target o) then .trap .segEdge s.st.exm s else s.branch (s.active g) (s.target o))

/-- BRAU: a divergent one sets UNIFSTK[0] and counts a uniformity event (R133, R148). -/
def execBrau (g : BitVec 4) (o : BitVec 21) (s : State) : Host.Outcome State Fault Refusal :=
  s.run (if s.leaves (s.target o) then .trap .segEdge s.st.exm s
    else
      let t := s.active g
      if t ≠ 0 ∧ s.st.exm.minus t ≠ 0 then
        match s.branch t (s.target o) with
        | .next s1 => .next ((s1.modSt (fun x => { x with unifstk := x.unifstk ||| 1 })).countCore s.gr.coreId 9 1)
        | v => v
      else s.branch t (s.target o))

/-- JOINAT (R112). -/
def execJoinat (g : BitVec 4) (o : BitVec 21) (s : State) : Host.Outcome State Fault Refusal :=
  s.run (if 1 ≤ g.toNat ∧ g.toNat ≤ 12 then .trap .illegal s.st.exm s
    else if s.leaves (s.target o) then .trap .segEdge s.st.exm s
    else s.pushThen [{ join := true, addr := s.target o, depth := s.st.dep, mask := s.st.exm, fmt := s.st.fmt }] .next)

/-- The fetch of a segment that is on its way to the issuing core (R242). -/
def State.fetching (s : State) (a : CodeVa) : Bool :=
  s.cmds.any (fun c => decide (c.kind = .cfetch) && c.arg == segOf a && c.ctx == s.gr.ctx && c.core == s.gr.coreId && !c.isOver)

/-- A transfer of the lanes of t to targets in other segments (R110, R242, R244): one whose fetch is in flight waits, an absent one traps SEG_ABSENT with the segment of the lowest such lane, and in a handler is fetched (R306). -/
def State.reach (s : State) (t : Mask) (targets : List CodeVa) (f : Verdict) : Verdict :=
  match targets.find? (fun a => !s.segPresent a) with
  | none => f
  | some a =>
    if s.isWave then s.fetchMethod (segOf a)
    else if s.fetching a then .hold (s.modSt (fun x => { x with status := .waitFetch (segOf a) }))
    else if s.st.privileged then .hold (s.handlerFetch a)
    else .trapWith .segAbsent t { TrapInfo.plain with cmdPc := BitVec.ofNat 57 (segOf a) } s

/-- The frame base that a call gives a lane (R15). -/
def Lane.callBase (x : Lane) : Nat := x.fb + 10 + x.locals

/-- The two linkage words of a call (R15). -/
def Lane.linkage (x : Lane) (ra : CodeVa) : Word × Word :=
  (BitVec.ofNat 32 ra.toNat, BitVec.ofNat 32 ((x.locals / 8) * 2 ^ 27 + ra.toNat / 2 ^ 32))

/-- The frame effect of a call on a lane (R15). -/
def Lane.call (x : Lane) (allot : Nat) (ra : CodeVa) : Lane :=
  let y := (x.putWord allot (x.callBase - 2) (x.linkage ra).1).putWord allot (x.callBase - 1) (x.linkage ra).2
  { y with fb := x.callBase, locals := 0 }

/-- The demands of a call (R184). -/
def State.callDemands (s : State) (t : Mask) (ra : CodeVa) : List Demand :=
  t.lanes.filterMap (fun l =>
    let x := s.lane l
    if x.callBase + 58 - s.gr.allot ≤ x.lowres then none
    else some { lane := l, spill := true, need := x.callBase + 58 - s.gr.allot, bound := x.callBase,
                words := [(x.callBase - 2, (x.linkage ra).1), (x.callBase - 1, (x.linkage ra).2)] })

/-- The lanes of a list grouped by a key, in the order of their lowest lanes (R113, R114). -/
def partLanes (f : Nat → CodeVa) (ls : List Nat) (fuel : Nat) : List (CodeVa × Mask) :=
  match fuel, ls with
  | 0, _ => []
  | _, [] => []
  | k + 1, l :: r =>
    (f l, Mask.ofLanes ((l :: r).filter (fun m => f m == f l))) :: partLanes f (r.filter (fun m => f m != f l)) k

/-- The effect of CALL and CALLR on the lanes of g once every check has passed (R113). -/
def State.callLanes (s : State) (t : Mask) (target : State → Nat → CodeVa) : Verdict :=
  let ra := s.st.pc + 4
  let n := s.st.exm.minus t
  match partLanes (target s) t.lanes 64 with
  | [] => .next s
  | (a, m) :: rest =>
    let pend : CodeVa × Mask → PathEntry := fun p =>
      { join := false, addr := p.1, depth := s.st.dep + 1, mask := p.2, fmt := s.st.fmt }
    let es := (if n = 0 then [] else [({ join := false, addr := ra, depth := s.st.dep, mask := n, fmt := s.st.fmt } : PathEntry)])
      ++ (rest.reverse.map pend)
    s.pushThen es (fun s1 =>
      .moved (((s1.mapLanes t (fun _ x => x.call s.gr.allot ra)).modSt (fun x =>
        { x with exm := m, dep := x.dep + 1 })).goto a))

/-- R113 for the lanes of the guard, with the checks of R398 in order; pre gives the checks that come before SEG_ABSENT. -/
def State.callShape (s : State) (g : BitVec 4) (legal : Bool) (pre : Mask → Option Verdict)
    (target : State → Nat → CodeVa) : Verdict :=
  if !legal || !s.lastWord then .trap .illegal s.st.exm s
  else
    let t := s.active g
    if t = 0 then .next s
    else
      match pre t with
      | some v => v
      | none =>
        s.reach t (t.lanes.map (target s)) (
          let tooDeep := Mask.ofPred (fun l => t.has l && decide (s.gr.faw ≤ (s.lane l).callBase + 57))
          if tooDeep ≠ 0 then .trap .frameOvf t s
          else s.withDemands (s.callDemands t (s.st.pc + 4)) (fun s1 => s1.callLanes (s1.active g) target))

/-- CALL (R113). -/
def execCall (g : BitVec 4) (o : BitVec 21) (s : State) : Host.Outcome State Fault Refusal :=
  s.runN (s.callShape g true (fun _ => none) (fun _ _ => s.target o))

/-- The checks of CALLR before SEG_ABSENT (R398). -/
def State.callrChecks (s : State) (a : BitVec 6) (uniform : Bool) (t : Mask) : Option Verdict :=
  let bound := s.beyondIn t [a.toNat, a.toNat + 1]
  let odd := Mask.ofPred (fun l => t.has l && (s.regPair l a.toNat).toNat % 4 != 0)
  if bound ≠ 0 then some (.trap .regBound t s)
  else if odd ≠ 0 then some (.trap .misalign t s)
  else if uniform && t.lanes.any (fun l =>
      (s.regPair l a.toNat).setWidth 57 != (s.regPair t.lowest a.toNat).setWidth 57) then some (.trap .unif t s)
  else none

/-- CALLR (R113). -/
def execCallr (g : BitVec 4) (a : BitVec 6) (s : State) : Host.Outcome State Fault Refusal :=
  s.runN (s.callShape g (isPair a.toNat) (s.callrChecks a false) (fun u l => (u.regPair l a.toNat).setWidth 57))

/-- CALLR.U: CALLR of every lane of EXM that traps UNIF when the targets differ (R133). -/
def execCallrU (a : BitVec 6) (s : State) : Host.Outcome State Fault Refusal :=
  s.runN (s.callShape 13 (isPair a.toNat) (s.callrChecks a true) (fun u l => (u.regPair l a.toNat).setWidth 57))

/-- The demands of the lanes whose linkage words are not resident: RET reads FS(l, FB - 2) and FS(l, FB - 1), which the engine brings back first (R17, R88, R184). -/
def State.linkDemands (s : State) (t : Mask) : List Demand :=
  t.lanes.filterMap (fun l =>
    let x := s.lane l
    if x.lowres ≤ x.fb - 2 then none
    else some { lane := l, spill := false, need := x.fb - 2, bound := x.fb + 58 - s.gr.allot, words := [] })

/-- The linkage words that RET reads in a lane (R17). -/
def State.retWords (s : State) (l : Nat) : Word × Word :=
  let x := s.lane l
  (x.word s.gr.allot (x.fb - 2), x.word s.gr.allot (x.fb - 1))

/-- The caller's L from the linkage (R17). -/
def retLocals (w1 : Word) : Nat := 8 * (w1.extractLsb' 27 3).toNat

/-- The return address from the linkage (R17). -/
def retAddr (w : Word × Word) : CodeVa := (w.2.extractLsb' 0 25 ++ w.1 : BitVec 57)

/-- The demands of a return (R184). -/
def State.retDemands (s : State) (t : Mask) : List Demand :=
  t.lanes.filterMap (fun l =>
    let x := s.lane l
    let fb := x.fb - 10 - retLocals (s.retWords l).2
    if x.lowres ≤ fb then none
    else some { lane := l, spill := false, need := fb, bound := fb + 58 - s.gr.allot, words := [] })

/-- The effect of RET once every check has passed (R17, R114). -/
def State.retLanes (s : State) (t : Mask) : Verdict :=
  let n := s.st.exm.minus t
  let parts := partLanes (fun l => retAddr (s.retWords l)) t.lanes 64
  let pend : CodeVa × Mask → PathEntry := fun p =>
    { join := false, addr := p.1, depth := s.st.dep - 1, mask := p.2, fmt := s.st.fmt }
  let back : State → State := fun u => u.mapLanes t (fun l x =>
    { x with fb := x.fb - 10 - retLocals (s.retWords l).2, locals := retLocals (s.retWords l).2 })
  match parts with
  | [] => .next s
  | (a, m) :: rest =>
    if n = 0 then
      s.pushThen (rest.reverse.map pend) (fun s1 =>
        .moved (((back s1).modSt (fun x => { x with exm := m, dep := x.dep - 1 })).goto a))
    else s.pushThen (parts.reverse.map pend) (fun s1 => .next ((back s1).modSt (fun x => { x with exm := n })))

/-- Lanes that end at an instruction (R116): held quantum REDs go first (R196), and execution goes on at the next word if some lanes are left. -/
def State.endAt (s : State) (e : Mask) : Verdict :=
  let s1 := s.flushHeld s.st.sid
  if e = 0 then .next s else if s1.st.exm.minus e = 0 then .moved ((s1.endLanes e).pathEnd) else .next (s1.endLanes e)

/-- RET of the lanes of t once the linkage of those that have met no fault is resident: the checks of R398 in order over these, then the return (R17, R114). -/
def State.retChecked (s : State) (g : BitVec 4) (t : Mask) : Verdict :=
  let u := s.unfaulted t
  let bad := Mask.ofPred (fun l => u.has l &&
    (decide (40 < retLocals (s.retWords l).2) || decide ((s.lane l).fb < 10 + retLocals (s.retWords l).2)))
  let odd := Mask.ofPred (fun l => u.has l && (s.retWords l).1.toNat % 4 != 0)
  if bad ≠ 0 then .trap .illegal t s
  else if odd ≠ 0 then .trap .misalign t s
  else s.reach t (u.lanes.map (fun l => retAddr (s.retWords l)))
    (s.withDemands (s.retDemands u) (fun s1 => s1.retLanes (s1.active g)))

/-- RET (R17, R114); at a handler's entry depth it is DOUBLE (R306, R308). -/
def execRet (g : BitVec 4) (s : State) : Host.Outcome State Fault Refusal :=
  s.runN (
    let t := s.active g
    if t = 0 then .next s
    else if s.st.privileged && s.st.dep == s.st.trap.hdep then .moved (s.doubleIn Cause.illegal.code.toNat s.instrPc)
    else if s.st.dep = 0 then s.endAt t
    else s.awaitDemands (s.linkDemands t) (fun s0 => s0.retChecked g t))

/-- FRAME (R14). -/
def execFrame (n : BitVec 3) (s : State) : Host.Outcome State Fault Refusal :=
  s.run (if 6 ≤ n.toNat then .trap .illegal s.st.exm s
    else .next (s.mapLanes s.st.exm (fun _ x => { x with locals := 8 * n.toNat })))

/-- EXIT (R116). -/
def execExit (g : BitVec 4) (s : State) : Host.Outcome State Fault Refusal := s.run (s.endAt (s.active g))

/-- SBRA (R117): a target outside the segment traps whatever the guard (R110). -/
def execSbra (g : BitVec 4) (o : BitVec 21) (s : State) : Host.Outcome State Fault Refusal :=
  s.run (if s.leaves (s.target o) then .trap .segEdge s.st.exm s
    else if s.uniGuard g then .moved (s.goto (s.target o)) else .next s)

/-- JSEG (R117). -/
def execJseg (g : BitVec 4) (o : BitVec 21) (s : State) : Host.Outcome State Fault Refusal :=
  s.run (if !s.lastWord then .trap .illegal s.st.exm s
    else if !s.uniGuard g then .next s
    else s.reach s.st.exm [s.target o] (.moved (s.goto (s.target o))))

/-- JSEGR (R117). -/
def execJsegr (g : BitVec 4) (a : BitVec 6) (s : State) : Host.Outcome State Fault Refusal :=
  s.run (if !s.lastWord || !isPair a.toNat then .trap .illegal s.st.exm s
    else if !s.uniGuard g then .next s
    else if (s.sregPair a.toNat).toNat % 4 ≠ 0 then .trap .misalign s.st.exm s
    else s.reach s.st.exm [(s.sregPair a.toNat).setWidth 57] (.moved (s.goto ((s.sregPair a.toNat).setWidth 57))))

/-- TRAP (R118). -/
def execTrap (g : BitVec 4) (_n : BitVec 8) (s : State) : Host.Outcome State Fault Refusal :=
  s.run (if s.active g = 0 then .next s else .trap .trapi (s.active g) s)

/-- BKPT (R118). -/
def execBkpt (g : BitVec 4) (_c : BitVec 15) (s : State) : Host.Outcome State Fault Refusal :=
  s.run (if s.active g = 0 then .next s else .trap .bkpt (s.active g) s)

/-- Whether a BAR or BARINIT has a barrier to act on: a wave has none, and a number at or above nb traps PROT (R135, R250). -/
def State.barCheck (s : State) (n : Nat) (f : Verdict) : Verdict :=
  match s.st.kind with
  | .wave _ => .trap .illegal s.st.exm s
  | _ => if s.un.nb ≤ n then .trap .prot s.st.exm s else f

/-- R150 arrive: k lanes arrive, the phase before the arrival is recorded, completion is evaluated. The arrival releases at unit scope (R151): held REDs go first (R196). An arrival that carries ARRIVED past 65,535 wraps in its 16-bit field before completion is judged (log entry 71). -/
def State.arriveAt (s : State) (n k : Nat) : State :=
  let ph := (s.barrier n).phase
  ((s.flushHeld s.st.sid).modSt (fun x =>
    { x with arrivals := if ph then x.arrivals ||| ((1#128) <<< n) else x.arrivals &&& ~~~ ((1#128) <<< n) })).modBarrier n
      (fun b => { b with arrived := BitVec.ofNat 16 (b.arrived.toNat + k) })

/-- R149: whether a wait on barrier n ends. -/
def State.phasePassed (s : State) (n : Nat) : Bool := (s.barrier n).phase != s.st.arrivals.getLsbD n

/-- Whether a store or an atomic in the issuing stream's program order has still to perform (R187). -/
def State.owing (s : State) : Bool :=
  s.stores.any (fun x => s.st.owns x.sid x.id) || s.atomics.any (fun x => s.st.owns x.sid x.id)

/-- The release part of an operation: held REDs are flushed, and it waits until the stream's stores and atomics have performed (R192, R196, R214). -/
def State.released (s : State) (f : State → Verdict) : Verdict :=
  let s1 := s.flushHeld s.st.sid
  if s1.owing then .hold s1 else f s1

/-- BSYNC (R150, R152): the arrival retires, then the path waits; leaving the wait is an acquire at unit scope (R151). -/
def execBsync (g : BitVec 4) (n : BitVec 7) (s : State) : Host.Outcome State Fault Refusal :=
  s.runN (s.barCheck n.toNat (
    if s.active g = 0 then .next s
    else s.released (fun s1 =>
      let s2 := s1.arriveAt n.toNat (s1.active g).size
      if s2.phasePassed n.toNat then .next (s2.acquire 1)
      else .next (s2.modSt (fun x => { x with status := .waitBarrier n.toNat })))))

/-- BARV (R150). -/
def execBarv (g : BitVec 4) (n : BitVec 7) (s : State) : Host.Outcome State Fault Refusal :=
  s.runN (s.barCheck n.toNat (
    if s.active g = 0 then .next s else s.released (fun s1 => .next (s1.arriveAt n.toNat (s1.active g).size))))

/-- BWAIT (R150): it waits for the next completion alone (R136, R149), and leaving it is an acquire at unit scope, before which held REDs go (R151, R196). -/
def execBwait (g : BitVec 4) (n : BitVec 7) (s : State) : Host.Outcome State Fault Refusal :=
  s.run (s.barCheck n.toNat (
    if s.active g = 0 then .next s
    else if s.st.woken || s.phasePassed n.toNat then .next ((s.flushHeld s.st.sid).acquire 1)
    else .hold (s.modSt (fun x => { x with status := .waitBarrier n.toNat, bwait := true }))))

/-- BARINIT (R153). -/
def execBarinit (g : BitVec 4) (n : BitVec 7) (u : BitVec 1) (b : BitVec 6) (s : State) : Host.Outcome State Fault Refusal :=
  s.run (match s.st.kind with
    | .wave _ => .trap .illegal s.st.exm s
    | _ =>
      if !s.uniGuard g then .next s
      else if s.un.nb ≤ n.toNat then .trap .prot s.st.exm s
      else .next (s.modBarrier n.toNat (fun w => { w with expected := (s.sreg b.toNat).setWidth 16, auto := u == 1 })))

/-- The check of R321 for a privileged word that is legal only in the streams for which ok holds: PRIV in a stream that is not privileged, ILLEGAL in a method (R250), whatever the guard, then ILLEGAL. -/
def State.privileged (s : State) (ok : Bool) (f : Verdict) : Verdict :=
  if !s.st.isPriv then .trap (if s.isWave then .illegal else .priv) s.st.exm s
  else if !ok then .trap .illegal s.st.exm s
  else f

/-- RFT (R307, R322). -/
def execRft (g : BitVec 4) (s : State) : Host.Outcome State Fault Refusal :=
  s.run (s.privileged s.st.privileged (
    if !s.uniGuard g then .next s
    else s.released (fun s1 =>
      let t := s1.st.trap
      if s1.st.pathd ≠ t.hpathd ∨ s1.st.dep ≠ t.hdep then .moved (s1.doubleIn Cause.illegal.code.toNat s1.instrPc)
      else if t.pc.toNat % 4 ≠ 0 then .moved (s1.doubleIn Cause.misalign.code.toNat s1.instrPc)
      else
        match s1.leaveRefill (t.mask &&& s1.gr.alive).lanes with
        | .error f => s1.onStreamFault f
        | .ok s2 =>
          match s2.leaveHandler with
          | .error f => s2.onStreamFault f
          | .ok s3 => .moved s3)))

/-- TKILL (R307, R322): the lanes of the handler path end, and the path ends. -/
def execTkill (g : BitVec 4) (s : State) : Host.Outcome State Fault Refusal :=
  s.run (s.privileged s.st.privileged (
    if !s.uniGuard g then .next s
    else s.released (fun s1 =>
      match s1.st.kind with
      | .pair => .moved (s1.stopPair s1.gr.die).dropBareGroup
      | _ => .moved ((s1.endLanes s1.st.exm).pathEnd))))

/-- TEND (R307, R322). -/
def execTend (g : BitVec 4) (s : State) : Host.Outcome State Fault Refusal :=
  s.run (s.privileged s.st.privileged (
    if !s.uniGuard g then .next s
    else s.released (fun s1 =>
      match s1.st.kind with
      | .pair => .moved (s1.stopPair s1.gr.die).dropBareGroup
      | _ => .moved ((s1.launchStatus s1.un.launch 1 0).killGroup))))

end Sys2Proof.Machine
end

