-- ==== Sys2Proof/Machine/Loads.lean ====
section
/-!
DEFINITION. LD, ST, LDS, STS, ATOM, RED, SATOM, SLD, SST (R205 to R211), TBSET (R212), FENCE (R214), and the events LOAD_SECTOR_RETURN, STORE_PERFORM, ATOMIC_PERFORM and QUANTUM_RED_FLUSH (R191, R196, R203, R209).
-/
namespace Sys2Proof.Machine

/-- The tile-cache class that a load's MOD sets (R168, R205). -/
def loadClass (m : BitVec 3) : Nat := if m = 2 then 1 else if m = 3 then 3 else 0

/-- The tile-cache class that a store's MOD sets (R206). -/
def storeClass (m : BitVec 3) : Nat := if m = 2 then 1 else if m = 3 then 3 else if m = 4 then 7 else 0

/-- Whether a load's MOD reads the L1 and allocates there (R164, R205). -/
def loadL1 (m : BitVec 3) : Bool := !(m = 1 || m = 2 || m = 4)

/-- Whether a size code sign-extends (R205). -/
def signedSize (z : BitVec 3) : Bool := z = 5 || z = 6

/-- The acquire part of a load, if it is one: it flushes held REDs and invalidates the L1, whoever served it (R165, R192, R196). -/
def State.acquiredIf (s : State) (b : Bool) (scope : Nat) : State := if b then (s.flushHeld s.st.sid).acquire scope else s

/-- The accesses of a load sent to their homes: one request for each sector; the flag clears with the last (R203). Sectors that the L1 serves do not reach the tile cache (R164). DESIGN CHOICE, log entry 66: each sector's request counts one read of a keep line, where R168 speaks of a load. -/
def State.sendLoad (s : State) (scalar : Bool) (reads : List LoadLane) (m : BitVec 3) (tag : BitVec 12) : State :=
  let secs := sectorsOf (reads.map (·.loc))
  let s0 := (reads.foldl (fun t r => t.flushAt [r.loc] r.size) s)
  let s1 := s0.acquiredIf (m = 1) s.scope
  match secs.reverse with
  | [] => s1
  | last :: _ =>
    let f := s.setA
    let recs : List LoadSector := secs.map (fun sec =>
      { id := s1.nextId, scalar := scalar, sector := sec, reads := reads.filter (fun r => decide (r.loc.sector = sec)), useL1 := loadL1 m,
        flag := if sec = last then f else none, sample := none })
    let s2 := ({ s1.flagAdd f with nextId := s1.nextId + 1 } : State).modSt (fun x => { x with loads := x.loads ++ recs })
    let served : State → Loc → Bool := fun t sec => loadL1 m && !t.isSync sec && (t.l1Hit t.gr.coreId t.gr.ctx sec).isSome
    secs.foldl (fun t sec => (if served t sec then t else t.touchLine t.gr.ctx 0 sec true (loadClass m) tag).post (.loadSectorReturn s.st.sid)) s2

/-- The value of n bytes at a VA as a method sees it: the committed state overlaid by the batch's own stores (R250). -/
def State.overlaid (s : State) (va : Nat) (l : Loc) (n : Nat) : Nat :=
  let buf := (s.st.wave.map (·.buf)).getD []
  gatherLE (fun i => match buf.find? (fun c => c.1 == va + i) with
    | some c => c.2
    | none => s.byteAt (l.plus i)) n

/-- What a method reads: free bytes where a read is undefined (R157, R226), else what it sees. -/
def State.methodRead (s : State) (va : Nat) (l : Loc) (n : Nat) : Nat := if s.undefAt va l n then s.freeValue n else s.overlaid va l n

/-- The free bytes that such a read takes. -/
def State.undefBytes (s : State) (va : Nat) (l : Loc) (n : Nat) : Nat := if s.undefAt va l n then n else 0

/-- Whether n bytes at a VA lie in the state of the wave's object (R250). -/
def State.inObject (s : State) (va n : Nat) : Bool :=
  match s.st.wave with
  | some w => decide (w.stateVa ≤ va) && decide (va + n ≤ w.stateVa + w.stateSize)
  | none => false

/-- n bytes of a value buffered by a batch (R250). -/
def State.bufferStore (s : State) (va v n : Nat) : State :=
  s.modSt (fun x => { x with wave := x.wave.map (fun w =>
    { w with buf := w.buf.filter (fun c => !(decide (va ≤ c.1) && decide (c.1 < va + n))) ++
        (List.range n).map (fun i => (va + i, byteOf v i)) }) })

/-- The lane of an access that is served last: one of the lanes that perform here, else that whose peer has answered last (R378). -/
def State.lastServed (s : State) (ls : List Nat) : Nat :=
  match ls.getLast? with
  | some l => l
  | none => ((s.st.peer.filter (fun p => decide (p.lane < 64))).getLast?.map (·.lane)).getD 0

/-- LD (R205). -/
def execLd (g : BitVec 4) (t a : BitVec 6) (b z m : BitVec 3) (s : State) : Host.Outcome State Fault Refusal :=
  s.run (
    let p := s.active g
    let n := sizeOf z
    let dest : State → Nat → List (Option Nat) := fun u l => u.laneWords l t.toNat (regsOf z)
    s.globalChecked p (sizeBase z t) (accessFields t.toNat a.toNat (regsOf z)) b.toNat a n false (
      let s0 := s.freshTb b.toNat
      let ls := s0.laneVas p b.toNat a n needR
      s0.located ls n needR (fun _ => .read n) (fun s1 ok peers =>
        let s2 := peers.foldl (fun u x => u.landLane u.gr.gid x.1 ((dest s1 x.1).zip (loadWords n (signedSize z) x.2.toNat))) s1
        if s.isWave then
          .next (ok.foldl (fun u x => (u.landLane u.gr.gid x.1
            ((dest s1 x.1).zip (loadWords n (signedSize z) (u.methodRead x.2.1 x.2.2 n)))).useFree (u.undefBytes x.2.1 x.2.2 n)) s2)
        else
          let reads : List LoadLane := ok.map (fun x =>
            { lane := x.1, loc := x.2.2, size := n, signed := signedSize z, undef := s1.undefAt x.2.1 x.2.2 n, words := dest s1 x.1 })
          let secs := (sectorsOf (reads.map (·.loc))).length
          s2.requesting secs (fun s3 =>
            .next ((s3.sendLoad false reads m s.modx).sample s3.nextId secs (ok.length + peers.length)
              (s3.lastServed (reads.map (·.lane))) 0)))))

/-- Whether a store or an atomic that stands before operation op in a stream's program order has still to perform in a sector (R21, R187). -/
def State.olderOwn (s : State) (x : Stream) (op : Nat) (sector : Loc) : Bool :=
  s.stores.any (fun p => decide (p.id < op) && x.owns p.sid p.id && p.writes.any (fun w => w.1.meets 1 sector 32)) ||
    s.atomics.any (fun p => decide (p.id < op) && x.owns p.sid p.id && p.ops.any (fun o => o.loc.meets o.size sector 32))

/-- LOAD_SECTOR_RETURN: the first outstanding sector of a stream returns, after the older writes there of its own program order (R21, R203, R205). -/
def execLoadSectorReturn (sid : Nat) (s : State) : Host.Outcome State Fault Refusal :=
  .next (
    match s.stream? sid with
    | none => s
    | some x =>
      match x.loads with
      | [] => s
      | r :: rest =>
        if s.olderOwn x r.id r.sector then s.post (.loadSectorReturn sid) else
        let g := (s.allGroups.find? (fun y => y.gid == x.gid)).getD Group.none
        let take : State → LoadLane → State := fun u q =>
          let v := if q.undef then u.freeValue q.size else u.loadBytes g.coreId g.ctx r.useL1 q.loc q.size
          let ws := q.words.zip (loadWords q.size q.signed v)
          let u1 := if r.scalar then u.landScalar sid ws else u.landLane g.gid q.lane ws
          if q.undef then u1.useFree q.size else u1
        let s1 := (r.reads.foldl take s).noteLoad g.coreId g.ctx r.useL1 r.sector
        ((s1.modStream sid (fun y => { y with loads := rest })).flagDone sid r.id r.flag).sampleLane r.sample ((r.reads.getLast?.map (·.lane)).getD 0))

/-- The bytes that lanes store: free ones where the spec leaves what was stored undefined (R157). -/
def State.storeBytes (s : State) (va : Nat) (l : Loc) (v n : Nat) : List (Loc × Byte) :=
  let w := if !s.st.physical && s.inArea s.gr.ctx va then s.freeValue n else v
  (List.range n).map (fun i => (l.plus i, byteOf w i))

/-- A store sent to its home, of lanes of which lane is the highest; the core's L1 sectors that it hits are updated (R164, R191, R206). -/
def State.sendStore (s : State) (ws : List (Loc × Byte)) (lane : Nat) (m : BitVec 3) (tag : BitVec 12) : State :=
  if ws.isEmpty then s
  else
    let s0 := (ws.foldl (fun t w => t.flushAt [w.1] 1) s)
    let s1 := ws.foldl (fun t w => t.noteStore t.gr.coreId w.1 w.2) s0
    let s2 := (sectorsOf (ws.map (·.1))).foldl (fun t sec => t.touchLine t.gr.ctx 0 sec false (storeClass m) tag) s1
    let p : PendStore := { id := s2.nextId, sid := s.st.sid, gid := s.gr.gid, writes := ws, flag := s.setA, sample := none, lane := lane }
    (({ s2 with stores := s2.stores ++ [p], nextId := s2.nextId + 1 } : State).flagAdd s.setA).post (.storePerform p.id)

/-- The order part of a release, if the instruction is one (R192). -/
def State.releasedIf (s : State) (b : Bool) (f : State → Verdict) : Verdict := if b then s.released f else f s

/-- ST (R206); a method may store to its object's state alone (R250). -/
def execSt (g : BitVec 4) (t a : BitVec 6) (b z m : BitVec 3) (s : State) : Host.Outcome State Fault Refusal :=
  s.run (
    let p := s.active g
    let n := sizeOf z
    let v : State → Nat → Nat := fun u l => u.regsValue l t.toNat (regsOf z) % 2 ^ (8 * n)
    let inside : Nat → Bool := fun l => s.offsetOk b.toNat (s.laneOff a l) n &&
      (!s.isWave || s.inObject ((s.tbReg b.toNat).va + (s.laneOff a l).toNat) n)
    s.checked p (sizeBase z t) (accessFields t.toNat a.toNat (regsOf z)) (fun l => s.vaWord b.toNat (s.laneOff a l)) true inside
      (fun l => decide (((s.tbReg b.toNat).va + (s.laneOff a l).toNat) % n = 0)) (
      s.releasedIf (m = 1) (fun r =>
        let s0 := r.freshTb b.toNat
        let ls := s0.laneVas p b.toNat a n needW
        s0.located ls n needW (fun l => .write n (BitVec.ofNat 128 (v s l))) (fun s1 ok peers =>
          if s.isWave then .next (ok.foldl (fun u x => u.bufferStore x.2.1 (v s1 x.1) n) s1)
          else
            let ws := ok.zipIdx.flatMap (fun y => (s1.useFree (n * y.2)).storeBytes y.1.2.1 y.1.2.2 (v s1 y.1.1) n)
            let secs := (sectorsOf (ws.map (·.1))).length
            s1.requesting secs (fun s2 =>
              .next (((s2.sendStore ws ((ok.getLast?).map (·.1) |>.getD 0) m s.modx).sample s2.nextId secs (ok.length + peers.length)
                (s2.lastServed (ok.map (·.1))) 0).useFree (if ok.any (fun x => s1.inArea s1.gr.ctx x.2.1) then n * ok.length else 0)))))))

/-- GROUP_END is due again once something that it waits for has completed (R116). -/
def State.recheckEnd (s : State) (gid : Nat) : State :=
  match s.group? gid with
  | some g => if g.alive = 0 ∧ g.uid ≠ 0 then s.post (.groupEnd gid) else s
  | none => s

/-- The streams that wait for the operations in their program order look again once one of those has performed. -/
def State.wakeOrder (s : State) (sid op : Nat) : State := s.wake (fun x => x.owns sid op && decide (x.status = .waitOrder))

/-- A store performs at its home (R191). -/
def State.storePerformed (s : State) (id : Nat) : State :=
  match s.stores.find? (fun x => x.id == id) with
  | none => s
  | some p =>
    let s1 := p.writes.foldl (fun t w => t.putByte w.1 w.2) { s with stores := s.stores.filter (fun x => x.id != id) }
    (((s1.flagDone p.sid p.id p.flag).wakeOrder p.sid p.id).recheckEnd p.gid).sampleLane p.sample p.lane

/-- STORE_PERFORM (R191). -/
def execStorePerform (id : Nat) (s : State) : Host.Outcome State Fault Refusal := .next (s.storePerformed id)

/-- What a read of a window gives: free bytes where an engine is still writing (R207, R226). -/
def State.scratchRead (s : State) (k o n : Nat) : Nat :=
  if s.unsettledLoc (s.scratchLoc k o) n then s.freeValue n else s.scratchGet k o n

/-- The bank conflicts of a scratchpad access (R163). -/
def State.bankConflicts (s : State) (p : Mask) (a : BitVec 6) (n : Nat) : Nat :=
  bankExtra (p.lanes.flatMap (fun l => (List.range ((n + 3) / 4)).map (fun i => (s.laneOff a l).toNat / 4 + i)))

/-- LDS (R207); a scope wider than unit acts as unit (R188). -/
def execLds (g : BitVec 4) (t a : BitVec 6) (z m : BitVec 3) (s : State) : Host.Outcome State Fault Refusal :=
  s.run (
    let p := s.active g
    let n := sizeOf z
    s.scratchChecked p (sizeBase z t) (accessFields t.toNat a.toNat (regsOf z)) a n false (
      let one : State → Nat → State := fun u l =>
        match s.scratchAt (s.laneOff a l) n with
        | none => u
        | some (k, o) =>
          (u.landLane u.gr.gid l ((s.laneWords l t.toNat (regsOf z)).zip (loadWords n (signedSize z) (u.scratchRead k o n)))).useFree
            (if u.unsettledLoc (u.scratchLoc k o) n then n else 0)
      let s1 := p.lanes.foldl one s
      .next ((s1.acquiredIf (m = 1) (min s.scope 1)).sample s.nextId p.size p.size (p.lanes.getLast?.getD 0) (s.bankConflicts p a n))))

/-- STS (R207). -/
def execSts (g : BitVec 4) (t a : BitVec 6) (z m : BitVec 3) (s : State) : Host.Outcome State Fault Refusal :=
  s.run (
    let p := s.active g
    let n := sizeOf z
    s.scratchChecked p (sizeBase z t) (accessFields t.toNat a.toNat (regsOf z)) a n true (
      s.releasedIf (m = 1) (fun s1 =>
        let one : State → Nat → State := fun u l =>
          match s1.scratchAt (s1.laneOff a l) n with
          | none => u
          | some (k, o) => u.scratchPut k o (s1.regsValue l t.toNat (regsOf z) % 2 ^ (8 * n)) n
        .next ((p.lanes.foldl one s1).sample s.nextId p.size p.size (p.lanes.getLast?.getD 0) (s.bankConflicts p a n)))))

/-- R208: the combinations of OPA, USE and prefix that are legal. -/
def State.atomLegal (s : State) (red sat : Bool) (t : BitVec 6) (o u : BitVec 3) : Bool :=
  !s.isWave && !(red && decide (6 ≤ o.toNat)) && !(sat && (u = 3 || u = 4 || u = 5)) &&
    !(!sat && u = 5 && (!(o = 0 || o = 5) || s.extFlt)) && !(s.extFlt && s.wide && decide (o.toNat ≤ 2)) &&
    (if s.wide then isPair t.toNat && (o != 7 || decide (t.toNat % 4 = 0)) else o != 7 || decide (t.toNat % 2 = 0))

/-- The bytes and the registers of an atomic: 4 or 8, and for CAS the new value after the compare value (R208, R209). -/
def State.atomSize (s : State) : Nat := if s.wide then 8 else 4
def State.atomRegs (s : State) (o : BitVec 3) : Nat := (if s.wide then 2 else 1) * (if o = 7 then 2 else 1)

/-- Whether the page of a VA may migrate: a 4 KiB page whose entry does not forbid it (R171). -/
def State.movable (s : State) (ctx va : Nat) : Bool :=
  match s.walkVa ctx va with
  | .page _ size _ host noMig _ => decide (size = 4096) && !host && !noMig
  | _ => false

/-- A lane's atomic at a location (R209); FLT counts only with ADD, MIN and MAX (R208). -/
def State.atomLane (s : State) (t : BitVec 6) (o : BitVec 3) (ret : Bool) (l : Nat) (loc : Loc) : AtomLane :=
  let k := if s.wide then 2 else 1
  { lane := l, loc := loc, size := s.atomSize, opa := o, v := BitVec.ofNat 64 (s.regsValue l t.toNat k),
    nv := if o = 7 then BitVec.ofNat 64 (s.regsValue l (t.toNat + k) k) else 0, sgn := s.extSgn,
    flt := s.extFlt && decide (o.toNat ≤ 2), words := if ret then s.laneWords l t.toNat k else [], movable := false }

/-- Atomics sent to their homes (R166, R209); one that is an acquire acts so whoever serves its lanes (R192, R210). -/
def State.sendAtomic (s : State) (ops : List AtomLane) (acq : Bool) : State :=
  let s0 := ops.foldl (fun t a => t.flushAt [a.loc] a.size) s
  let s1 := s0.acquiredIf acq s.scope
  if ops.isEmpty then s1
  else
    let s2 := ops.foldl (fun t a => t.noteAtomic t.gr.coreId a.loc) s1
    let p : PendAtomic := { id := s2.nextId, sid := s.st.sid, gid := s.gr.gid, core := s.gr.coreId, ops := ops,
                            flags := s.setA.toList, sample := none }
    (({ s2 with atomics := s2.atomics ++ [p], nextId := s2.nextId + 1 } : State).flagAdd s.setA).post (.atomicPerform p.id)

/-- ATOM and RED (R208 to R210). ret: whether the old value lands. -/
def State.atomic (s : State) (g : BitVec 4) (t a : BitVec 6) (b o u : BitVec 3) (red : Bool) : Verdict :=
  let p := s.active g
  let n := s.atomSize
  s.globalChecked p (s.atomLegal red false t o u) (accessFields t.toNat a.toNat (s.atomRegs o)) b.toNat a n true (
    s.releasedIf (u = 7) (fun r =>
      let s0 := r.freshTb b.toNat
      let ls := s0.laneVas p b.toNat a n needRW
      let ask : Nat → PeerOp := fun l =>
        let x := s.atomLane t o (!red) l (.dev 0)
        .atomic n o x.sgn x.flt x.v x.nv
      s0.located ls n needRW ask (fun s1 ok peers =>
        let s2 := peers.foldl (fun v x => if red then v else
          v.landLane v.gr.gid x.1 ((s1.laneWords x.1 t.toNat (n / 4)).zip (loadWords n false x.2.toNat))) s1
        let ops := ok.map (fun x => { s1.atomLane t o (!red) x.1 x.2.2 with movable := !s.st.physical && s1.movable s1.gr.ctx x.2.1, undef := s1.undefAt x.2.1 x.2.2 n })
        let secs := (sectorsOf (ops.map (·.loc))).length
        let fin : Nat → State → State := fun k v => v.sample k secs (ok.length + peers.length) (v.lastServed (ok.map (·.1))) 0
        if red && u = 4 then
          let t := ops.foldl State.holdRed s2
          if ops.isEmpty then .next (fin t.nextId s2)
          else .next (fin t.nextId ((t.flagAdd s.setA).modSt (fun x => { x with heldFlags := x.heldFlags ++ s.setA.toList })))
        else s2.requesting secs (fun s3 => .next (fin s3.nextId (s3.sendAtomic ops (u = 6)))))))

/-- ATOM (R209, R210). -/
def execAtom (g : BitVec 4) (t a : BitVec 6) (b o u : BitVec 3) (s : State) : Host.Outcome State Fault Refusal :=
  s.runN (s.atomic g t a b o u false)

/-- RED (R209, R210); R310 names OPA 0 and 5. -/
def execRed (g : BitVec 4) (t a : BitVec 6) (b o u : BitVec 3) (s : State) : Host.Outcome State Fault Refusal :=
  if o = 0 ∨ o = 5 then s.runN (s.atomic g t a b o u true) else s.run (s.atomic g t a b o u true)

/-- The lanes of an atomic perform one after the other, in ascending order (R189, R209; log entry 13). -/
def State.atomicPerformed (s : State) (id : Nat) : State :=
  match s.atomics.find? (fun x => x.id == id) with
  | none => s
  | some p =>
    let s1 := p.ops.foldl (fun t a => t.performLane p.gid p.core a) { s with atomics := s.atomics.filter (fun x => x.id != id) }
    p.more.foldl (fun t m => t.sampleLane (some m.1) m.2)
      ((((p.flags.foldl (fun t f => t.flagDone p.sid p.id (some f)) s1).wakeOrder p.sid p.id).recheckEnd p.gid).sampleLane p.sample
        ((p.ops.getLast?.map (·.lane)).getD 0))

/-- ATOMIC_PERFORM (R209). -/
def execAtomicPerform (id : Nat) (s : State) : Host.Outcome State Fault Refusal := .next (s.atomicPerformed id)

/-- Every store and atomic on its way performs, in the order in which they were sent (R171, R191). -/
def State.performAll (s : State) : State :=
  let ids := (s.stores.map (fun x => (x.id, true)) ++ s.atomics.map (fun x => (x.id, false))).mergeSort (fun a b => decide (a.1 ≤ b.1))
  ids.foldl (fun t x => if x.2 then t.storePerformed x.1 else t.atomicPerformed x.1) s

/-- QUANTUM_RED_FLUSH (R196). -/
def execQuantumRedFlush (sid : Nat) (s : State) : Host.Outcome State Fault Refusal := .next (s.flushHeld sid)

/-- SATOM (R209, R210): the lanes perform at the window, in ascending order. -/
def execSatom (g : BitVec 4) (t a : BitVec 6) (o u : BitVec 3) (s : State) : Host.Outcome State Fault Refusal :=
  s.runN (
    let p := s.active g
    let n := s.atomSize
    s.scratchChecked p (s.atomLegal false true t o u) (accessFields t.toNat a.toNat (s.atomRegs o)) a n true (
      s.releasedIf (u = 7) (fun s1 =>
        let one : State → Nat → State := fun v l =>
          match s1.scratchAt (s1.laneOff a l) n with
          | none => v
          | some (k, off) =>
            let x := s1.atomLane t o true l (.dev 0)
            let old : Pair := BitVec.ofNat 64 (v.scratchRead k off n)
            ((v.scratchPut k off (atomNew o n x.sgn x.flt old x.v x.nv).toNat n).landLane v.gr.gid l
              (x.words.zip (loadWords (if n = 8 then 8 else 4) false old.toNat))).useFree
                (if v.unsettledLoc (v.scratchLoc k off) n then n else 0)
        let s2 := p.lanes.foldl one s1
        .next ((s2.acquiredIf (u = 6) (min s.scope 1)).sample s.nextId p.size p.size (p.lanes.getLast?.getD 0) (s.bankConflicts p a n)))))

/-- The one access of SLD and SST (R211): its checks, its translation, and f where it performs; a peer serves h. -/
def State.scalarAccess (s : State) (a : BitVec 6) (b z : BitVec 3) (need : BitVec 3) (op : PeerOp)
    (f : State → Nat → Loc → Verdict) (h : State → BitVec 128 → Verdict) : Verdict :=
  let n := sizeOf z
  let off : Int := (s.sreg a.toNat).toNat + s.disp
  let va := (s.tbReg b.toNat).va + off.toNat
  if !s.offsetOk b.toNat off n || (need.getLsbD 1 && s.isWave && !s.inObject va n) then
    .trapRec .prot s.st.exm (checkRecord (fun _ => s.vaWord b.toNat off) (need.getLsbD 1) .prot s.st.exm) s
  else if va % n ≠ 0 then
    .trapRec .misalign s.st.exm (checkRecord (fun _ => s.vaWord b.toNat off) (need.getLsbD 1) .misalign s.st.exm) s
  else
    let s0 := s.freshTb b.toNat
    let x : LaneVa := { lane := s.st.exm.lowest, va := va,
                        direct := s.st.physical || decide (off.toNat + n ≤ (s0.tbReg b.toNat).limit),
                        trans := (s0.transTb b.toNat off.toNat n need).struck s0 true n }
    if missing [x] ≠ [] then
      s0.walkMisses (missing [x]) need
    else
      let far := farLanes [x]
      if far ≠ [] ∧ !s0.peerAsked x.lane true then s0.askPeers far (need.getLsbD 1) true (fun _ => op)
      else if far ≠ [] ∧ s0.st.peer.any (fun p => p.answer.isNone) then .hold (s0.modSt (fun y => { y with status := .waitPeer }))
      else
        match s0.laneFault (need.getLsbD 1) x with
        | some fault => (s0.dropAnswers.modSt (fun y => { y with peer := [] })).onStreamFault fault
        | none =>
          let s1 := s0.dropAnswers.noteMisses [x]
          match okLanes [x], s0.peerData [x] with
          | (_, va, l) :: _, _ => f s1 va l
          | [], (_, v) :: _ => h s1 v
          | [], [] => .next s1

/-- SLD (R211). -/
def execSld (g : BitVec 4) (t a : BitVec 6) (b z m : BitVec 3) (s : State) : Host.Outcome State Fault Refusal :=
  s.run (
    let n := sizeOf z
    let dest := scalarWords t.toNat (regsOf z)
    if !sizeBase z t then .trap .illegal s.st.exm s
    else if !s.uniGuard g then .next (s.sample s.nextId 0 0 0 0)
    else s.scalarAccess a b z needR (.read n)
      (fun s1 va l =>
        if s.isWave then .next (s1.landScalar s.st.sid (dest.zip (loadWords n (signedSize z) (s1.methodRead va l n))) |>.useFree (s1.undefBytes va l n))
        else s1.requesting 1 (fun s2 => .next ((s2.sendLoad true
          [{ lane := 0, loc := l, size := n, signed := signedSize z, undef := s1.undefAt va l n, words := dest }] m 0).sample s2.nextId 1 1 0 0)))
      (fun s1 v => .next (((s1.landScalar s.st.sid (dest.zip (loadWords n (signedSize z) v.toNat))).acquiredIf (m = 1) s.scope).sample s1.nextId 0 1 0 0)))

/-- SST (R211). -/
def execSst (g : BitVec 4) (t a : BitVec 6) (b z m : BitVec 3) (s : State) : Host.Outcome State Fault Refusal :=
  s.run (
    let n := sizeOf z
    let v := s.sregsValue t.toNat (regsOf z) % 2 ^ (8 * n)
    if !sizeBase z t then .trap .illegal s.st.exm s
    else if !s.uniGuard g then .next (s.sample s.nextId 0 0 0 0)
    else s.releasedIf (m = 1) (fun r => r.scalarAccess a b z needW (.write n (BitVec.ofNat 128 v))
      (fun s1 va l =>
        if s.isWave then .next (s1.bufferStore va v n)
        else s1.requesting 1 (fun s2 =>
          .next (((s2.sendStore (s1.storeBytes va l v n) 0 m 0).sample s2.nextId 1 1 0 0).useFree (if s1.inArea s1.gr.ctx va then n else 0))))
      (fun s1 _ => .next (s1.sample s1.nextId 0 1 0 0))))

/-- TBSET (R172, R212); it never faults: a first page that has a walk to wait for is put into the walk queue, and the next access binds (R175); at the limit of R181 it waits. -/
def execTbset (g : BitVec 4) (n : BitVec 3) (a b : BitVec 6) (s : State) : Host.Outcome State Fault Refusal :=
  s.run (
    let at_ : State → Nat := fun u => (u.sregPair a.toNat).toNat % 2 ^ 57
    let len : State → Nat := fun u => if (u.sreg b.toNat) = 0 then 2 ^ 32 else (u.sreg b.toNat).toNat
    let bind : State → State := fun u => u.modSt (fun x => { x with tb := x.tb.set n.toNat (u.tbBinding (at_ u) (len u)) })
    if s.uniGuard g && isPair a.toNat && s.unwalked (at_ s) then
      s.requesting 1 (fun u => .next (((bind u).queueWalk u.gr.coreId u.gr.ctx (at_ u) needR false).countCore u.gr.coreId 6 1))
    else s.once g (isPair a.toNat) bind)

/-- The copies in the issuing agent's program order that a FENCE with ASYNC waits for (R187, R194). -/
def State.ownCopies (s : State) : List Cmd :=
  s.cmds.filter (fun c => s.st.owns c.sid c.id && (match c.kind with
    | .copy _ => true
    | _ => false))

/-- FENCE (R192, R194, R196, R214): with ASYNC its agent's copies become older writes of the agent, which its core's L1 does not hide (R164). -/
def execFence (g : BitVec 4) (sc : BitVec 3) (k : BitVec 2) (y : BitVec 1) (s : State) : Host.Outcome State Fault Refusal :=
  s.run (
    if !s.uniGuard g then .next s
    else
      let s0 := s.flushHeld s.st.sid
      s0.releasedIf (k ≠ 0) (fun s1 =>
        if k ≠ 0 ∧ y = 1 ∧ s1.ownCopies.any (fun c => !c.isOver) then .hold (s1.modSt (fun x => { x with status := .waitOrder }))
        else
          let mine := s1.ownCopies.map (·.id)
          let s2 : State := if k ≠ 0 ∧ y = 1 ∧ mine ≠ [] then
              ({ s1 with cmds := s1.cmds.map (fun c => if mine.contains c.id then { c with fenced := true } else c) } : State).dropL1 s1.gr.coreId
            else s1
          .next (if k ≠ 1 then s2.acquire (if sc.toNat < 6 then sc.toNat else 4) else s2)))

end Sys2Proof.Machine
end

