-- ==== Sys2Proof/Machine/Engines.lean ====
section
/-!
DEFINITION. Engine commands (R219), batches (R228, R229), what an engine does at a global address (R227, R354), copies (R220 to R226) and their instructions CP, BFC, BFM, WAITC, WAITM (R266 to R270), and the events COMMAND_ACCEPT, COPY_COMPLETE, COPY_PAGE_FAULT, COPY_RESUME.
-/
namespace Sys2Proof.Machine

/-- The unit of a group. -/
def State.unitOf (s : State) (uid : Nat) : UnitRec := (s.unit? uid).getD UnitRec.none

/-- n scalar registers from a. -/
def State.descr (s : State) (a n : Nat) : List Word := (List.range n).map (fun i => s.sreg (a + i))

/-- A command retires: its snapshot, its sequence number and its batches (R219, R228, R266); the agent's held quantum REDs go, for the command sees its older writes (R196, R226). f adds what its kind holds. -/
def State.issueCmd (s : State) (kind : CmdKind) (regs : List Word) (copy matrix : Bool) (f : Cmd → Cmd) : State :=
  let c : Cmd :=
    { id := s.nextId, seq := s.gr.cmdseq, pc := s.instrPc, gid := s.gr.gid, sid := s.st.sid, core := s.gr.coreId, ctx := s.gr.ctx, kind := kind,
      regs := regs, fmt := s.st.fmt, exm := s.st.exm, flag := s.setB, cbatch := if copy then some (s.gr.cbatch + 1) else none,
      mbatch := if matrix then some (s.gr.mbatch + 1) else none, state := .retired, progress := 0, arg := 0, dests := [],
      rows := [], joint := [], destVa := [], destPa := [], fenced := false, buf := [], peer := none, frag := fragId s.gr s.st.kind, priv := s.st.isPriv }
  (((({ s with cmds := s.cmds ++ [f c], nextId := s.nextId + 1 } : State).modGr (fun g =>
    { g with cmdseq := g.cmdseq + 1 })).flagAdd s.setB).post (.commandAccept s.nextId)).flushHeld s.st.sid

/-- A sequence number written to s[D] (R267). -/
def State.putSeq (s : State) (d : BitVec 6) (before : State) : State := s.setSreg d.toNat before.gr.cmdseq

/-- Whether a command runs on the partition's matrix unit (R236). -/
def Cmd.onMatrixUnit (c : Cmd) : Bool :=
  match c.kind with
  | .mma | .mmag | .accz | .accrd | .accrs => true
  | _ => false

/-- A group's oldest matrix command that has not ended (R236). -/
def State.matrixHead (s : State) (gid : Nat) : Option Cmd :=
  s.cmds.find? (fun c => c.gid == gid && c.onMatrixUnit && !c.isOver)

/-- The matrix unit goes on with a group's oldest command, if that is accepted (R236). -/
def State.kick (s : State) (gid : Nat) : State :=
  match s.matrixHead gid with
  | none => s
  | some c =>
    if c.state ≠ .accepted then s
    else if c.kind = .mmag then s.post (.mmagEntry c.id)
    else s.post (.matrixOperation gid)

/-- Transfers that wait for a segment look again once its fetch has ended, whether or not the segment has come (R242). -/
def State.wakeFetch (s : State) (c : Cmd) : State :=
  if c.kind ≠ .cfetch then s
  else s.wake (fun x => decide (x.status = .waitFetch c.arg) && s.allGroups.any (fun g => g.gid == x.gid && g.coreId == c.core && g.ctx == c.ctx))

/-- Streams that wait for a command that has now ended look again, those in whose program order it stands too (R187, R194), and so does the end of its group (R116, R229). -/
def State.cmdOver (s : State) (c : Cmd) : State :=
  ((s.wake (fun x => (x.gid == c.gid && (match x.status with
      | .waitCopy _ | .waitMatrix _ => true
      | _ => false)) || (x.owns c.sid c.id && decide (x.status = .waitOrder)))).wakeFetch c).kick c.gid |>.recheckEnd c.gid

/-- A command that no batch will cover goes once it has ended. -/
def State.dropLoose (s : State) (c : Cmd) : State :=
  if c.cbatch.isNone && c.mbatch.isNone then { s with cmds := s.cmds.filter (fun x => x.id != c.id) } else s

/-- A command has completed; the matrix part of a CP.MMA is handed on when its copy has (R240). -/
def State.endCmd (s : State) (id : Nat) : State :=
  match s.cmd? id with
  | none => s
  | some c =>
    let s1 := ((s.modCmd id (fun x => { x with state := .done })).dropLoose c).cmdOver c
    match s1.cmds.find? (fun x => x.arg == id && x.kind = .mma && x.state = .waiting && x.seq == c.seq && x.gid == c.gid && x.cbatch.isNone) with
    | some m => if c.kind = .copy 6 then s1.post (.cpMmaHandoff m.id) else s1
    | none => s1

/-- An offset of a unit's scratchpad as a location, if n bytes there lie in the window (R161, R162). -/
def UnitRec.scr (u : UnitRec) (ci o n : Nat) : Option Loc :=
  match u.locate ci o n with
  | .none => .none
  | some (k, off) => (u.cores[k]?).map (fun c => .dev (Config.onChip + c.die * 2 ^ 44 + c.core * 2 ^ 38 + c.base + off))

/-- Whether a copy takes the gather form (R222, R240). -/
def cpGather (fn : Nat) (w7 : Word) : Bool := fn = 3 || (fn = 6 && w7.toNat % 4 = 2)

/-- Whether it takes the 2D form. -/
def cp2d (fn : Nat) (w7 : Word) : Bool := (fn ≤ 2 || fn = 6) && w7.toNat % 4 = 1

/-- Whether each side is global (R222). -/
def cpSrcGlobal (fn : Nat) : Bool := fn != 1
def cpDstGlobal (fn : Nat) : Bool := fn = 1 || fn = 2

/-- The fields of a descriptor (R220). -/
structure CopyShape where
  src : Nat
  dst : Nat
  rb : Nat
  rows : Nat
  sstride : Nat
  dstride : Nat
deriving DecidableEq, Repr

/-- A copy as rows of rb bytes: a linear one is a single row, a gather's rows are its indices (R220, R224). -/
def copyShape (fn : Nat) (w : List Word) : CopyShape :=
  let r : Nat → Word := fun i => w.getD i 0
  let src := if cpSrcGlobal fn then vaPair (r 0) (r 1) else (r 0).toNat
  let dst := if cpDstGlobal fn then vaPair (r 2) (r 3) else (r 2).toNat
  let rb := (r 4).toNat % 2 ^ 16
  if cpGather fn (r 7) then
    { src := src, dst := dst, rb := rb, rows := (r 6).toNat,
      sstride := if (r 4).toNat / 2 ^ 16 = 0 then rb else 16 * ((r 4).toNat / 2 ^ 16), dstride := rb }
  else if cp2d fn (r 7) then
    { src := src, dst := dst, rb := rb, rows := (r 4).toNat / 2 ^ 16, sstride := (r 5).toNat, dstride := (r 6).toNat }
  else { src := src, dst := dst, rb := (r 4).toNat, rows := 1, sstride := 0, dstride := 0 }

/-- The words of 4 bytes that a copy moves. -/
def CopyShape.words (x : CopyShape) : Nat := x.rb / 4 * x.rows

/-- The bytes from the first row's start to the last row's end. -/
def CopyShape.span (x : CopyShape) (stride : Nat) : Nat := if x.rb = 0 ∨ x.rows = 0 then 0 else (x.rows - 1) * stride + x.rb

/-- Check 1 of R223. -/
def State.cpLegal (s : State) (fn : Nat) (w : List Word) : Bool :=
  let r : Nat → Word := fun i => w.getD i 0
  let dims := (r 7).toNat % 4
  let n := (r 2).toNat / 2 ^ 6 % 2 ^ 6
  let c := (r 2).toNat / 2 ^ 18 % 2 ^ 7
  let k := (r 3).toNat % 8
  let core := if s.un.coop then decide (k < s.un.cores.length) else decide (k = 0)
  (fn > 2 || dims ≤ 1) && (fn != 6 || dims ≤ 2) && (!cpGather fn (r 7) || (r 7).toNat / 64 % 4 = 0) &&
    (fn != 4 || (decide (1 ≤ n) && decide (n ≤ 16) && decide (1 ≤ c) && decide (c ≤ 64) && decide ((r 4).toNat = 4 * n * c) && core)) &&
    (fn != 5 || (core && decide ((r 4).toNat = 16384)))

/-- The global pair of a CP.REG or CP.ACC is w0 and w1; the other side is a target (R220). -/
def cpTarget (fn : Nat) : Bool := fn = 4 || fn = 5

/-- Check 2 of R223. -/
def cpAligned (fn : Nat) (w : List Word) : Bool :=
  let x := copyShape fn w
  x.src % 4 = 0 && (cpTarget fn || x.dst % 4 = 0) && x.rb % 4 = 0 &&
    (!cp2d fn (w.getD 7 0) || (x.sstride % 4 = 0 && x.dstride % 4 = 0)) &&
    (!cpGather fn (w.getD 7 0) || (w.getD 5 0).toNat % 4 = 0)

/-- Check 3 of R223. -/
def State.cpInside (s : State) (fn : Nat) (w : List Word) : Bool :=
  let x := copyShape fn w
  let win : Nat → Nat → Bool := fun o n => n = 0 || (s.un.locate s.gr.coreIndex o n).isSome
  (if cpSrcGlobal fn then decide (x.src < 2 ^ 57) else win x.src (x.span x.sstride)) &&
    (cpTarget fn || (if cpDstGlobal fn then decide (x.dst < 2 ^ 57) else win x.dst (x.span x.dstride))) &&
    (!cpGather fn (w.getD 7 0) || win (w.getD 5 0).toNat (4 * x.rows))

/-- The checks of R223 in order. -/
def State.cpCheck (s : State) (fn : Nat) (w : List Word) : Option Cause :=
  if !s.cpLegal fn w then some .illegal
  else if !cpAligned fn w then some .misalign
  else if !s.cpInside fn w then some .prot
  else none

/-- The destination bytes of a copy of the issuing group, by VA and by on-chip address (R226). -/
def State.cpDests (s : State) (fn : Nat) (w : List Word) : List (Nat × Nat) × List (Nat × Nat) :=
  let x := copyShape fn w
  let rows := (List.range x.rows).map (fun r => (x.dst + r * x.dstride, x.rb))
  if fn = 4 then ([], [])
  else if fn = 5 then (if (w.getD 2 0).getLsbD 4 then ([(x.src, 16384)], []) else ([], []))
  else if cpDstGlobal fn then (rows, [])
  else ([], rows.filterMap (fun r => (s.un.scr s.gr.coreIndex r.1 r.2).map (fun l => (l.num, r.2))))

/-- The group that a CP.REG or CP.ACC names (R225). -/
def State.cpGroup (s : State) (c : Cmd) : Option Group :=
  let own := s.groupOf c.gid
  let u := s.unitOf own.uid
  let k := if u.coop then (c.w 3).toNat % 8 else own.coreIndex
  s.allGroups.find? (fun g => g.live && g.uid == own.uid && g.uid != 0 && g.coreIndex == k &&
    g.part == (c.w 7).toNat / 2 ^ 14 % 4 && g.slot == (c.w 7).toNat / 2 ^ 10 % 16)

/-- The capability check of R225: none where it passes. -/
def State.cpCapable (s : State) (c : Cmd) (fn : Nat) : Option Cause :=
  if !cpTarget fn then none
  else
    match s.cpGroup c with
    | none => some .prot
    | some g =>
      let w2 := (c.w 2).toNat
      if fn = 5 then (if w2 % 16 < g.tiles.length then none else some .prot)
      else
        let d := w2 % 64
        let n := w2 / 2 ^ 6 % 64
        let f := w2 / 2 ^ 12 % 64
        let k := w2 / 2 ^ 18 % 128
        if g.width < f + k then some .prot
        else if 64 < d + n ∨ (List.range k).any (fun j => (List.range n).any (fun i => (g.lanes.getD (f + j) Lane.start).beyond (d + i))) then
          some .regBound
        else none

/-- One end of a word of a copy: a global address, a scratchpad offset, a lane's field, an element of a tile. -/
inductive Side where
  | glob (va : Nat)
  | scr (o : Nat)
  | lane (gid l field : Nat)
  | tile (gid t r c : Nat)
deriving DecidableEq, Repr

/-- Word k of a copy: its source, none where zero is written, and its destination (R224, R225). -/
def State.copyWord (s : State) (c : Cmd) (fn k : Nat) : Option Side × Side :=
  let x := copyShape fn c.regs
  let zf := (c.w 7).getLsbD 5
  let own := s.groupOf c.gid
  let row := 4 * k / x.rb
  let o := 4 * k % x.rb
  if fn = 4 then
    let n := (c.w 2).toNat / 2 ^ 6 % 64
    let f := (c.w 2).toNat / 2 ^ 12 % 64
    (if zf then none else some (.glob (x.src + 4 * k)),
      .lane ((s.cpGroup c).map (·.gid) |>.getD 0) (f + k / n) ((c.w 2).toNat % 64 + k % n))
  else if fn = 5 then
    let t : Side := .tile ((s.cpGroup c).map (·.gid) |>.getD 0) ((c.w 2).toNat % 16) (k / 64) (k % 64)
    let g : Side := .glob (x.src + 4 * k)
    if (c.w 2).getLsbD 4 then (if zf then none else some t, g) else (if zf then none else some g, t)
  else
    let dst : Side := if cpDstGlobal fn then .glob (x.dst + row * x.dstride + o) else .scr (x.dst + row * x.dstride + o)
    if cpGather fn (c.w 7) then
      let ix := match (s.unitOf own.uid).scr own.coreIndex ((c.w 5).toNat + 4 * row) 4 with
        | some l => s.getN l 4
        | none => 0
      (if zf ∨ ix = 0xFFFFFFFF then none else some (.glob (x.src + ix * x.sstride + o)), dst)
    else
      (if zf then none else some (if cpSrcGlobal fn then .glob (x.src + row * x.sstride + o) else .scr (x.src + row * x.sstride + o)), dst)

/-- A tile takes the class that a command gives it, unless one that is younger in program order has run already (R278). -/
def Group.setClass (g : Group) (id t : Nat) (cls : TileClass) : Group :=
  if sparseGet 0 g.classBy t ≤ id then
    { g with tiles := g.tiles.modify t (fun x => { x with cls := cls }), classBy := sparsePut 0 g.classBy t id }
  else g

/-- A word given to a lane's field or to an element of a tile: as the lane's window stands, and with the class that the command sets (R225). -/
def State.putTarget (s : State) (c : Cmd) (side : Side) (w : Word) : State :=
  match side with
  | .lane gid l f => s.landLane gid l [(((s.groupOf gid).lanes.getD l Lane.start).winWord f, w)]
  | .tile gid t r k =>
    s.modGroup gid (fun g => ({ g with tiles := g.tiles.modify t (fun x => x.put r k w) } : Group).setClass c.id t
      (if (c.w 2).getLsbD 5 then .integer else .float))
  | _ => s

/-- The words from the k-th on that a CP.REG or a CP.ACC load still owes its target are undefined (R227, R229). -/
def State.spoilTarget (s : State) (c : Cmd) (k : Nat) : State :=
  match c.kind with
  | .copy fn =>
    if cpTarget fn && (if c.started then (s.cpGroup c).isSome else (s.cpCapable c fn).isNone) then
      (List.range ((copyShape fn c.regs).words - k)).foldl (fun t i =>
        (t.putTarget c (t.copyWord c fn (k + i)).2 (Config.freeWord t.free)).useFree 1) s
    else s
  | _ => s

/-- Bytes [va, va + n) of a page of a context become undefined; where nothing places the page, as soon as something does. A page in a peer window lies at the peer (R354). -/
def State.spoilPage (s : State) (ctx va n : Nat) : State :=
  if (s.window ctx va).isSome then s
  else match s.pageLoc ctx va with
    | some l => (List.range n).foldl (fun t i => (t.putByte (l.plus i) (Config.freeByte t.free)).useFree 1) s
    | none => { s with spoils := s.spoils ++ [(ctx, va, n)] }

/-- A range of a context cut at its pages. -/
def pagesOf (fuel va n : Nat) : List (Nat × Nat) :=
  match fuel with
  | 0 => []
  | k + 1 => if n = 0 then [] else (va, min n (4096 - va % 4096)) :: pagesOf k (va + min n (4096 - va % 4096)) (n - min n (4096 - va % 4096))

/-- What was to become undefined on pages that are placed by now. -/
def State.settleSpoils (s : State) : State :=
  if s.spoils.isEmpty then s else s.spoils.foldl (fun t x => t.spoilPage x.1 x.2.1 x.2.2) { s with spoils := [] }

/-- The destination of a failed or abandoned command is undefined (R229, R318): its bytes, wherever its pages lie, and the registers or the tile that it targets. -/
def State.scramble (s : State) (c : Cmd) : State :=
  let s1 := c.destVa.foldl (fun t r => (pagesOf (r.2 / 4096 + 2) r.1 r.2).foldl (fun u p => u.spoilPage c.ctx p.1 p.2) t) s
  let pas := c.destPa.flatMap (fun r => (List.range r.2).map (r.1 + ·))
  (pas.foldl (fun t pa => (t.putByte (.dev pa) (Config.freeByte t.free)).useFree 1) s1).spoilTarget c 0

/-- A command fails its batch (R227, R229); the matrix part of a CP.MMA fails with its copy (R240). clean: it has written nothing, nor does it now (R225). -/
def State.failWith (s : State) (id : Nat) (cause : Cause) (index : Nat) (clean : Bool) : State :=
  let one : State → Cmd → State := fun t c =>
    ((((if clean then t.modCmd c.id (fun x => { x with destVa := [], destPa := [] }) else t.scramble c).modCmd c.id (fun x =>
      { x with state := .failed cause index })).dropLoose c).cmdOver c)
  match s.cmd? id with
  | none => s
  | some c =>
    let s1 := one s c
    match s1.cmds.find? (fun x => x.arg == id && x.kind = .mma && x.state = .waiting && x.seq == c.seq && x.gid == c.gid && x.cbatch.isNone) with
    | some m => if c.kind = .copy 6 then one s1 m else s1
    | none => s1

/-- A command fails its batch with an undefined destination. -/
def State.failCmd (s : State) (id : Nat) (cause : Cause) (index : Nat) : State := s.failWith id cause index false

/-- The engines' core number on a die. -/
def engineCore (die : Nat) : Nat := coreNo die 42

/-- An engine's translation of a VA (R227, R354): the TLB of its die and the built-in walk (log entry 9); a VA at or beyond 2^57 is refused. chip: it may reach on-chip windows, as copy engines and privileged code may (R160). -/
def State.engTrans (s : State) (die ctx va : Nat) (need : BitVec 3) (chip : Bool) : Trans :=
  if 2 ^ 57 ≤ va then .refused false
  else
    match s.window ctx va with
    | some w => if s.linked then .peer w.dev w.rctx (w.remote va) else .refused false
    | none =>
      match s.tlbHit (engineCore die) ctx va with
      | some e => if e.perms.allow need then (Trans.ok (e.loc.plus (va - e.va))).seen chip else .refused (e.pasid != 0)
      | none =>
        match s.walkVa ctx va with
        | .absent => .absent false
        | .refused => .refused false
        | .page pa size p host _ enc =>
          if !p.allow need then .refused host else if host then .walk true else (Trans.ok (devLoc (s.keyOf ctx enc) (pa + va % size))).seen chip

/-- A translation that an engine or the intake asks for: a miss of a die whose walker routine is loaded joins its walk queue (R324), and a walk that has ended has its answer (R327). -/
def State.engAsk (s : State) (die ctx va : Nat) (need : BitVec 3) (who : Nat) (chip : Bool) : Trans :=
  let miss := s.walkerLoaded die && decide (va < 2 ^ 57) && (s.window ctx va).isNone && (s.tlbHit (engineCore die) ctx va).isNone
  (if miss then .walk false else s.engTrans die ctx va need chip).answered (s.answerFor who die ctx (va / 4096) need)

/-- The built-in walk that an engine's access makes (R379). -/
def State.engWalk (s : State) (die ctx va : Nat) : State := if 2 ^ 57 ≤ va then s else s.noteWalk (engineCore die) ctx va

/-- The asynchronous fault record of a command (R371, R377). -/
def State.traceFault (s : State) (c : Cmd) (va cause : Nat) (write host : Bool) : State :=
  let g := s.groupOf c.gid
  s.trace c.core c.ctx 4
    [BitVec.ofNat 32 c.pc.toNat, BitVec.ofNat 32 (c.pc.toNat / 2 ^ 32), c.seq, BitVec.ofNat 32 (g.coreSlot * 2 ^ 16 + c.frag)]
    [faultRecord va write host false cause, BitVec.ofNat 32 va, BitVec.ofNat 32 (va / 2 ^ 32)]

/-- A refusal stops a command (R227). -/
def State.refuseCmd (s : State) (c : Cmd) (va : Nat) (write host : Bool) : State :=
  ((s.dropAnswersOf c.id).traceFault c va 0x1E write host).failCmd c.id .prot (if c.kind = .mmag then c.progress else 0)

/-- Whether a service pair's stream issued a command (R388). -/
def State.ofPair (s : State) (c : Cmd) : Bool := s.allStreams.any (fun x => x.sid == c.sid && decide (x.kind = .pair))

/-- COPY_PAGE_FAULT: a command parks in its engine; the pager, or the host for a host page, is told (R227, R300). A page fault of a service pair's command is a refusal (R388). -/
def State.parkCmd (s : State) (c : Cmd) (va : Nat) (write host : Bool) : State :=
  if s.ofPair c then s.refuseCmd c va write host
  else
    let s1 := (((s.dropAnswersOf c.id).modCmd c.id (fun x => { x with state := .parked va, peer := none })).traceFault c va 0x1F write host).spoilTarget c c.progress
    s1.tellFault c.die c.ctx va (if write then needW else needR) host false

/-- A command asks a peer and waits for its answer (R354). -/
def State.askPeer (s : State) (c : Cmd) (dev : BitVec 12) (rctx : Word) (rva : Nat) (op : PeerOp) : State :=
  (s.modCmd c.id (fun x => { x with state := .waiting })).say (.peerRequest 0 dev rctx [(c.id, rva, op)])

/-- An access of an engine: where it lies, or what a peer answered; none where the command has stopped or waits, as the state says. -/
inductive EngAt where
  | at_ (l : Loc) (s : State)
  | answered (v : BitVec 128) (s : State)
  | stopped (s : State)
deriving DecidableEq, Repr

/-- Whether a command may reach on-chip windows: a copy, or any that privileged code has issued (R160). -/
def Cmd.seesChip (c : Cmd) : Bool :=
  c.priv || (match c.kind with
    | .copy _ => true
    | _ => false)

/-- A command's translation, struck where an uncorrectable error lies (R391). -/
def State.cmdTrans (s : State) (c : Cmd) (va : Nat) (need : BitVec 3) : Trans := (s.engAsk c.die c.ctx va need c.id c.seesChip).struck s true 4

/-- A command waits for the walk of a page (R324). -/
def State.waitCmdWalk (s : State) (c : Cmd) (va : Nat) (need : BitVec 3) (ats : Bool) : State :=
  (s.queueWalk (engineCore c.die) c.ctx va need ats).modCmd c.id (fun x => { x with state := .parked va })

/-- An engine at a global address. -/
def State.engAt (s : State) (c : Cmd) (va : Nat) (write : Bool) (op : PeerOp) : EngAt :=
  let need := if write then needW else needR
  match s.cmdTrans c va need with
  | .ok l => .at_ l (s.engWalk c.die c.ctx va)
  | .absent h => .stopped ((s.engWalk c.die c.ctx va).parkCmd c va write h)
  | .refused h => .stopped ((s.engWalk c.die c.ctx va).refuseCmd c va write h)
  | .lost => .stopped (s.refuseCmd c va write true)
  | .walk ats => .stopped (s.waitCmdWalk c va need ats)
  | .peer dev rctx rva =>
    match c.peer with
    | none => .stopped (s.askPeer c dev rctx rva op)
    | some (.done v) => .answered v (s.modCmd c.id (fun x => { x with peer := none }))
    | some .absent => .stopped (s.parkCmd c va write false)
    | some .refused => .stopped (s.refuseCmd c va write false)

/-- A word that an engine reads (R227). -/
def State.engWord (s : State) (c : Cmd) (va : Nat) : State × Option Word :=
  match s.engAt c va false (.read 4) with
  | .at_ l t => (t, some (BitVec.ofNat 32 (s.getN l 4)))
  | .answered v t => (t, some (v.setWidth 32))
  | .stopped t => (t, none)

/-- A word that an engine writes; whether it has been written. -/
def State.engPut (s : State) (c : Cmd) (va : Nat) (w : Word) : State × Bool :=
  match s.engAt c va true (.write 4 (w.setWidth 128)) with
  | .at_ l t => (t.putN l w.toNat 4, true)
  | .answered _ t => (t, true)
  | .stopped t => (t, false)

/-- Where a scratchpad word of a command's unit lies. -/
def State.scrLoc (s : State) (c : Cmd) (o : Nat) : Option Loc := (s.unitOf (s.groupOf c.gid).uid).scr (s.groupOf c.gid).coreIndex o 4

/-- The source of a word read; a poisoned line fails the batch with PROT (R391). old: the word before it lay in the same sector, whose line has its class already (R168, R221). -/
def State.copyRead (s : State) (c : Cmd) (old : Bool) (side : Option Side) : State × Option Word :=
  let own := s.groupOf c.gid
  match side with
  | none => (s, some 0)
  | some (.glob va) =>
    let (t, w) := s.engWord c va
    match w, s.engTrans own.die c.ctx va needR true with
    | some v, .ok l => (if old then t else t.touchLine c.ctx va l true ((c.w 7).toNat / 4 % 8) 0, some v)
    | _, _ => (t, w)
  | some (.scr o) =>
    match s.scrLoc c o with
    | some l => if s.poisoned true l 4 then (s.failCmd c.id .prot 0, none) else (s, some (BitVec.ofNat 32 (s.getN l 4)))
    | none => (s, some 0)
  | some (.lane gid l f) =>
    let g := s.groupOf gid
    let x := g.lanes.getD l Lane.start
    (s, some ((x.winWord f).elim 0 (x.word g.allot)))
  | some (.tile gid t r k) => (s, some (((s.groupOf gid).tiles.getD t ⟨.empty, []⟩).get r k))

/-- The destination of a word written; whether it has been. -/
def State.copyPut (s : State) (c : Cmd) (old : Bool) (side : Side) (w : Word) : State × Bool :=
  let own := s.groupOf c.gid
  match side with
  | .glob va =>
    let (t, ok) := s.engPut c va w
    match ok, s.engTrans own.die c.ctx va needW true with
    | true, .ok l => (if old then t else t.touchLine c.ctx va l false ((c.w 7).toNat / 4 % 8) 0, true)
    | _, _ => (t, ok)
  | .scr o =>
    match s.scrLoc c o with
    | some l => if s.poisoned true l 4 then (s.failCmd c.id .prot 0, false) else (s.putN l w.toNat 4, true)
    | none => (s, true)
  | x => (s.putTarget c x w, true)

/-- Whether two ends of words of a copy lie in one global sector. -/
def sameSector (a b : Option Side) : Bool :=
  match a, b with
  | some (.glob x), some (.glob y) => x / 32 == y / 32
  | _, _ => false

/-- Whether the index of the row that a gather's word k belongs to lies in a poisoned line (R391). -/
def State.badIndex (s : State) (c : Cmd) (fn k : Nat) : Bool :=
  cpGather fn (c.w 7) && (match s.scrLoc c ((c.w 5).toNat + 4 * (4 * k / (copyShape fn c.regs).rb)) with
    | some l => s.poisoned true l 4
    | none => false)

/-- A copy runs word by word until it ends, parks, fails or waits for a peer (R224 to R227). DESIGN CHOICE, log entry 32: it writes its words in ascending order, so of two rows that overlap the later stands, where R226 defines no order. -/
def State.copyRun (s : State) (id fn fuel : Nat) : State :=
  match fuel with
  | 0 => s
  | k + 1 =>
    match s.cmd? id with
    | none => s
    | some c =>
      if (copyShape fn c.regs).words ≤ c.progress then s.endCmd id
      else if s.badIndex c fn c.progress then s.failCmd id .prot 0
      else
        let (src, dst) := s.copyWord c fn c.progress
        let last := s.copyWord c fn (c.progress - 1)
        let old : Option Side → Option Side → Bool := fun a b => decide (0 < c.progress) && sameSector a b
        let (s1, v) := match c.buf with
          | w :: _ => (s, some w)
          | [] => s.copyRead c (old src last.1) src
        match v, s1.cmd? id with
        | some w, some c1 =>
          let (s2, ok) := s1.copyPut c1 (old (some dst) (some last.2)) dst w
          if ok then (s2.modCmd id (fun x => { x with progress := x.progress + 1, buf := [], peer := none })).copyRun id fn k
          else s2.modCmd id (fun x => { x with buf := [w] })
        | _, _ => s1

/-- COPY_COMPLETE: the copy starts with its capability check, and finishes (R225 to R227). -/
def execCopyComplete (id : Nat) (s : State) : Host.Outcome State Fault Refusal :=
  .next (
    match s.cmd? id with
    | none => s
    | some c =>
      match c.kind, c.state with
      | .copy fn, .accepted =>
        match if c.started then none else s.cpCapable c fn with
        | some cause => s.failWith id cause 0 true
        | none => (s.modCmd id (fun x => { x with started := true })).copyRun id fn ((copyShape fn c.regs).words + 1 - c.progress)
      | _, _ => s)

/-- COPY_PAGE_FAULT (R227). -/
def execCopyPageFault (id va : Nat) (s : State) : Host.Outcome State Fault Refusal :=
  .next (match s.cmd? id with
    | none => s
    | some c => s.parkCmd c va false false)

/-- COPY_RESUME (R227). -/
def execCopyResume (id : Nat) (s : State) : Host.Outcome State Fault Refusal := .next (s.resumeCmd id)

/-- Row r of A as registers give it: lane r's 16 fields from the base (R234). DESIGN CHOICE, log entry 33: a field beyond the lane's L (R8) reads its frame word, without a fault. -/
def State.registerRows (s : State) (c : Cmd) : List (List Word) :=
  let g := s.groupOf c.gid
  let base := (c.w 1).toNat % 64
  (List.range 64).map (fun r => (List.range 16).map (fun i =>
    let x := g.lanes.getD r Lane.start
    if r < g.width ∧ c.exm.has r then (x.winWord (base + i)).elim 0 (x.word g.allot) else 0))

/-- The register words that a command with AREG reads, with what they hold (R234, R235). -/
def State.operandWords (s : State) (c : Cmd) : List (Nat × List (Nat × Word)) :=
  let g := s.groupOf c.gid
  c.exm.lanes.map (fun l => (l, (List.range 16).filterMap (fun i =>
    ((g.lanes.getD l Lane.start).winWord ((c.w 1).toNat % 64 + i)).map (fun w => (w, (g.lanes.getD l Lane.start).word g.allot w)))))

/-- An MMA of s as it is accepted: with AREG it reads its rows, and where it named no flag its operand registers are watched until its WAITM (R235). -/
def State.withRows (s : State) (flag : Option Nat) (c : Cmd) : Cmd :=
  if (c.w 0).getLsbD 21 then { c with rows := s.registerRows c, dests := if flag.isNone then s.operandWords c else [] } else c

/-- The words that an ACCRD names at acceptance, each with its column of the block; they are undefined until the covering WAITM (R235, R275). -/
def State.drainWords (s : State) (c : Cmd) : List (Nat × List (Nat × Word)) :=
  let g := s.groupOf c.gid
  c.exm.lanes.map (fun l => (l, (List.range 8).filterMap (fun i =>
    ((g.lanes.getD l Lane.start).winWord ((c.w 0).toNat + i)).map (fun w => (w, BitVec.ofNat 32 i)))))

/-- Free words put into the registers that a drain names. -/
def State.spoil (s : State) (gid : Nat) (ds : List (Nat × List (Nat × Word))) : State :=
  ds.foldl (fun t d => d.2.foldl (fun u w => (u.landLane gid d.1 [(some w.1, Config.freeWord u.free)]).useFree 1) t) s

/-- What the registers that a drain names hold. -/
def State.drainHeld (s : State) (gid : Nat) (ds : List (Nat × List (Nat × Word))) : List (List Word) :=
  ds.map (fun d => d.2.map (fun w => ((s.groupOf gid).lanes.getD d.1 Lane.start).word (s.groupOf gid).allot w.1))

/-- The members of a joint command are there (R234). -/
def State.jointReady (s : State) (c : Cmd) : Bool :=
  decide (c.joint.length = (c.w 0).toNat / 2 ^ 26 % 4 + 1) &&
    c.joint.all (fun i => match s.cmd? i with
      | some m => decide (m.state = .waiting)
      | none => true)

/-- COMMAND_ACCEPT (R219, R20): the engine takes the snapshot and reads the lane registers; the flag clears. -/
def execCommandAccept (id : Nat) (s : State) : Host.Outcome State Fault Refusal :=
  .next (
    match s.cmd? id with
    | none => s
    | some c =>
      if c.state ≠ .retired then s
      else
        let s0 := (if c.kind = .launch then s else s.flagDone c.sid c.id c.flag).modCmd id (fun x =>
          { if c.kind = .mma then s.withRows c.flag x else x with flag := if c.kind = .launch then c.flag else none, state := .accepted })
        match c.kind with
        | .copy fn =>
          let s1 : State := { s0 with cmds := s0.cmds.map (fun (x : Cmd) =>
            if x.arg = id ∧ x.kind = .mma ∧ x.state = .retired ∧ x.gid = c.gid ∧ x.seq = c.seq ∧ x.cbatch = none then
              { s.withRows c.flag x with state := .waiting } else x) }
          if (copyShape fn c.regs).words = 0 then s1.endCmd id else s1.post (.copyComplete id)
        | .mma =>
          if (c.w 0).getLsbD 22 then
            let s1 := s0.modCmd id (fun x => { x with state := .waiting })
            match s1.cmds.find? (fun x => x.joint.contains id) with
            | some first => if s1.jointReady first then s1.post (.jointMmaStart first.id) else s1
            | none => s1
          else s0.kick c.gid
        | .mmag => if c.w 2 = 0 then s0.endCmd id else s0.kick c.gid
        | .accz | .accrs => s0.kick c.gid
        | .accrd =>
          let ds := s0.drainWords c
          let s1 := (s0.modCmd id (fun x => { x with dests := ds })).spoil c.gid ds
          (s1.modCmd id (fun x => { x with rows := s1.drainHeld c.gid ds })).kick c.gid
        | .mmv => s0.post (.mmvComplete id)
        | .cfetch => s0.post (.overlayFetchComplete c.core c.ctx c.arg)
        | .cred _ => if c.w 4 = 0 then s0.endCmd id else s0.post (.credContributionArrival id)
        | .launch => s0.post (.launchRecordRead id)
        | .syscall => s0)

/-- The shape of a uniform engine command: ILLEGAL whatever the guard, nothing under a false guard, then its checks in order (R250, R266). -/
def State.engine (s : State) (g : BitVec 4) (legal : Bool) (check : Option Cause) (f : State) : Verdict :=
  if !legal || s.isWave then .trap .illegal s.st.exm s
  else if !s.uniGuard g then .next s
  else
    match check with
    | some c => .trap c s.st.exm s
    | none => .next f

/-- CP fn 0 to 5 (R268). -/
def State.copyCommand (s : State) (fn : Nat) (g : BitVec 4) (d a : BitVec 6) : Verdict :=
  let w := s.descr a.toNat 8
  let ds := s.cpDests fn w
  s.engine g (decide (a.toNat % 8 = 0)) (s.cpCheck fn w)
    ((s.issueCmd (.copy fn) w true false (fun c => { c with destVa := ds.1, destPa := ds.2 })).putSeq d s)

/-- CP.G2S (R268). -/
def execCpG2s (g : BitVec 4) (d a : BitVec 6) (s : State) : Host.Outcome State Fault Refusal := s.run (s.copyCommand 0 g d a)
/-- CP.S2G (R268). -/
def execCpS2g (g : BitVec 4) (d a : BitVec 6) (s : State) : Host.Outcome State Fault Refusal := s.run (s.copyCommand 1 g d a)
/-- CP.G2G (R268). -/
def execCpG2g (g : BitVec 4) (d a : BitVec 6) (s : State) : Host.Outcome State Fault Refusal := s.run (s.copyCommand 2 g d a)
/-- CP.GATH (R268). -/
def execCpGath (g : BitVec 4) (d a : BitVec 6) (s : State) : Host.Outcome State Fault Refusal := s.run (s.copyCommand 3 g d a)
/-- CP.REG (R225, R268). -/
def execCpReg (g : BitVec 4) (d a : BitVec 6) (s : State) : Host.Outcome State Fault Refusal := s.run (s.copyCommand 4 g d a)
/-- CP.ACC (R225, R268). -/
def execCpAcc (g : BitVec 4) (d a : BitVec 6) (s : State) : Host.Outcome State Fault Refusal := s.run (s.copyCommand 5 g d a)

/-- BFC (R228, R269). -/
def execBfc (g : BitVec 4) (d : BitVec 6) (s : State) : Host.Outcome State Fault Refusal :=
  s.run (s.once g true (fun x => (x.modGr (fun y => { y with cbatch := y.cbatch + 1 })).setSreg d.toNat (x.gr.cbatch + 1)))

/-- BFM (R228, R269). -/
def execBfm (g : BitVec 4) (d : BitVec 6) (s : State) : Host.Outcome State Fault Refusal :=
  s.run (s.once g true (fun x => (x.modGr (fun y => { y with mbatch := y.mbatch + 1 })).setSreg d.toNat (x.gr.mbatch + 1)))

/-- n is at or before m (R228). -/
def atOrBefore (n m : Word) : Bool := decide ((m - n).toNat < 2 ^ 31)

/-- The drained values of an ACCRD land: a word outside its lane's resident range keeps what it held (R275). -/
def State.landDrain (s : State) (c : Cmd) : State :=
  (if c.kind = .accrd then c.dests else []).foldl (fun t d => t.modGroup c.gid (fun g => { g with lanes := g.lanes.modify d.1 (fun x =>
    d.2.foldl (fun y w => if x.lowres ≤ w.1 ∧ w.1 < x.fb + 58 then y.putWord g.allot w.1 w.2 else y) x) })) s

/-- A register of an open drain that has been written is undefined and takes nothing from the drain (R235). -/
def State.taintDrain (s : State) (c : Cmd) : State :=
  let g := s.groupOf c.gid
  let ps := (c.dests.zip c.rows).map (fun d => (d.1.1, d.1.2.zip d.2))
  let written (l : Nat) (w : (Nat × Word) × Word) : Bool := (g.lanes.getD l Lane.start).word g.allot w.1.1 != w.2
  let kept := ps.map (fun d => (d.1, d.2.filter (fun w => !written d.1 w)))
  let lost := ps.map (fun d => (d.1, (d.2.filter (fun w =>
    written d.1 w && (decide ((g.lanes.getD d.1 Lane.start).lowres ≤ w.1.1) && decide (w.1.1 < (g.lanes.getD d.1 Lane.start).fb + 58)))).map (·.1)))
  (s.modCmd c.id (fun x => { x with dests := kept.map (fun d => (d.1, d.2.map (·.1))), rows := kept.map (fun d => d.2.map (·.2)) })).spoil c.gid lost

/-- The open drains after an activity (R235). -/
def State.taintDrains (s : State) : State := (s.cmds.filter (fun c => c.kind = .accrd && !c.dests.isEmpty)).foldl State.taintDrain s

/-- R229: a wait on the batches at or before s[A]. -/
def State.waitBatch (s : State) (copy : Bool) (a : BitVec 6) : Verdict :=
  let cur := if copy then s.gr.cbatch else s.gr.mbatch
  let b := if atOrBefore (s.sreg a.toNat) cur then s.sreg a.toNat else cur
  let cov := s.cmds.filter (fun c => c.gid == s.gr.gid && (match if copy then c.cbatch else c.mbatch with
    | some n => atOrBefore n b
    | none => false))
  if cov.any (fun c => !c.isOver) then .hold (s.modSt (fun x => { x with status := if copy then .waitCopy b else .waitMatrix b }))
  else
    let ids := cov.map (·.id)
    let s1 := (cov.filter (fun c => decide (c.state = .done))).foldl State.landDrain s
    let s2 : State := { s1 with cmds := s1.cmds.filter (fun c => !ids.contains c.id) }
    let s3 := if copy && !cov.isEmpty then s2.dropL1 s2.gr.coreId else s2
    match cov.findSome? (fun c => match c.state with
      | .failed cause i => some (c, cause, i)
      | _ => none) with
    | none => .next s3
    | some (c, cause, i) => .trapWith .batcherr s.st.exm
        { TrapInfo.plain with fl := BitVec.ofNat 24 (cause.code.toNat * 2 ^ 16 + i % 2 ^ 16), cmdPc := c.pc, cmdSeq := c.seq } s3

/-- WAITC (R229, R270). -/
def execWaitc (g : BitVec 4) (a : BitVec 6) (s : State) : Host.Outcome State Fault Refusal :=
  s.run (if s.uniGuard g then s.waitBatch true a else .next s)

/-- WAITM (R229, R270). -/
def execWaitm (g : BitVec 4) (a : BitVec 6) (s : State) : Host.Outcome State Fault Refusal :=
  s.run (if s.uniGuard g then s.waitBatch false a else .next s)

end Sys2Proof.Machine
end

