-- ==== Sys2Proof/Machine/CodeOverlay.lean ====
section
/-!
DEFINITION. The code overlay: CFETCH and CINV (R242, R243, R279, R280) and the events OVERLAY_FETCH_COMPLETE, ENTRY_SEGMENT_FETCH (R244) and CINV_DEFERRED_DROP.
-/
namespace Sys2Proof.Machine

/-- A translation for a fetch of code by who, as an engine of a die makes it: a window refuses it (R179, R354), a miss may join the walk queue and its answer counts (R324, R327). -/
def State.fetchAsk (s : State) (die ctx va who : Nat) (chip : Bool) : Trans :=
  match s.engAsk die ctx va needX who chip with
  | .peer .. => .refused false
  | t => t

/-- CFETCH's check of the X permission, at issue (R242). -/
def State.fetchCheck (s : State) (va : Nat) : Trans := s.fetchAsk s.gr.die s.gr.ctx va s.st.sid s.st.isPriv

/-- Whether the check has a walk to wait for (R175, R324). -/
def State.fetchWaits (s : State) (va : Nat) : Bool :=
  s.walkerLoaded s.gr.die && (match s.fetchCheck va with
    | .walk _ => true
    | _ => false)

/-- CFETCH (R242, R279). -/
def execCfetch (g : BitVec 4) (a : BitVec 6) (s : State) : Host.Outcome State Fault Refusal :=
  let va := (s.sregPair a.toNat).toNat
  let check : Option Cause :=
    if va % 4096 ≠ 0 then some .misalign
    else match s.fetchCheck va with
      | .refused _ | .lost => some .prot
      | _ => none
  s.run (
    if isPair a.toNat && !s.isWave && s.uniGuard g && decide (va % 4096 = 0) && s.fetchWaits va then
      s.requesting 1 (fun t => .hold ((t.queueWalk (engineCore t.gr.die) t.gr.ctx va needX false).modSt (fun x => { x with status := .waitWalk })))
    else s.engine g (isPair a.toNat) check
      (s.dropAnswers.issueCmd .cfetch [s.sreg a.toNat, s.sreg (a.toNat + 1)] false false (fun c => { c with arg := va })))

/-- OVERLAY_FETCH_COMPLETE: the fetch of a core's overlay fetcher fills a slot, waits for a repair, or leaves the segment absent (R242, R391). -/
def execOverlayFetchComplete (core ctx va : Nat) (s : State) : Host.Outcome State Fault Refusal :=
  .next (
    match s.cmds.find? (fun c => c.kind = .cfetch && c.state = .accepted && c.ctx == ctx && c.arg == va && c.core == core) with
    | none => s
    | some c =>
      let t := s.engWalk (dieOf core) ctx va
      if (s.slotFor core ctx va).isSome then (s.slotPut core ctx va []).endCmd c.id
      else
        match (s.fetchAsk (dieOf core) ctx va c.id c.priv).struck s true 4096 with
        | .ok l => (t.slotPut core ctx va (s.wordsAt l)).endCmd c.id
        | .absent h => if s.ofPair c then (t.dropAnswersOf c.id).endCmd c.id else t.parkCmd c va false h
        | .walk ats => s.waitCmdWalk c va needX ats
        | _ => (t.dropAnswersOf c.id).endCmd c.id)

/-- The cores whose slots CINV reaches: core, die or device (R243). -/
def State.cinvReach (s : State) (scope core : Nat) : Bool :=
  if scope = 0 then core == s.gr.coreId else if scope = 1 then dieOf core == s.gr.die else true

/-- R243: a slot that is pinned is marked, another is dropped. A VA pair that names no segment exactly is taken modulo 2^57 and rounded down to its segment (log entry 25). -/
def State.invalidateSegment (s : State) (scope ctx va : Nat) : State :=
  { s with overlays := s.overlays.filterMap (fun o =>
      if o.ctx = ctx ∧ o.va = segOf (BitVec.ofNat 57 va) ∧ s.cinvReach scope o.core then
        (if s.pinned o then some { o with marked := true } else none)
      else some o) }

/-- CINV (R280). -/
def execCinv (g : BitVec 4) (sc : BitVec 3) (a : BitVec 6) (s : State) : Host.Outcome State Fault Refusal :=
  s.run (
    if 3 ≤ sc.toNat ∨ !isPair a.toNat then .trap .illegal s.st.exm s
    else if !s.uniGuard g then .next s
    else s.released (fun s1 => .next (s1.invalidateSegment sc.toNat s1.gr.ctx (s1.sregPair a.toNat).toNat)))

/-- CINV_DEFERRED_DROP: a core's marked slots that nothing pins go (R243). -/
def execCinvDeferredDrop (core : Nat) (s : State) : Host.Outcome State Fault Refusal :=
  .next { s with overlays := s.overlays.filter (fun o => !(o.core == core && o.marked && !s.pinned o)) }

/-- The entry segment of a unit on one core, whose header completes the restart point of a group's start (R309, R311): fetched, waited for, or refused, which ends the unit's groups there as DOUBLE does (R244). A fetch that finds every slot pinned is dropped (R242) and made again once one is not (log entry 69). -/
def State.fetchEntry (s : State) (uid core va : Nat) : State :=
  let u := s.unitOf uid
  let here : Nat → Bool := fun gid => s.allGroups.any (fun g => g.live && g.gid == gid && g.uid == uid && g.coreId == core)
  let start : State → State := fun t =>
    let h : CodeVa → Word := fun pc => ((t.slotFor core u.ctx va).map (fun o => sparseGet 0#32 o.words (pc.toNat % 4096 / 4 * 4))).getD 0
    (t.mapStreams (fun x => if x.status = .waitPlaced ∧ here x.gid ∧ x.restart.pos = 0 then
      { x with restart := { x.restart with hdr := h x.restart.pc } } else x)).wake (fun x => decide (x.status = .waitPlaced) && here x.gid)
  if (s.slotFor core u.ctx va).isSome then start s
  else
    let w := s.engWalk (dieOf core) u.ctx va
    match (s.fetchAsk (dieOf core) u.ctx va uid false).struck s true 4096 with
    | .ok l =>
      let s1 := w.slotPut core u.ctx va (s.wordsAt l)
      if (s1.slotFor core u.ctx va).isSome then start s1 else s1.modUnit uid (fun x => { x with fetchHeld := true })
    | .absent h => (w.dropAnswersOf uid).tellFault (dieOf core) u.ctx va needX h false
    | .walk ats => s.queueWalk (engineCore (dieOf core)) u.ctx va needX ats
    | _ =>
      let dead := (s.allStreams.filter (fun x => decide (x.status = .waitPlaced) && here x.gid)).map (·.sid)
      dead.foldl (fun t sid => let f := t.focus sid; if f.st.sid = sid then f.double Cause.prot.code.toNat f.st.pc 0 0 else t) s

/-- ENTRY_SEGMENT_FETCH (R244): the streams that wait for their unit's entry segment issue once it is there. -/
def execEntrySegmentFetch (uid : Nat) (s : State) : Host.Outcome State Fault Refusal :=
  .next (
    let u := s.unitOf uid
    let starts := s.allStreams.filter (fun x => decide (x.status = .waitPlaced) && s.allGroups.any (fun g => g.gid == x.gid && g.uid == uid))
    match starts with
    | [] => s
    | x :: _ => u.cores.foldl (fun t c => t.fetchEntry uid (coreNo c.die c.core) (segOf x.pc)) (s.modUnit uid (fun y => { y with fetchHeld := false })))

/-- A unit whose entry fetch can be made again: a core that lacks its entry segment has a slot that is not pinned (R244). -/
def State.heldFetch (s : State) : Option UnitRec :=
  s.allUnits.find? (fun u => u.live && u.fetchHeld && s.allGroups.any (fun g => g.live && g.uid == u.uid &&
    s.allStreams.any (fun x => x.gid == g.gid && decide (x.status = .waitPlaced) && (s.slotFor g.coreId g.ctx (segOf x.pc)).isNone) &&
    (let own := s.overlays.filter (fun o => o.core == g.coreId)
     decide (own.length < slotCount g.coreId) || own.any (fun o => !s.pinned o))))

end Sys2Proof.Machine
end

