-- ==== Sys2Proof/Machine/Objects.lean ====
section
/-!
DEFINITION. Combining objects (R245 to R255): OBJDEF, OBJDEL, OBJEND, OBJCALL, OBJRET (R281 to R285), and the events OBJCALL_SEND, OBJECT_REQUEST_ARRIVAL, CONJUGATOR_BATCH_START, METHOD_FAULT_RERUN, OBJECT_BATCH_WATCHDOG, OBJECT_REPLY_ARRIVAL and OBJDEL_AT_HOME.
-/
namespace Sys2Proof.Machine

/-- The live object that a handle names in a context (R245, R246). -/
def Ctx.object (c : Ctx) (h : Word) : Option ObjSlot := c.objects.find? (fun o => o.live && o.handle == h && h != 0)

/-- The object that a handle names for a context number. -/
def State.object (s : State) (ctx : Nat) (h : Word) : Option ObjSlot := (s.ctxRec ctx).bind (fun c => c.object h)

/-- The lowest free index of an object table at or above i (R245): no live object, and none still ending, has it. -/
def lowestIdx (os : List ObjSlot) (fuel i : Nat) : Option Nat :=
  match fuel with
  | 0 => none
  | k + 1 => if os.any (fun o => o.idx == i && (o.live || o.ending)) then lowestIdx os k (i + 1) else some i

/-- The generation after one, skipping 0 (R245). -/
def nextGen (g : BitVec 18) : BitVec 18 := if g + 1 = 0 then 1 else g + 1

/-- The checks of R245 on a descriptor, in order. -/
def objCheck (w : List Word) : Option Cause :=
  let r : Nat → Word := fun i => w.getD i 0
  if 3 < (r 5).toNat ∧ r 5 ≠ 0xFFFFFFFF then some .illegal
  else if (r 0).toNat % 4 ≠ 0 ∨ (r 2).toNat % 8 ≠ 0 then some .misalign
  else if (r 4).toNat % 4 ≠ 0 ∨ (r 4).toNat < 4 ∨ 4096 < (r 4).toNat then some .prot
  else none

/-- The object that OBJDEF defines in a context, if an index is free (R245). -/
def Ctx.newObject (c : Ctx) (w : List Word) (die : Nat) : Option ObjSlot :=
  (lowestIdx c.objects 4096 0).map (fun i =>
    { idx := i, gen := ((c.objects.find? (fun o => o.idx == i)).map (fun o => nextGen o.gen)).getD 1, live := true,
      die := if w.getD 5 0 = 0xFFFFFFFF then die else (w.getD 5 0).toNat,
      stateVa := vaPair (w.getD 0 0) (w.getD 1 0) % 2 ^ 57, stateSize := (w.getD 4 0).toNat,
      table := vaPair (w.getD 2 0) (w.getD 3 0) % 2 ^ 57, queue := [], running := false })

/-- OBJDEF's effect: the object enters its slot and s[D] receives the handle, or 0 (R245, R281). -/
def State.defineObject (s : State) (d : BitVec 6) (w : List Word) : State :=
  match (s.ctxRec s.gr.ctx).bind (fun c => c.newObject w s.gr.die) with
  | none => s.setSreg d.toNat 0
  | some o =>
    (s.modCtx s.gr.ctx (fun c => { c with objects := c.objects.filter (fun x => x.idx != o.idx) ++ [o] })).setSreg d.toNat o.handle

/-- OBJDEF (R281). -/
def execObjdef (g : BitVec 4) (d a : BitVec 6) (s : State) : Host.Outcome State Fault Refusal :=
  let w := s.descr a.toNat 8
  s.runN (s.engine g (decide (a.toNat % 8 = 0)) (objCheck w) (s.defineObject d w))

/-- OBJDEL (R246, R282): it waits until the home has written the state back; a handle that is not live has no effect. -/
def execObjdel (g : BitVec 4) (a : BitVec 6) (s : State) : Host.Outcome State Fault Refusal :=
  let h := s.sreg a.toNat
  let hold : State → Verdict := fun t => .hold (t.modSt (fun x => { x with status := .waitObjdel h }))
  s.run (
    if s.isWave then .trap .illegal s.st.exm s
    else if !s.uniGuard g then .next s
    else if (s.object s.gr.ctx h).isSome then hold (s.post (.objdelAtHome s.gr.ctx h))
    else if ((s.ctxRec s.gr.ctx).bind (fun c => c.objects.find? (fun o => o.handle == h && o.ending))).isSome then hold s
    else .next s)

/-- OBJDEL_AT_HOME: the object ends; once the requests queued before have run, its state stands in memory and the OBJDELs of the handle retire, their cores' L1 without it (R246, R282). -/
def execObjdelAtHome (ctx : Nat) (handle : BitVec 32) (s : State) : Host.Outcome State Fault Refusal :=
  .next (
    match (s.ctxRec ctx).bind (fun c => c.objects.find? (fun o => o.handle == handle)) with
    | none => s
    | some o =>
      let s1 := s.modObject ctx o.idx (fun x => { x with live := false })
      if !o.queue.isEmpty || o.running then s1
      else
        let waits : Stream → Bool := fun x => decide (x.status = .waitObjdel handle) &&
          s1.allGroups.any (fun g => g.gid == x.gid && g.ctx == ctx)
        let cores := (s1.allGroups.filter (fun g => (s1.allStreams.filter waits).any (fun x => x.gid == g.gid))).map Group.coreId
        (cores.foldl State.dropL1 s1).wake waits)

/-- The sectors of an object's state leave the core's L1, and held REDs on it are flushed: an OBJCALL is an atomic on the state (R166, R196, R255). -/
def State.touchState (s : State) (o : ObjSlot) : State :=
  (List.range (o.stateSize / 32 + 2)).foldl (fun t i =>
    let va := o.stateVa / 32 * 32 + 32 * i
    if o.stateVa + o.stateSize ≤ va then t
    else match t.walkVa t.gr.ctx va with
      | .page pa size _ false _ enc =>
        let l := devLoc (t.keyOf t.gr.ctx enc) (pa + va % size)
        (t.flushAt [l] 32).noteAtomic t.gr.coreId l
      | _ => t) s

/-- The requests of an OBJCALL, in ascending lane order (R247). -/
def State.objRequests (s : State) (p : Mask) (a h : BitVec 6) (m : BitVec 3) : List ObjRequest :=
  p.lanes.mapIdx (fun i l =>
    { id := s.nextId + i, ctx := s.gr.ctx, handle := s.reg l h.toNat, method := m, a0 := s.reg l a.toNat,
      a1 := s.reg l (a.toNat + 1), lane := l, sid := s.st.sid, at_ := 0 })

/-- One more engine command of the group has retired (R219). -/
def State.nextSeq (s : State) : State := s.modGr (fun g => { g with cmdseq := g.cmdseq + 1 })

/-- OBJCALL (R247, R284): the checks, the release that MODX may ask for, then its requests stand ready and the stream waits for the replies. An empty P retires at once. -/
def execObjcall (g : BitVec 4) (d a h : BitVec 6) (m : BitVec 3) (s : State) : Host.Outcome State Fault Refusal :=
  s.runN (
    let p := s.active g
    let bound := s.beyondIn p [a.toNat, a.toNat + 1, h.toNat, d.toNat]
    if 55 ≤ a.toNat || s.isWave then .trap .illegal s.st.exm s
    else if bound ≠ 0 then .trap .regBound bound s
    else if p = 0 then .next s.nextSeq
    else s.unlessOwed (fun s0 => s0.releasedIf (s.modx.getLsbD 1) (fun s1 =>
      let rs := s1.objRequests p a h m
      let objs := (rs.filterMap (fun r => s1.object s1.gr.ctx r.handle)).eraseDups
      let s2 := objs.foldl State.touchState s1
      .hold ((({ s2 with requests := s2.requests ++ rs, nextId := s2.nextId + rs.length } : State).modSt (fun x =>
        { x with status := .waitRequests, objMask := p, objErr := 0, objCause := none, objDest := d })).post (.objcallSend s.st.sid)))))

/-- The requests that a context has queued at a die. -/
def State.queuedAt (s : State) (ctx die : Nat) : Nat :=
  ((s.ctxRec ctx).map (fun c => (c.objects.filter (fun o => o.die == die)).foldl (fun n o => n + o.queue.length) 0)).getD 0

/-- The requests of a context that have been sent to a die and have still to arrive there. -/
def State.onTheWay (s : State) (ctx die : Nat) : Nat :=
  (s.requests.filter (fun r => r.ctx == ctx && r.handle.toNat / 2 ^ 30 == die &&
    s.allStreams.any (fun x => x.sid == r.sid && decide (x.status = .waitReplies)))).length

/-- Whether a die has room for more requests of a context, n d of them at die d: on chip, or in the overflow area that the context has for all dies (R247). -/
def State.objRoom (s : State) (ctx die : Nat) (n : Nat → Nat) : Bool :=
  let used : Nat → Nat := fun d => s.queuedAt ctx d + s.onTheWay ctx d + n d
  let spill := ((List.range Config.dies).map (fun d => used d - Config.objQueue)).sum
  decide (used die ≤ Config.objQueue) || decide (spill ≤ ((s.ctxRec ctx).map (·.overflow)).getD 0)

/-- OBJCALL_SEND: the requests of a stream go to their homes once there is room for them (R247). -/
def execObjcallSend (sid : Nat) (s : State) : Host.Outcome State Fault Refusal :=
  .next (
    match s.stream? sid with
    | none => s
    | some x =>
      let mine := s.requests.filter (fun r => r.sid == sid)
      let fits := (List.range Config.dies).all (fun die => (mine.filter (fun r => r.handle.toNat / 2 ^ 30 == die)).all (fun r =>
        s.objRoom r.ctx die (fun d => (mine.filter (fun q => q.handle.toNat / 2 ^ 30 == d)).length)))
      if x.status ≠ .waitRequests ∨ !fits then s
      else mine.foldl (fun t r => t.post (.objectRequestArrival r.id)) (s.modStream sid (fun y => { y with status := .waitReplies })))

/-- OBJECT_REQUEST_ARRIVAL: a request enters its object's queue; a handle that is not live gives an error reply with PROT (R247, R284). -/
def execObjectRequestArrival (id : Nat) (s : State) : Host.Outcome State Fault Refusal :=
  .next (
    match s.requests.find? (fun r => r.id == id) with
    | none => s
    | some r =>
      let s1 : State := { s with requests := s.requests.filter (fun x => x.id != id) }
      match s1.object r.ctx r.handle with
      | none => s1.sendReplies [{ id := id, sid := r.sid, lane := r.lane, value := 0, error := some .prot }]
      | some o =>
        (({ s1 with nextId := s1.nextId + 1 } : State).modObject r.ctx o.idx (fun x =>
          { x with queue := x.queue ++ [{ r with at_ := s1.nextId }] })).post (.conjugatorBatchStart o.die))

/-- The conjugator units of a die stand behind its cores. -/
def conjCore (unit : Nat) : Nat := Config.coresPerDie + unit

/-- The lowest of the four conjugator units of a die that runs no batch (R248). -/
def State.freeConj (s : State) (die : Nat) : Option Nat :=
  (List.range 4).find? (fun u => !s.allStreams.any (fun x => decide (x.kind = .wave u) && x.status != .ended &&
    s.allGroups.any (fun g => g.gid == x.gid && g.die == die && g.live)))

/-- Whether the batches of a context rest: it is suspended, and no unit of it waits for replies before its save any more (R254, R317). -/
def State.batchesRest (s : State) (ctx : Nat) : Bool :=
  s.ctxs.any (fun c => c.ctx == ctx && c.suspended) && !s.allUnits.any (fun u => u.live && u.uid != 0 && u.ctx == ctx)

/-- The head requests of the objects at a die that may start a batch: no batch of theirs runs and those of their context do not rest (R248, R254). -/
def State.heads (s : State) (die : Nat) : List (Nat × ObjSlot × ObjRequest) :=
  s.ctxs.flatMap (fun c => if s.batchesRest c.ctx then [] else c.objects.filterMap (fun o =>
    match o.queue with
    | r :: _ => if o.die = die ∧ !o.running then some (c.ctx, o, r) else none
    | [] => none))

/-- The object whose head request is the oldest (R248). -/
def oldest (hs : List (Nat × ObjSlot × ObjRequest)) : Option (Nat × ObjSlot × ObjRequest) :=
  match hs with
  | [] => none
  | h :: r => some (r.foldl (fun a b => if b.2.2.at_ < a.2.2.at_ then b else a) h)

/-- The longest run of requests with the head's method, up to 64 (R248). -/
def batchOf (o : ObjSlot) : List ObjRequest :=
  match o.queue with
  | [] => []
  | r :: _ => (o.queue.takeWhile (fun x => x.method == r.method)).take 64

/-- A lane of a wave: its window reads zero but for the arguments, and beyond it stand the words of the last batch of the same context (R12, R248, R249, R390). -/
def waveLane (left : List (Nat × Word)) (r : Option ObjRequest) : Lane :=
  let x : Lane := { Lane.start with col := left.filter (fun w => decide (18 ≤ w.1)) }
  match r with
  | some q => (x.putWord 256 0 q.a0).putWord 256 1 q.a1
  | none => x

/-- The group of a wave on conjugator unit u (R248, R249). PLACE (R58) has no core number for a unit that is none of the 36 cores: this one stands behind them, in partition 0 and slot 0 (log entry 70). -/
def State.waveGroup (s : State) (die u ctx : Nat) (reqs : List ObjRequest) : Group :=
  let c := ((s.dieRec die).conj[u]?).getD ⟨0, 0, 0, []⟩
  { Group.none with
    gid := s.nextId, ctx := ctx, width := 64, die := die, core := conjCore u, allot := 256, ilp := 48, fa := c.fa, faw := 2048,
    da := c.da, alive := Mask.below reqs.length, live := true,
    lanes := (List.range 64).map (fun l => waveLane (if c.owner = ctx then c.cols.getD l [] else []) reqs[l]?) }

/-- Where a batch's start can stop. -/
inductive BatchStop where
  | ready (s : State)
  | waits (s : State)
  | dead (c : Cause)
deriving DecidableEq, Repr

/-- The pages that a batch needs before it starts: the method's table entry, and its state with both read and write (R179, R245). -/
def State.batchPages (s : State) (pages : List (Nat × BitVec 3)) : BatchStop :=
  match pages with
  | [] => .ready s
  | (va, need) :: r =>
    match s.translate s.gr.coreId s.gr.ctx va need with
    | .ok _ => s.batchPages r
    | .absent h => .waits (s.methodFault [{ lane := 0, va := va, write := need.getLsbD 1, host := h, spill := false, refused := false, settled := none }])
    | .walk ats => .waits ((s.queueWalk s.gr.coreId s.gr.ctx va need ats).modSt (fun x => { x with status := .waitWalk }))
    | _ => .dead .prot

/-- The issuing wave starts, or starts again, from its beginning (R248, R252): its pages and its method's code are there, its state lines are synchronisation lines of the home engine, and the start acquires (R255). -/
def State.startBatch (s : State) : State :=
  match s.st.wave, s.st.kind with
  | some w, .wave u =>
    let m : Nat := ((w.reqs[0]?).map (fun (r : ObjRequest) => r.method.toNat)).getD 0
    let table := (((s.ctxRec s.gr.ctx).bind (fun c => c.objects.find? (fun o => o.idx == w.obj))).map (·.table)).getD 0 + 8 * m
    let pages := (table, needR) :: (List.range (w.stateSize / 4096 + 2)).filterMap (fun i =>
      let va := if i = 0 then w.stateVa else w.stateVa / 4096 * 4096 + 4096 * i
      if va < w.stateVa + w.stateSize then some (va, needRW) else none)
    match s.batchPages pages with
    | .dead c => s.abortWave c
    | .waits t => t
    | .ready s1 =>
      match s1.translate s1.gr.coreId s1.gr.ctx table needR with
      | .ok l =>
        let entry : CodeVa := BitVec.ofNat 57 (s1.getN l 8)
        if entry = 0 then s1.abortWave .illegal
        else if !s1.segPresent entry then
          match s1.fetchMethod (segOf entry) with
          | .hold t => t
          | _ => s1.abortWave .prot
        else
          let n := w.reqs.length
          let g := s1.waveGroup s1.gr.die u s1.gr.ctx w.reqs
          let x := Stream.start s1.st.sid s1.gr.gid (.wave u) entry (Mask.below n)
          let s2 := s1.modGr (fun y => { g with gid := y.gid })
          let lines := (List.range (w.stateSize / 128 + 2)).filterMap (fun i =>
            let va := if i = 0 then w.stateVa else w.stateVa / 128 * 128 + 128 * i
            if va < w.stateVa + w.stateSize then
              (match s2.translate s2.gr.coreId s2.gr.ctx va needRW with
                | .ok q => some q
                | _ => none)
            else none)
          (((lines.foldl State.syncLine s2).dropL1 s2.gr.coreId).countDie s2.gr.die 5 1).modSt (fun y =>
            { x with
              faults := y.faults, served := y.served,
              sregs := ((((x.sregs.set 0 (BitVec.ofNat 32 w.stateVa)).set 1 (BitVec.ofNat 32 (w.stateVa / 2 ^ 32))).set 2
                (BitVec.ofNat 32 n)).set 3 (BitVec.ofNat 32 m)),
              tb := x.tb.set 0 (s2.tbBinding w.stateVa w.stateSize),
              wave := some { w with started := true, buf := [], replies := [], start := s2.dev.clock.toNat } })
      | _ => s1.abortWave .prot
  | _, _ => s

/-- A wave placed on a conjugator unit for a batch of an object. -/
def State.placeWave (s : State) (die u ctx : Nat) (o : ObjSlot) : State :=
  let reqs := batchOf o
  let g := s.waveGroup die u ctx reqs
  let w : Wave := { obj := o.idx, started := false, refused := [], reqs := reqs, replies := [], buf := [], start := 0,
                    stateVa := o.stateVa, stateSize := o.stateSize }
  let x : Stream := { Stream.start (s.nextId + 1) g.gid (.wave u) 0 g.alive with wave := some w }
  { s.modObject ctx o.idx (fun y => { y with running := true, queue := y.queue.drop reqs.length }) with
    groups := s.groups ++ [g], streams := s.streams ++ [x], nextId := s.nextId + 2 }

/-- OBJCALLs that wait for room look again (R247). -/
def State.roomFreed (s : State) : State :=
  (s.allStreams.filter (fun x => decide (x.status = .waitRequests))).foldl (fun t x => t.post (.objcallSend x.sid)) s

/-- CONJUGATOR_BATCH_START: a free unit of the die takes the oldest head request's run as a wave (R248). -/
def execConjugatorBatchStart (die : Nat) (s : State) : Host.Outcome State Fault Refusal :=
  .next (
    match s.freeConj die, oldest (s.heads die) with
    | some u, some (ctx, o, _) =>
      let s1 := s.placeWave die u ctx o
      ((s1.focus (s.nextId + 1)).startBatch.roomFreed).post (.conjugatorBatchStart die)
    | _, _ => s)

/-- METHOD_FAULT_RERUN: after the repair the batch starts again, once its context runs (R254); a fault declared unrecoverable aborts it (R248, R252). -/
def execMethodFaultRerun (sid : Nat) (s : State) : Host.Outcome State Fault Refusal :=
  .next (
    let t := s.focus sid
    if t.st.sid ≠ sid ∨ !t.isWave ∨ t.st.status ≠ .parked ∨ t.st.faults.any (fun f => f.settled.isNone) then t
    else if t.st.faults.any (fun f => f.settled == some false) then t.abortWave .prot
    else if t.batchesRest t.gr.ctx then t.modSt (fun x => { x with status := .runnable })
    else (t.modSt (fun x => { x with status := .runnable })).startBatch)

/-- OBJECT_BATCH_WATCHDOG: a batch that still runs 2^20 cycles after its start is aborted (R252). -/
def execObjectBatchWatchdog (sid : Nat) (s : State) : Host.Outcome State Fault Refusal :=
  .next (
    let t := s.focus sid
    match t.st.wave with
    | some w => if t.st.sid = sid ∧ w.started ∧ w.start + 2 ^ 20 ≤ t.dev.clock.toNat then t.abortWave .watchdog else t
    | none => t)

/-- The replies of OBJRET that a batch keeps until its end; a lane's first one stands (R250, R285). -/
def State.objReply (s : State) (g : BitVec 4) (a : BitVec 6) (isErr : Bool) : Verdict :=
  let p := s.active g
  let bound := s.beyondIn p [a.toNat]
  if !s.isWave then .trap .illegal s.st.exm s
  else if bound ≠ 0 then .trap .regBound bound s
  else .next (s.modSt (fun x => { x with wave := x.wave.map (fun w =>
    { w with replies := w.replies ++ (p.lanes.filter (fun l => !w.replies.any (fun r => r.1 == l))).map (fun l =>
        (l, s.reg l a.toNat, isErr)) }) }))

/-- OBJRET (R285). -/
def execObjret (g : BitVec 4) (a : BitVec 6) (s : State) : Host.Outcome State Fault Refusal := s.run (s.objReply g a false)
/-- OBJRET.ERR (R285). -/
def execObjretErr (g : BitVec 4) (a : BitVec 6) (s : State) : Host.Outcome State Fault Refusal := s.run (s.objReply g a true)

/-- The buffered bytes of a batch as writes, or where their translation stops (R250). -/
def State.commitWrites (s : State) (buf : List (Nat × Byte)) : Except (Nat × Trans) (List (Loc × Byte)) :=
  match buf with
  | [] => .ok []
  | (va, v) :: r =>
    match s.translate s.gr.coreId s.gr.ctx va needRW with
    | .ok l => (s.commitWrites r).map (fun ws => (l, v) :: ws)
    | t => .error (va, t)

/-- The replies that a batch's requests have at its end: a lane that has not replied has an error reply with OBJERR (R250). -/
def Wave.finalReplies (w : Wave) : List ObjReply :=
  w.reqs.mapIdx (fun i r =>
    match w.replies.find? (fun y => y.1 == i) with
    | some (_, v, false) => { id := r.id, sid := r.sid, lane := r.lane, value := v, error := none }
    | _ => { id := r.id, sid := r.sid, lane := r.lane, value := 0, error := some .objerr })

/-- OBJEND (R250, R283): the buffer is committed at once, the replies go out and the wave ends. A page that has gone since is a method fault. -/
def execObjend (g : BitVec 4) (s : State) : Host.Outcome State Fault Refusal :=
  s.run (
    if !s.isWave then .trap .illegal s.st.exm s
    else if !s.uniGuard g then .next s
    else
      let w := s.st.wave.getD ⟨0, false, [], [], [], [], 0, 0, 0⟩
      match s.commitWrites w.buf with
      | .ok ws =>
        .moved (((ws.foldl (fun t x => (t.putByte x.1 x.2).syncLine x.1) s).sendReplies w.finalReplies).endWave)
      | .error (va, .absent h) =>
        .hold (s.methodFault [{ lane := 0, va := va, write := true, host := h, spill := false, refused := false, settled := none }])
      | .error (va, .walk ats) => .hold ((s.queueWalk s.gr.coreId s.gr.ctx va needRW ats).modSt (fun x => { x with status := .waitWalk }))
      | .error _ => .trap .prot s.st.exm s)

/-- The error replies of an OBJCALL: the lanes, and the cause of the lowest of them (R253). -/
def Stream.noteReply (x : Stream) (r : ObjReply) : Stream :=
  match r.error with
  | .none => { x with objMask := x.objMask.minus (Mask.one r.lane) }
  | some c =>
    { x with objMask := x.objMask.minus (Mask.one r.lane), objErr := x.objErr ||| Mask.one r.lane,
             objCause := if x.objErr = 0 ∨ r.lane < x.objErr.lowest then some c else x.objCause }

/-- The issuing OBJCALL has every reply: it retires, and before the next instruction traps OBJERR if some were error replies (R253, R255, R284). -/
def State.retireObjcall (s : State) : State :=
  let at_ := s.instrPc
  let word := s.trapWord
  let seq := s.gr.cmdseq
  let errs := s.st.objErr
  let cause := s.st.objCause.getD .objerr
  let s1 := (if s.modx.getLsbD 0 then (s.flushHeld s.st.sid).acquire s.scope else s).nextSeq.modSt (fun x =>
    { x with status := .runnable, objErr := 0, objCause := none })
  if errs = 0 then State.finish s true (.next s1)
  else ((s1.settle s).advance.markRestart).takeTrap .objerr errs []
    { TrapInfo.plain with fl := BitVec.ofNat 24 (cause.code.toNat * 2 ^ 16), cmdPc := at_, cmdSeq := seq, instr := some word }

/-- OBJECT_REPLY_ARRIVAL: the reply writes D in its lane, 0 for an error; the last one retires the OBJCALL (R253, R284). -/
def execObjectReplyArrival (id : Nat) (s : State) : Host.Outcome State Fault Refusal :=
  .next (
    match s.replies.find? (fun r => r.id == id) with
    | none => s
    | some r =>
      let s1 : State := { s with replies := s.replies.filter (fun x => x.id != id) }
      match s1.stream? r.sid with
      | none => s1
      | some x =>
        if !x.objMask.has r.lane then s1
        else
          let t := s1.focus r.sid
          let t1 := (t.landLane t.gr.gid r.lane [((t.lane r.lane).winWord t.st.objDest.toNat, if r.error.isSome then 0 else r.value)]).modSt
            (fun y => y.noteReply r)
          if t1.st.objMask = 0 then t1.retireObjcall else t1)

end Sys2Proof.Machine
end

