-- ==== Sys2Proof/Machine/Work.lean ====
section
/-!
DEFINITION. Work: launch records (R259, R260, R364), levels and their counters (R257, R258, R261, R287, R399), completion records (R365 to R367), LAUNCH, CNTINC, CNTWAIT, CANCEL, CNTRD (R286, R287), SYSCALL (R330), and the events DOORBELL_DMWR, DOORBELL_POSTED_WRITE, RECORD_VALIDATION, LAUNCH_RECORD_READ, LAUNCH_FIRE, LAUNCH_COMPLETE and SYSCALL_REPLY.
-/
namespace Sys2Proof.Machine

/-- The fields of a launch record of 32 words (R259). -/
def LaunchRec.parse (ws : List Word) : LaunchRec :=
  let w : Nat → Nat := fun i => (ws.getD i 0).toNat
  let va : Nat → Nat := fun i => (w i + w (i + 1) * 2 ^ 32) % 2 ^ 57
  { queue := w 0 / 2 ^ 25 % 8, coop := (w 0).testBit 24, dyn := (w 0).testBit 23, node := (w 0).testBit 22,
    lastn := (w 0).testBit 21, nb := w 0 / 2 ^ 8 % 2 ^ 8, ilpc := w 0 / 2 ^ 5 % 8, widthc := w 0 / 2 ^ 3 % 4,
    tag := BitVec.ofNat 16 (w 1), entry := va 2, argva := va 4, units := w 6, cores := w 7 / 2 ^ 16 % 8,
    threads := w 7 % 2 ^ 16, cntva := va 8, scratch := w 10 / 2 ^ 16 % 2 ^ 10, acc := w 10 / 2 ^ 8 % 2 ^ 5,
    allotc := w 10 % 2 ^ 6, faw := w 11, pool := va 12, slots := w 14, deps := w 15 % 2 ^ 16, nodeidx := w 16 / 2 ^ 16,
    graph := w 16 % 2 ^ 16, phase := w 17 % 2 ^ 16,
    succ := (List.range 8).map (fun i => w (18 + i / 2) / 2 ^ (16 * (i % 2)) % 2 ^ 16) }

/-- The 32 words of 128 bytes. -/
def wordsOf (data : List Byte) : List Word :=
  (List.range 32).map (fun i => BitVec.ofNat 32 (gatherLE (fun k => data.getD (4 * i + k) 0) 4))

/-- The width of a record's groups. -/
def LaunchRec.width (r : LaunchRec) : Nat := 8 * 2 ^ r.widthc

/-- The groups of one of its units (R123). -/
def LaunchRec.groups (r : LaunchRec) : Nat := (r.threads + r.width - 1) / r.width

/-- The bytes of a pool slot (R259). -/
def LaunchRec.slotBytes (r : LaunchRec) : Nat := (r.faw * 4 * r.width + 16384 + 127) / 128 * 128

/-- A group of one of its units before it has a place: group i of the unit. -/
def LaunchRec.group (r : LaunchRec) (i : Nat) : Group :=
  { Group.none with
    sgrp := i, width := r.width, allot := 64 * r.allotc, ilp := 12 * 2 ^ r.ilpc, faw := r.faw,
    alive := Mask.below (min r.width (r.threads - i * r.width)), lanes := List.replicate r.width Lane.start,
    tiles := List.replicate r.acc ⟨.empty, []⟩, live := true }

/-- Whether a partition with the groups occ admits g at segment seg and slot slot (R120, R121). -/
def admits (occ : List Group) (g : Group) (part seg slot : Nat) : Bool :=
  let here := occ.filter (fun x => x.part == part)
  !here.any (fun x => x.slot == slot) && decide (here.length < 16) && decide ((here.map (·.ilp)).sum + g.ilp ≤ 192) &&
    decide ((here.map (fun x => x.tiles.length)).sum + g.tiles.length ≤ 16) &&
    (List.range (g.width / 8)).all (fun j => decide (((here.filter (fun x =>
      decide (x.seg ≤ seg + j) && decide (seg + j < x.seg + x.width / 8))).map (·.allot)).sum + g.allot ≤ 2048))

/-- The lowest start at which n units are free of the intervals of a list and below a limit. -/
def lowestFree (used : List (Nat × Nat)) (n limit : Nat) : Option Nat :=
  let free : Nat → Bool := fun b => decide (b + n ≤ limit) && !used.any (fun u => decide (u.1 < b + n) && decide (b < u.1 + u.2))
  ((0 :: used.map (fun u => u.1 + u.2)).filter free).foldl (fun m b => match m with
    | none => some b
    | some x => some (min x b)) none

/-- The lowest words and tiles of a partition with the groups here that are free for g at segment seg. -/
def roomFor (here : List Group) (g : Group) (seg : Nat) : Option (Nat × Nat) :=
  let others := here.filter (fun x => decide (x.seg < seg + g.width / 8) && decide (seg < x.seg + x.width / 8))
  match lowestFree (others.map (fun x => (x.fsBase, x.allot))) g.allot 2048,
    lowestFree ((here.filter (fun x => !x.tiles.isEmpty)).map (fun x => (x.acc, x.tiles.length))) g.tiles.length 16 with
  | some b, some t => some (b, t)
  | _, _ => none

/-- The lowest place of a core with the groups occ for g: partition, first segment, slot, words and tiles (R120, R121; log entry 12). -/
def seatOf (occ : List Group) (g : Group) : Option Group :=
  (List.range 4).findSome? (fun p =>
    (List.range (64 / g.width)).findSome? (fun k =>
      (List.range 16).findSome? (fun slot =>
        if admits occ g p (k * (g.width / 8)) slot then
          (roomFor (occ.filter (fun x => x.part == p)) g (k * (g.width / 8))).map (fun r =>
            { g with part := p, seg := k * (g.width / 8), slot := slot, fsBase := r.1, acc := r.2 })
        else none)))

/-- Places for the groups of a list on a core with the groups occ, if all of them find one. -/
def seatAll (occ gs : List Group) : Option (List Group) :=
  match gs with
  | [] => some []
  | g :: r =>
    match seatOf occ g with
    | none => none
    | some x => (seatAll (x :: occ) r).map (x :: ·)

/-- The cores of a unit, and how many groups stand on each: consecutive runs of equal length (R124; log entry 12). -/
def LaunchRec.coreCount (r : LaunchRec) : Nat := if r.coop then r.cores + 1 else 1
def LaunchRec.perCore (r : LaunchRec) : Nat := (r.groups + r.coreCount - 1) / r.coreCount

/-- The groups of a unit that stand on its k-th core. -/
def LaunchRec.coreGroups (r : LaunchRec) (k : Nat) : List Group :=
  ((List.range r.groups).filter (fun i => decide (i / max 1 r.perCore = k))).map r.group

/-- The position of the first condition of R260 that a record meets; none where the intake takes it. -/
def LaunchRec.refusal (r : LaunchRec) : Option Nat :=
  if 4 < r.ilpc then some 1
  else if r.threads = 0 ∨ (!r.coop ∧ 1024 < r.threads) ∨ 32768 < r.threads then some 2
  else if r.coop ∧ 64 * (r.cores + 1) < r.groups then some 3
  else if 128 < r.nb ∨ 16 < r.acc ∨ 511 < r.scratch ∨ r.allotc < 1 ∨ 32 < r.allotc then some 4
  else if r.faw < 64 then some 5
  else if r.slots < r.groups then some 6
  else if (List.range r.coreCount).any (fun k => decide (64 < (r.coreGroups k).length) || (seatAll [] (r.coreGroups k)).isNone) then some 7
  else if r.entry % 4 ≠ 0 ∨ r.cntva % 4 ≠ 0 ∨ r.pool % 128 ≠ 0 then some 8
  else none

/-- The template of a context that an entry names (R348). -/
def Ctx.template (c : Ctx) (entry : Nat) : Option Template := c.templates.find? (fun t => t.entry == entry)

/-- A record as the intake takes it: a launch of a template has width 32, or 16 for at most 16 threads, and ILP 24 (R347, log entry 79). -/
def Ctx.shaped (c : Ctx) (r : LaunchRec) : LaunchRec :=
  if (c.template r.entry).isSome then { r with widthc := if r.threads ≤ 16 then 1 else 2, ilpc := 1 } else r

/-- The record of a launch as a context's intake takes it. -/
def State.shaped (s : State) (ctx : Nat) (r : LaunchRec) : LaunchRec := ((s.ctxRec ctx).map (fun c => c.shaped r)).getD r

/-- Whether a record asks for more threads than its template accepts (R345, log entry 79). -/
def State.overThreads (s : State) (ctx : Nat) (r : LaunchRec) : Bool :=
  (((s.ctxRec ctx).bind (fun c => c.template r.entry)).map (fun t => decide (t.threads < r.threads))).getD false

/-- The position of the condition on which the intake refuses a record of a context. -/
def State.refusal (s : State) (ctx : Nat) (r : LaunchRec) : Option Nat :=
  match r.refusal with
  | some n => some n
  | none => if s.overThreads ctx r then some 2 else none

/-- A completion record stands to be written (R365, R367). -/
def State.complete (s : State) (ctx : Nat) (tag : BitVec 16) (units : Nat) (lid : Word) (status : Nat) (detail : BitVec 8) (time : Nat) : State :=
  match s.ctxRec ctx with
  | none => s
  | some c =>
    let old : BitVec 8 := ((c.gens.find? (fun x => x.1 == tag.toNat)).map (·.2)).getD 0
    let gen : BitVec 8 := if old + 1 = 0 then 1 else old + 1
    let ws : List Word := [BitVec.ofNat 32 (gen.toNat * 2 ^ 24 + status * 2 ^ 16 + tag.toNat), BitVec.ofNat 32 units, lid,
      detail.setWidth 32, BitVec.ofNat 32 time, BitVec.ofNat 32 (time / 2 ^ 32), 0, 0]
    ({ s.modCtx ctx (fun x => { x with gens := (x.gens.filter (fun y => y.1 != tag.toNat)) ++ [(tag.toNat, gen)] }) with
      records := s.records ++ [{ ctx := ctx, va := c.carray + 32 * tag.toNat, words := ws, begun := false }] } : State).post (.launchComplete 0)

/-- The places of words that the device accesses for a context on a die; else how many have one, with the first that has none and why. -/
def State.sysAsks (s : State) (die ctx who : Nat) (need : BitVec 3) (vas : List Nat) : Except (Nat × Nat × Trans) (List Loc) :=
  match vas with
  | [] => .ok []
  | a :: r =>
    match (s.engAsk die ctx a need who false).struck s true 4 with
    | .ok l =>
      match s.sysAsks die ctx who need r with
      | .ok ls => .ok (l :: ls)
      | .error e => .error (e.1 + 1, e.2)
    | x => .error (0, a, x)

/-- The places of words that the device accesses for a context on a die, for the requester who: else the state in which a walk or a repair is waited for, with the address (R300, R324, R327). -/
def State.sysPlaces (s : State) (die ctx who : Nat) (need : BitVec 3) (vas : List Nat) : Except (State × Nat) (State × List Loc) :=
  let walks : List Nat → State := fun xs => xs.foldl (fun t x => t.engWalk die ctx x) s
  match s.sysAsks die ctx who need vas with
  | .ok ls => .ok (walks vas, ls)
  | .error (done, a, x) =>
    let before := walks (vas.take done)
    let t := before.engWalk die ctx a
    .error (match x with
      | .absent h => (t.dropAnswersOf who).tellFault die ctx a need h false
      | .walk ats => before.queueWalk (engineCore die) ctx a need ats
      | .refused h => if (s.window ctx a).isSome then before.ask (.deviceFault ctx a true) else (t.dropAnswersOf who).tellFault die ctx a need h true
      | _ => before.ask (.deviceFault ctx a true), a)

/-- Words written at places. -/
def State.putPlaces (s : State) (ls : List Loc) (ws : List Word) : State := (ls.zip ws).foldl (fun t x => t.putN x.1 x.2.toNat 4) s

/-- A posted write of the device: in host memory the host sees it, in the order in which such writes go (R367). -/
def State.posted (s : State) (ls : List Loc) (ws : List Word) : State :=
  match ls with
  | .host a :: _ => (s.putPlaces ls ws).say (.posted a ws)
  | _ => s.putPlaces ls ws

/-- Whether a device access of a context travels to a peer (R354). -/
def State.travels (s : State) (ctx va : Nat) : Bool := (s.window ctx va).isSome && s.linked

/-- The words of pieces, each at its VA. -/
def pieceWords (ps : List (Nat × List Word)) : List (Nat × Word) := ps.flatMap (fun p => p.2.zipIdx.map (fun x => (p.1 + 4 * x.2, x.1)))

/-- Pieces of words that the device writes at VAs of a context, in device or host memory or at a peer, for the requester who: none before all can be; else the state in which it waits, with the address (R354, R367). -/
def State.sysPut (s : State) (die ctx who : Nat) (ps : List (Nat × List Word)) : Except (State × Nat) State :=
  let near : List (Nat × Word) → List (Nat × Word) := fun xs => xs.filter (fun x => !s.travels ctx x.1)
  let far := (pieceWords ps).filter (fun x => s.travels ctx x.1)
  match s.sysPlaces die ctx who needW ((near (pieceWords ps)).map (·.1)) with
  | .error e => .error e
  | .ok (t, ls) =>
    match t.farValues who ctx (far.map (fun x => (x.1, .write 4 (x.2.setWidth 128)))) with
    | .error e => .error e
    | .ok _ =>
      .ok ((ps.foldl (fun (u : State × List Loc) p =>
        let ws := (near (pieceWords [p])).map (·.2)
        (u.1.posted (u.2.take ws.length) ws, u.2.drop ws.length)) (t, ls)).1.dropFar who ctx (far.map (·.1)))

/-- A word that the device reads so, before it writes it. -/
def State.sysGet (s : State) (die ctx who va : Nat) : Except (State × Nat) (State × Word) :=
  if s.travels ctx va then (s.farValues who ctx [(va, .read 4)]).map (fun vs => (s, ((vs[0]?).getD 0).setWidth 32))
  else (s.sysPlaces die ctx who needRW [va]).map (fun x => (x.1, BitVec.ofNat 32 (((x.2[0]?).map (fun l => s.getN l 4)).getD 0)))

/-- A completion record goes on: bytes 0x04 to 0x1F as one posted write, then bytes 0x00 to 0x03, then the MSI-X message; a fault on the array makes it wait (R367). The flag says whether it did go on. -/
def State.writeRecord (s : State) (r : CompletionRec) : State × Bool :=
  let others : List CompletionRec → List CompletionRec := fun rs => rs.filter (fun x => decide (x ≠ r))
  let (va, ws) := if r.begun then (r.va, r.words.take 1) else (r.va + 4, r.words.drop 1)
  match s.sysPut 0 r.ctx 0 [(va, ws)] with
  | .error (t, _) => (t, false)
  | .ok t =>
    let s1 : State := { t with records := if r.begun then others t.records else others t.records ++ [{ r with begun := true }] }
    match r.begun, s.ctxRec r.ctx with
    | true, some c => (s1.say (.msix c.complex c.vector), true)
    | _, _ => (s1, true)

/-- Each completion record that can goes on one write; the next writes follow. -/
def State.writeRecords (s : State) : State :=
  let r := s.records.foldl (fun (x : State × Bool) r => let y := x.1.writeRecord r; (y.1, x.2 || y.2)) (s, false)
  if r.2 && !r.1.records.isEmpty then r.1.post (.launchComplete 0) else r.1

/-- A signed value added to a 32-bit completion counter, which stops at 0 (R257, R287). -/
def bumpCount (c : Word) (n : Int) : Word := BitVec.ofInt 32 (max ((c.toNat : Int) + n) 0)

/-- The next launch number of a context (R399). -/
def nextLaunch (n : BitVec 16) : BitVec 16 := if n + 1 = 0 then 1 else n + 1

/-- A counter by kind and id. -/
def State.counter? (s : State) (kind ctx id : Nat) : Option Counter := s.counters.find? (fun c => c.kind == kind && c.ctx == ctx && c.id == id)

/-- A counter changed. -/
def State.modCounter (s : State) (kind ctx id : Nat) (f : Counter → Counter) : State :=
  { s with counters := s.counters.map (fun c => if c.kind = kind ∧ c.ctx = ctx ∧ c.id = id then f c else c) }

/-- Streams that wait on a counter look again (R257). -/
def State.wakeCounters (s : State) (ctx : Nat) : State :=
  s.wake (fun x => (match x.status with
    | .waitCounter _ _ => true
    | _ => false) && s.allGroups.any (fun g => g.gid == x.gid && g.ctx == ctx))

/-- Graphs that are complete leave their phases, and phases that are complete go (R257). -/
def State.settleLevels (s : State) (ctx : Nat) : State :=
  let isOver : Nat → Counter → Bool := fun kind c => c.kind == kind && c.ctx == ctx && c.closed && decide (c.count = 0)
  let gone := s.counters.filter (isOver 1)
  let s1 : State := { s with counters := s.counters.filter (fun c => !isOver 1 c && !(c.kind == 4 && c.ctx == ctx && gone.any (fun g => g.id == c.id))) }
  let s2 := gone.foldl (fun t g => t.modCounter 2 ctx g.node (fun c => { c with count := bumpCount c.count (-1) })) s1
  let s3 : State := { s2 with counters := s2.counters.filter (fun c => !isOver 2 c) }
  (s3.wakeCounters ctx).post (.launchFire ctx)

/-- Whether every phase of a context below p has completed (R261). -/
def State.phasesBelow (s : State) (ctx p : Nat) : Bool := !s.counters.any (fun c => c.kind == 2 && c.ctx == ctx && decide (c.id < p))

/-- A graph-node counter changed by n; it starts at 0, and a predecessor that completes before the node arrives takes it below (R261). -/
def State.bumpNode (s : State) (ctx graph node : Nat) (n : Word) : State :=
  let at_ : Counter → Bool := fun c => c.kind == 4 && c.ctx == ctx && c.id == graph && c.node == node
  if s.counters.any at_ then
    { s with counters := s.counters.map (fun c => if at_ c then { c with count := c.count + n } else c) }
  else { s with counters := s.counters ++ [(⟨4, ctx, graph, node, n, false, false⟩ : Counter)] }

/-- The graph of a record: its id, if it belongs to one. -/
def QueuedRec.graph (q : QueuedRec) : Option Nat := if q.graphid = 0 then none else some (q.graphid.toNat - 0x10000)

/-- A record of a phase arrives: it closes the lower phases, and its own phase has a counter, which a record of a higher phase that came before has closed (R257; log entry 73). -/
def State.arrivePhase (s : State) (ctx : Nat) (q : QueuedRec) : State :=
  let p := q.phaseid.toNat
  let top := ((s.ctxRec ctx).map (·.topPhase)).getD 0
  let s1 : State := { s.modCtx ctx (fun c => { c with topPhase := max c.topPhase p }) with
    counters := s.counters.map (fun c => if c.kind = 2 ∧ c.ctx = ctx ∧ c.id < p then { c with closed := true } else c) }
  if (s1.counter? 2 ctx p).isSome then s1
  else { s1 with counters := s1.counters ++ [(⟨2, ctx, p, 0, 0, decide (p < top), false⟩ : Counter)] }

/-- A record that has passed validation enters the levels it belongs to (R257, R261): the job counts it, its phase knows it, a node joins its graph, whose first node joins it to its phase, and its arrival adds DEPS to its counter. A child's graph has counted it already (R264). -/
def State.enterLevels (s : State) (ctx : Nat) (q : QueuedRec) : State :=
  let s1 := s.modCtx ctx (fun c => { c with jobCount := c.jobCount + 1 })
  let s2 : State :=
    if q.child then s1
    else
      let a := s1.arrivePhase ctx q
      match q.graph with
      | none => a
      | some g =>
        let p := q.phaseid.toNat
        let b : State := if (a.counter? 1 ctx g).isSome then a else
          ({ a with counters := a.counters ++ [(⟨1, ctx, g, p, 0, false, false⟩ : Counter)] } : State).modCounter 2 ctx p (fun c =>
            { c with count := c.count + 1 })
        (b.modCounter 1 ctx g (fun c => { c with count := c.count + 1, closed := c.closed || q.fields.lastn })).bumpNode ctx g
          q.fields.nodeidx (BitVec.ofNat 32 q.fields.deps)
  s2.settleLevels ctx

/-- A record that arrives beneath a cancelled level is dropped, but its phase and its graph hear of it: a LASTN node closes its graph (R257, R258). -/
def State.arriveCancelled (s : State) (ctx : Nat) (q : QueuedRec) : State :=
  let a := s.arrivePhase ctx q
  (match q.graph with
    | some g => if q.fields.lastn then a.modCounter 1 ctx g (fun c => { c with closed := true }) else a
    | none => a).settleLevels ctx

/-- A launch leaves the levels above it: its successors' counters and its graph go down by 1, and the job (R257, R261). -/
def State.leaveLevels (s : State) (ctx : Nat) (fields : LaunchRec) (graphid : Word) (child : Bool) : State :=
  let g := graphid.toNat - 0x10000
  let s1 := s.modCtx ctx (fun c => { c with jobCount := bumpCount c.jobCount (-1) })
  let s2 :=
    if graphid = 0 then s1
    else
      ((if child then [] else fields.succ.filter (· != 0xFFFF)).foldl (fun t n => t.bumpNode ctx g n (-1)) s1).modCounter 1 ctx g
        (fun c => { c with count := bumpCount c.count (-1) })
  s2.settleLevels ctx

/-- Queue q of a context. -/
def Ctx.queue (c : Ctx) (q : Nat) : List QueuedRec := c.queues.getD q []

/-- The records of queue q, the children that it has still to take behind them. -/
def Ctx.waiting (c : Ctx) (q : Nat) : List QueuedRec := c.queue q ++ c.children.filter (fun x => x.fields.queue == q)

/-- A queue changed. -/
def State.modQueue (s : State) (ctx q : Nat) (f : List QueuedRec → List QueuedRec) : State :=
  s.modCtx ctx (fun c => { c with queues := c.queues.modify q f })

/-- An entry that a context's queue has freed goes to the first child that waits for one of that queue (R286, R364; log entry 74). -/
def State.takeChild (s : State) (ctx q : Nat) : State :=
  match s.ctxRec ctx with
  | none => s
  | some c =>
    match c.children.find? (fun x => x.fields.queue == q) with
    | none => s
    | some x =>
      if 64 ≤ (c.queue q).length then s
      else (s.modCtx ctx (fun y => { y with children := y.children.filter (fun z => z.lnum != x.lnum) })).modQueue ctx q (fun l => l ++ [x])

/-- A record leaves its queue. -/
def State.unqueue (s : State) (ctx q : Nat) (n : BitVec 16) : State :=
  ((s.modCtx ctx (fun c => { c with children := c.children.filter (fun x => x.lnum != n) })).modQueue ctx q (fun l => l.filter (fun x => x.lnum != n))).takeChild ctx q

/-- A record changed, in its queue or before it. -/
def State.modRecord (s : State) (ctx q : Nat) (n : BitVec 16) (f : QueuedRec → QueuedRec) : State :=
  let one : QueuedRec → QueuedRec := fun x => if x.lnum = n then f x else x
  (s.modCtx ctx (fun c => { c with children := c.children.map one })).modQueue ctx q (fun l => l.map one)

/-- The submission page bound to a context and a PASID: one of 16,384 of the host port, or of die 2's port behind them (R360, R363). -/
def State.submitPage (s : State) (page : Nat) : Option SubmitPage :=
  if page < 16384 ∨ (s.dev.trained.contains 2 ∧ page < 32768) then
    s.submit.find? (fun p => p.page == page && (s.ctxRec p.ctx).any (fun c => c.complex == page / 16384))
  else none

/-- What a read of a bound submission page gives: word q at 0x800 + 4q holds the free entries of queue q (R363). -/
def State.submitWord (s : State) (page off : Nat) : Word :=
  if 0x800 ≤ off ∧ off < 0x820 then
    match (s.submitPage page).bind (fun p => s.ctxRec p.ctx) with
    | some c => BitVec.ofNat 32 (64 - (c.queue ((off - 0x800) / 4)).length)
    | none => 0
  else 0

/-- A record from outside put behind its queue; it is numbered as it is read (R364, R399). -/
def State.enqueue (s : State) (ctx q : Nat) (x : LaunchRec) : State :=
  let r := s.shaped ctx x
  let n := ((s.ctxRec ctx).map (fun c => nextLaunch c.launches)).getD 1
  let y : QueuedRec :=
    { lnum := n, fields := { r with queue := q }, valid := false, graphid := if r.node then BitVec.ofNat 32 (0x10000 + r.graph) else 0,
      phaseid := BitVec.ofNat 32 r.phase, child := false, count := BitVec.ofNat 32 (if r.dyn then 0 else r.units) }
  ((s.modCtx ctx (fun c => { c with launches := n })).modQueue ctx q (fun l => l ++ [y])).post (.recordValidation ctx q)

/-- Whether the device takes launches: it runs, and a service pair is in service (R384, R389). -/
def State.accepting (s : State) : Bool := decide (s.dev.phase = .running) && s.dies.any (·.pairOk)

/-- DOORBELL_DMWR (R363, R364): answers 0 success, 1 retry, 2 unsupported request. The record's queue is the doorbell's. -/
def execDoorbellDmwr (page off pasid : Nat) (data : List Byte) (s : State) : Host.Outcome State Fault Refusal :=
  .next (
    let refuse := s.say (.doorbell page 2)
    match s.submitPage page with
    | none => refuse
    | some p =>
      match s.ctxRec p.ctx with
      | none => refuse
      | some c =>
        if 0x400 ≤ off ∨ off % 0x80 ≠ 0 ∨ data.length ≠ 128 ∨ pasid ≠ p.pasid ∨ !s.accepting then refuse
        else if 64 ≤ (c.queue (off / 0x80)).length then s.say (.doorbell page 1)
        else (s.enqueue p.ctx (off / 0x80) (LaunchRec.parse (wordsOf data))).say (.doorbell page 0))

/-- DOORBELL_POSTED_WRITE: discarded, and for a doorbell counted as a submission error (R364). -/
def execDoorbellPostedWrite (page off : Nat) (s : State) : Host.Outcome State Fault Refusal :=
  .next (
    match s.submitPage page with
    | some p => if off < 0x400 then s.modCtx p.ctx (fun c => { c with submitErrors := c.submitErrors + 1 }) else s
    | none => s)

/-- The LAUNCHID of a record (R399). -/
def QueuedRec.lid (q : QueuedRec) : Word := BitVec.ofNat 32 (q.lnum.toNat * 2 ^ 16 + q.fields.tag.toNat)

/-- The units that a record that never fires counts as dropped (R365). -/
def QueuedRec.units (q : QueuedRec) : Nat := if q.fields.dyn then 0 else q.fields.units

/-- Whether a level that a record stands beneath has been cancelled while open (R258). -/
def State.beneathCancelled (s : State) (ctx : Nat) (q : QueuedRec) : Bool :=
  s.counters.any (fun c => c.ctx == ctx && c.cancelled && ((c.kind == 1 && q.graph == some c.id) || (c.kind == 2 && q.phaseid.toNat == c.id)))

/-- RECORD_VALIDATION: the first record of a queue that has not been checked is refused, or enters its levels (R260, R364). -/
def execRecordValidation (ctx queue : Nat) (s : State) : Host.Outcome State Fault Refusal :=
  .next (
    match (s.ctxRec ctx).bind (fun c => (c.queue queue).find? (fun q => !q.valid)) with
    | none => s
    | some q =>
      let drop := s.unqueue ctx queue q.lnum
      match s.refusal ctx q.fields with
      | some n => (drop.complete ctx q.fields.tag 0 q.lid 4 (BitVec.ofNat 8 n) 0).post (.launchFire ctx)
      | none =>
        if q.dropped || s.beneathCancelled ctx q then (drop.complete ctx q.fields.tag q.units q.lid 2 0 0).arriveCancelled ctx q
        else (s.modQueue ctx queue (fun l => l.map (fun x => if x.lnum = q.lnum then { x with valid := true } else x))).enterLevels ctx q)

/-- LAUNCH's snapshot holds the VA pair; its increment of the issuer's graph counter stands before it retires (R264, R286). -/
def State.launchIssue (s : State) (d a : BitVec 6) : State :=
  let g : Word := ((s.launchOf s.un).map (·.graphid)).getD 0
  let s1 := if g = 0 then s else s.modCounter 1 s.gr.ctx (g.toNat - 0x10000) (fun c => { c with count := c.count + 1 })
  (s1.issueCmd .launch [s.sreg a.toNat, s.sreg (a.toNat + 1)] false false (fun c =>
    { c with arg := d.toNat, dropped := ((s.launchOf s.un).map (·.dropped)).getD false, rows := [[((s.launchOf s.un).map (·.graphid)).getD 0, ((s.launchOf s.un).map (·.phaseid)).getD 0]] })).modSt
    (fun x => { x with owed := if d.toNat < 60 then x.owed ++ [(d.toNat, s.nextId)] else x.owed })

/-- LAUNCH (R286): a release at dev scope; a younger instruction that names s[D] waits until it is written (State.fetchWord). -/
def execLaunch (g : BitVec 4) (d a : BitVec 6) (s : State) : Host.Outcome State Fault Refusal :=
  let va := vaPair (s.sreg a.toNat) (s.sreg (a.toNat + 1))
  s.runN (
    if !isPair a.toNat || s.isWave then .trap .illegal s.st.exm s
    else if !s.uniGuard g then .next s
    else if va % 128 ≠ 0 then .trap .misalign s.st.exm s
    else if 2 ^ 57 ≤ va then .trap .prot s.st.exm s
    else s.released (fun s1 => .next (s1.launchIssue d a)))

/-- A scalar register of a saved stream written in its record as well (R312, R314). -/
def State.savedScalar (s : State) (v : SavedUnit) (sid n : Nat) (w : Word) : State :=
  let at_ := v.unit.saveVa + 0x500 + 0x700 * (v.streams.map (·.sid)).idxOf sid + 4 * n
  if s.travels v.unit.ctx at_ then s.askFar v.unit.uid v.unit.ctx [(at_, .write 4 (w.setWidth 128))]
  else match s.engTrans (((v.unit.cores[0]?).map (·.die)).getD 0) v.unit.ctx at_ needW false with
  | .ok l => s.putN l w.toNat 4
  | _ => s

/-- The scalar register that LAUNCH names is written in its stream and in the fragments that have split off since, its flag clears and the command is over (R286, R291); the unit may have been saved since (R312). Faults settled meanwhile go on. -/
def State.launchAccepted (s : State) (c : Cmd) (lid : Word) : State :=
  let owes : Stream → Bool := fun x => x.owed.contains (c.arg, c.id)
  let land : Stream → Stream := fun x =>
    if owes x then { x with sregs := x.sregs.set c.arg lid, owed := x.owed.filter (· != (c.arg, c.id)) } else x
  let s1 : State := { s.mapStreams land with saved := s.saved.map (fun v => { v with streams := v.streams.map land }) }
  let s2 := s.saved.foldl (fun t v => (v.streams.filter owes).foldl (fun u x => u.savedScalar v x.sid c.arg lid) t) s1
  let s3 := (s.allStreams.filter (fun x => owes x && decide (x.status = .parked) && x.faults.all (fun f => f.settled.isSome))).foldl
    (fun t x => t.post (.fragmentResume x.sid)) s2
  (((s3.flagDone c.sid c.id c.flag).modCmd c.id (fun x => { x with flag := none })).endCmd c.id).wake (fun x => decide (x.status = .waitAccept c.id))

/-- The increment that a LAUNCH made is taken back (R286). -/
def State.launchUndo (s : State) (c : Cmd) : State :=
  let g : Word := (c.rows.getD 0 []).getD 0 0
  (if g = 0 then s else s.modCounter 1 c.ctx (g.toNat - 0x10000) (fun x => { x with count := bumpCount x.count (-1) })).settleLevels c.ctx

/-- The record of a LAUNCH cannot be read (R286). -/
def State.launchLost (s : State) (c : Cmd) : State :=
  ((s.launchUndo c).modCtx c.ctx (fun x => { x with submitErrors := x.submitErrors + 1 })).launchAccepted c 0

/-- The record of a LAUNCH has been read: it is checked and enqueued as a child, or refused (R264, R286). -/
def State.launchRead (s : State) (c : Cmd) (ws : List Word) : State :=
  let r := s.shaped c.ctx (LaunchRec.parse ws)
  let n := ((s.ctxRec c.ctx).map (fun x => nextLaunch x.launches)).getD 1
  let q : QueuedRec :=
    { lnum := n, fields := { r with node := true, lastn := false, deps := 0, succ := [] }, valid := true,
      graphid := (c.rows.getD 0 []).getD 0 0, phaseid := (c.rows.getD 0 []).getD 1 0, child := true,
      count := BitVec.ofNat 32 (if r.dyn then 0 else r.units) }
  let s1 := s.modCtx c.ctx (fun x => { x with launches := n })
  (match s.refusal c.ctx r with
    | some k => (s1.launchUndo c).complete c.ctx r.tag 0 q.lid 4 (BitVec.ofNat 8 k) 0
    | none =>
      if c.dropped || s1.beneathCancelled c.ctx q then (s1.launchUndo c).complete c.ctx r.tag q.units q.lid 2 0 0
      else ((s1.modCtx c.ctx (fun x => { x with children := x.children ++ [q] })).takeChild c.ctx r.queue).enterLevels c.ctx q).launchAccepted c q.lid

/-- The words of a LAUNCH's record read one after the other; a fault parks the read (R227, R286). -/
def State.launchWords (s : State) (id fuel : Nat) : State :=
  match fuel with
  | 0 => s
  | k + 1 =>
    match s.cmd? id with
    | none => s
    | some c =>
      if 32 ≤ c.buf.length then (if s.accepting then s.launchRead c c.buf else s.launchLost c)
      else
        match s.engWord c (vaPair (c.w 0) (c.w 1) + 4 * c.buf.length) with
        | (t, some w) => (t.modCmd id (fun x => { x with buf := x.buf ++ [w], peer := none })).launchWords id k
        | (t, none) => if (t.cmd? id).isNone then t.launchLost c else t

/-- LAUNCH_RECORD_READ (R286). -/
def execLaunchRecordRead (id : Nat) (s : State) : Host.Outcome State Fault Refusal :=
  .next (
    match s.cmd? id with
    | some c => if c.kind = .launch ∧ c.state = .accepted then s.launchWords id 33 else s
    | none => s)

/-- Whether a launch that has fired from a queue's NODE = 0 records has still to complete (R261). -/
def State.queueBusy (s : State) (ctx q : Nat) : Bool :=
  s.launches.any (fun l => l.ctx == ctx && l.fields.queue == q && !l.fields.node && !l.child && !l.done)

/-- Whether a record may fire (R261, R264): before is what stands before it in its queue. -/
def State.mayFire (s : State) (ctx queue : Nat) (before : List QueuedRec) (q : QueuedRec) : Bool :=
  q.valid && (
    if q.child then s.phasesBelow ctx q.phaseid.toNat
    else if q.fields.node then
      s.phasesBelow ctx q.phaseid.toNat && !s.counters.any (fun c => c.kind == 4 && c.ctx == ctx && q.graph == some c.id &&
        c.node == q.fields.nodeidx && decide (c.count ≠ 0))
    else !before.any (fun x => !x.fields.node && !x.child) && !s.queueBusy ctx queue)

/-- The first record of a queue that may fire. -/
def State.firstReady (s : State) (ctx queue : Nat) (before rest : List QueuedRec) : Option QueuedRec :=
  match rest with
  | [] => none
  | q :: r => if s.mayFire ctx queue before q then some q else s.firstReady ctx queue (before ++ [q]) r

/-- The record that a context fires next: of its lowest-numbered queue that has one (R261). -/
def State.nextRecord (s : State) (ctx : Nat) : Option (Nat × QueuedRec) :=
  match s.ctxRec ctx with
  | none => none
  | some c =>
    if c.suspended then none
    else (List.range 8).findSome? (fun k => (s.firstReady ctx k [] (c.queue k)).map (fun q => (k, q)))

/-- The count word of a dynamic launch, read by the intake of die 0 (R261); none where it cannot be read yet. -/
def State.dynCount (s : State) (ctx va : Nat) : Option Nat × State :=
  let asked := ((s.ctxRec ctx).bind (·.cntPeer)).bind (fun p => if p.2.1 = va then some p.2.2 else none)
  let forget := s.modCtx ctx (fun c => { c with cntPeer := none })
  let t := s.engWalk 0 ctx va
  match (s.engAsk 0 ctx va needR 0 false).struck s true 4 with
  | .ok l => (some (s.getN l 4), t.dropL1 (engineCore 0))
  | .absent h => (none, (t.dropAnswersOf 0).tellFault 0 ctx va needR h false)
  | .walk ats => (none, s.queueWalk (engineCore 0) ctx va needR ats)
  | .refused h => (none, if (s.window ctx va).isSome then s.ask (.deviceFault ctx va true) else (t.dropAnswersOf 0).tellFault 0 ctx va needR h true)
  | .lost => (none, s.ask (.deviceFault ctx va true))
  | .peer dev rctx rva =>
    match asked with
    | none => (none, { (s.say (.peerRequest 0 dev rctx [(s.nextId, rva, .read 4)])).modCtx ctx (fun c => { c with cntPeer := some (s.nextId, va, none) }) with
        nextId := s.nextId + 1 })
    | some none => (none, s)
    | some (some (.done v)) => (some (v.toNat % 2 ^ 32), forget)
    | some (some .absent) => (none, forget)
    | some (some .refused) => (none, forget.ask (.deviceFault ctx va true))

/-- The chunks that a launch deals to the dies (R263). -/
def dealt (units : Nat) : List (List Nat) :=
  (List.range Config.dies).map (fun d => (List.range ((units + 7) / 8)).filter (fun c => c % 4 == d))

/-- The entry that a launch runs: the one that its context's translation table names as it fires (R348). -/
def Ctx.translated (c : Ctx) (entry : Nat) : Nat := ((c.translations.find? (fun t => t.entry == entry)).map (·.target)).getD entry

/-- The threads of a unit as its lanes: as many of them as a lane of the translation runs count once (R347). -/
def Ctx.lanesOf (c : Ctx) (r : LaunchRec) : Nat :=
  let k := ((c.translations.find? (fun t => t.entry == r.entry)).map (·.share)).getD 1
  (r.threads + k - 1) / k

/-- A record fires with its unit count (R261, R263). -/
def State.fire (s : State) (ctx queue : Nat) (q : QueuedRec) (units : Nat) : State :=
  let c := s.ctxRec ctx
  let umell := (c.bind (fun c => c.template q.fields.entry)).map (fun t => (t.entry, q.fields.threads))
  let l : Launch :=
    { key := s.nextId, lid := q.lid, ctx := ctx, umell := umell, graphid := q.graphid, phaseid := q.phaseid, child := q.child,
      fields := if umell.isSome then { q.fields with threads := (c.map (fun c => c.lanesOf q.fields)).getD q.fields.threads } else q.fields,
      entry := (c.map (fun c => c.translated q.fields.entry)).getD q.fields.entry, units := units, chunks := dealt units,
      pending := [], noSteal := [], count := if q.fields.dyn then q.count + BitVec.ofNat 32 units else q.count, ended := 0, status := 0, detail := 0,
      fired := s.dev.clock.toNat, cancelled := false, done := false }
  let s1 : State := { s.unqueue ctx queue q.lnum with
    launches := s.launches ++ [l], nextId := s.nextId + 1 }
  (s1.post (if units = 0 then .launchComplete l.key else .unitPlacement l.key)).post (.launchFire ctx)

/-- LAUNCH_FIRE (R261). -/
def execLaunchFire (ctx : Nat) (s : State) : Host.Outcome State Fault Refusal :=
  .next (
    match s.nextRecord ctx with
    | none => s
    | some (k, q) =>
      if q.fields.dyn then
        match s.dynCount ctx q.fields.cntva with
        | (some n, t) => t.fire ctx k q n
        | (none, t) => t
      else s.fire ctx k q q.fields.units)

/-- LAUNCH_COMPLETE: every unit has ended and the counter is zero: its record goes to be written, the levels above go down, and what waited for the launch goes on (R257, R262, R365, R366); for 0, the records that wait are written (R367). -/
def execLaunchComplete (lid : Nat) (s : State) : Host.Outcome State Fault Refusal :=
  .next (
    if lid = 0 then s.writeRecords
    else match s.launches.find? (fun l => l.key == lid) with
    | none => s
    | some l =>
      if l.ended < l.units ∨ l.count ≠ 0 ∨ l.done then s
      else
        let s1 : State := { s with launches := s.launches.filter (fun x => x.key != lid) }
        let status := max l.status (if l.cancelled then 2 else 0)
        ((s1.complete l.ctx l.fields.tag l.ended l.lid status (if status = 2 then 0 else l.detail)
          (s.dev.clock.toNat - l.fired)).leaveLevels l.ctx l.fields l.graphid l.child).wakeCounters l.ctx)

/-- The kind of level that a LEVEL field names. -/
inductive Level where
  | launch (key : Nat)
  | queued (queue : Nat) (lnum : BitVec 16)
  | counter (kind id : Nat)
  | job
deriving DecidableEq, Repr

/-- The live level of a context that an id names (R257, R399); none for 0, for what it does not name, and for what has completed. -/
def State.level (s : State) (ctx : Nat) (l : BitVec 2) (id : Word) : Option Level :=
  if id = 0 then none
  else
    match l.toNat with
    | 0 =>
      match s.launches.find? (fun x => x.ctx == ctx && x.lid == id) with
      | some x => some (.launch x.key)
      | none =>
        (s.ctxRec ctx).bind (fun c => (List.range 8).findSome? (fun k =>
          ((c.waiting k).find? (fun q => q.valid && q.lid == id)).map (fun q => .queued k q.lnum)))
    | 1 => if id.toNat < 0x10000 then none else (s.counter? 1 ctx (id.toNat - 0x10000)).map (fun c => .counter 1 c.id)
    | 2 => (s.counter? 2 ctx id.toNat).map (fun c => .counter 2 c.id)
    | _ => if id.toNat = ctx ∧ (s.ctxRec ctx).isSome then some .job else none

/-- The counter of a level (R257). -/
def State.levelCount (s : State) (ctx : Nat) (v : Level) : Word :=
  match v with
  | .launch key => ((s.launches.find? (fun x => x.key == key)).map (·.count)).getD 0
  | .queued k n => ((s.ctxRec ctx).bind (fun c => ((c.waiting k).find? (fun q => q.lnum == n)).map (·.count))).getD 0
  | .counter kind id => ((s.counter? kind ctx id).map (·.count)).getD 0
  | .job => ((s.ctxRec ctx).map (·.jobCount)).getD 0

/-- A signed value added to a level's counter, which stops at 0; a level that is now complete completes (R257, R287). -/
def State.addLevel (s : State) (ctx : Nat) (v : Level) (n : Int) : State :=
  match v with
  | .launch key => (s.modLaunch key (fun x => { x with count := bumpCount x.count n })).post (.launchComplete key)
  | .queued k m => s.modRecord ctx k m (fun q => { q with count := bumpCount q.count n })
  | .counter kind id => (s.modCounter kind ctx id (fun c => { c with count := bumpCount c.count n })).settleLevels ctx
  | .job => s.modCtx ctx (fun c => { c with jobCount := bumpCount c.jobCount n })

/-- The shape of the counter instructions: the guard, then f on the level that s[A] names (R266, R287). -/
def State.onLevel (s : State) (g : BitVec 4) (a : BitVec 6) (l : BitVec 2) (f : State → Option Level → Verdict) : Verdict :=
  if s.uniGuard g then f s (s.level s.gr.ctx l (s.sreg a.toNat)) else .next s

/-- CNTINC (R287). -/
def execCntinc (g : BitVec 4) (d a : BitVec 6) (l : BitVec 2) (s : State) : Host.Outcome State Fault Refusal :=
  s.runN (s.onLevel g a l (fun s1 v => s1.released (fun s2 =>
    match v with
    | some x => .next (s2.addLevel s2.gr.ctx x (s2.sreg d.toNat).toInt)
    | none => .next s2)))

/-- CNTWAIT: it waits until the level is complete, which a job never is; leaving the wait acquires at dev scope (R257, R287). -/
def execCntwait (g : BitVec 4) (a : BitVec 6) (l : BitVec 2) (s : State) : Host.Outcome State Fault Refusal :=
  s.run (s.onLevel g a l (fun s1 v =>
    match v with
    | some _ => .hold (s1.modSt (fun x => { x with status := .waitCounter l.toNat (s1.sreg a.toNat) }))
    | none => .next ((s1.flushHeld s1.st.sid).acquire 4)))

/-- CNTRD (R287). -/
def execCntrd (g : BitVec 4) (d a : BitVec 6) (l : BitVec 2) (s : State) : Host.Outcome State Fault Refusal :=
  s.run (s.onLevel g a l (fun s1 v =>
    .next (s1.setSreg d.toNat (match v with
      | some x => s1.levelCount s1.gr.ctx x
      | none => 0))))

/-- SYSCALL (R330, R331): the stream's lanes arrive, releasing at sys scope, and it waits for the reply. -/
def execSyscall (g : BitVec 4) (i : BitVec 15) (s : State) : Host.Outcome State Fault Refusal :=
  s.runN (
    if !s.uniGuard g then .next s
    else if s.st.isPriv || s.isWave then .trap .illegal s.st.exm s
    else s.unlessOwed (fun s0 => s0.released (fun s1 =>
      .next (((((s1.modUn (fun u => { u with sysarr := u.sysarr + s1.st.exm.size })).nextSeq).flagAdd s1.setB).modSt (fun x =>
        { x with status := .waitSyscall, sysCode := s.immZ i })).checkSyscall))))

/-- SYSCALL_REPLY: every lane of every waiting stream receives the value, or the status if it is not 0, in a0; the streams resume with an acquire at sys scope, and on a failure trap SYSERR (R330, R331). DESIGN CHOICE, log entry 16: TINSTR of SYSERR is the word at TPC, the header of the next clause where the SYSCALL ends its clause. -/
def execSyscallReply (uid : Nat) (status value : Word) (s : State) : Host.Outcome State Fault Refusal :=
  .next (
    match s.unit? uid with
    | none => s
    | some u =>
      if !u.sysSent then s
      else
        let sids := (s.sysWaiters uid).map (fun w => w.2.2.sid)
        let v := if status = 0 then value else status
        let one : State → Nat → State := fun t sid =>
          let t1 := t.focus sid
          let t2 := ((t1.mapLanes t1.st.exm (fun _ x => x.setReg t1.gr.allot 0 v)).modSt (fun x => { x with status := .runnable })).acquire 5
          if status = 0 then t2 else t2.takeTrap .syserr t2.st.exm [] TrapInfo.plain
        let back : UnitRec → UnitRec := fun x => { x with sysarr := 0, sysSent := false }
        let heard : HostMsg → Bool := fun m => match m with
          | .syscall _ n .. => n == uid
          | _ => false
        sids.foldl one (({ s with un := if s.un.uid = uid then back s.un else s.un, units := s.units.map (fun x => if x.uid = uid then back x else x) } : State).answered heard))

end Sys2Proof.Machine
end

