-- ==== Sys2Proof/Machine/Placement.lean ====
section
/-!
DEFINITION. From chunks to cores: UNIT_PLACEMENT (R120 to R124, R161, R259, R263), STEAL_MESSAGE (R263), and the end of a group with its profile record and the end of its unit (R116, R262, R376).
-/
namespace Sys2Proof.Machine

/-- The groups that stand on a core. -/
def State.groupsOn (s : State) (core : Nat) : List Group :=
  s.allGroups.filter (fun g => g.live && g.uid != 0 && g.coreId == core)

/-- The parts of live units that stand on a core, each with its window's size. -/
def State.partsOn (s : State) (core : Nat) : List (UnitCore × Nat) :=
  (s.allUnits.filter (·.live)).flatMap (fun u => (u.cores.filter (fun c => coreNo c.die c.core == core)).map (fun c => (c, u.scratch)))

/-- The lowest offset of a core's scratchpad, above the barrier words, where n bytes are free (R161; log entry 12). -/
def windowBase (parts : List (UnitCore × Nat)) (n : Nat) : Option Nat :=
  lowestFree ((0, 1024) :: (parts.filter (fun p => p.2 != 0)).map (fun p => (p.1.base, p.2))) n 0x80000

/-- The nb lowest barrier words of a core that no unit has, if so many are free (R121, R135). -/
def barrierWords (parts : List (UnitCore × Nat)) (nb : Nat) : Option (List Nat) :=
  let free := ((List.range 128).filter (fun i => !parts.any (fun p => p.1.barWords.contains i))).take nb
  if free.length = nb then some free else none

/-- What a window of n bytes at base holds as a unit of a context receives it: free bytes in each KiB that the same context held last, zero elsewhere (R161). -/
def freshWindow (owners : List (Nat × Nat)) (ctx base n free : Nat) : Memory :=
  (List.range n).foldl (fun m i =>
    if owners.any (fun o => o.1 == (base + i) / 1024 && o.2 == ctx) then m.put i (Config.freeByte (free + i)) else m) []

/-- A unit's part of a core and the places of its groups there, if the core admits them (R121). -/
def State.tryCore (s : State) (die core ctx nb scratch : Nat) (gs : List Group) : Option (UnitCore × List Group) :=
  let id := coreNo die core
  match seatAll (s.groupsOn id) gs, windowBase (s.partsOn id) scratch, barrierWords (s.partsOn id) nb with
  | some seats, some base, some words =>
    let owners := ((s.coreRec id).map (·.owners)).getD []
    some ({ die := die, core := core, base := base, window := freshWindow owners ctx base scratch s.free,
            bars := List.replicate nb (Barrier.ofWord 0), barWords := words }, seats)
  | _, _, _ => none

/-- The lowest cores of a die, from a number on, that admit the parts of a unit in order (R121, R124; log entry 12). -/
def State.coresFor (s : State) (die ctx nb scratch fuel core : Nat) (parts : List (List Group)) : Option (List (UnitCore × List Group)) :=
  match fuel, parts with
  | _, [] => some []
  | 0, _ => none
  | k + 1, p :: r =>
    match s.tryCore die core ctx nb scratch p with
    | some x => (s.coresFor die ctx nb scratch k (core + 1) r).map (x :: ·)
    | none => s.coresFor die ctx nb scratch k (core + 1) (p :: r)

/-- The n lowest free pool slots of a launch (R259): no group of the context, placed or saved, has its frame area there. -/
def State.freeSlots (s : State) (l : Launch) (n : Nat) : Option (List Nat) :=
  let held : Nat → Bool := fun fa => s.allGroups.any (fun g => g.live && g.uid != 0 && g.ctx == l.ctx && g.fa == fa) ||
    s.saved.any (fun v => v.groups.any (fun g => g.ctx == l.ctx && g.fa == fa))
  let busy := s.allGroups.length + (s.saved.map (fun v => v.groups.length)).sum
  let free := ((List.range (min l.fields.slots (n + busy))).filter (fun k => !held (l.fields.pool + k * l.fields.slotBytes))).take n
  if free.length = n then some free else none

/-- A group as it is placed: its identity, its place, its areas (R12, R120, R259). -/
def placedGroup (l : Launch) (uid gid k : Nat) (c : UnitCore) (slot : Nat) (g : Group) : Group :=
  let fa := l.fields.pool + slot * l.fields.slotBytes
  { g with gid := gid, uid := uid, ctx := l.ctx, die := c.die, core := c.core, coreIndex := k, fa := fa,
           da := fa + l.fields.faw * 4 * g.width, poolSlot := slot, umell := l.umell.map (·.2) }

/-- The barriers of a unit's part on a core as it is placed: zero words, but a unit of a Umell template has its barrier 0 initialised by BARINIT.AUTO with the lanes of that core (R135, R347; log entry 79). -/
def Launch.bars (l : Launch) (bars : List Barrier) (gs : List Group) : List Barrier :=
  if l.umell.isNone then bars
  else bars.modify 0 (fun _ => { auto := true, phase := false, arrived := 0, expected := BitVec.ofNat 16 ((gs.map (fun g => g.alive.size)).sum) })

/-- A unit placed with its groups and their streams, which wait for the entry segment (R123, R244). The cores start without L1 lines, since the record's acceptance acquires for the unit (R364). -/
def State.placeUnit (s : State) (l : Launch) (index : Nat) (parts : List (UnitCore × List Group)) (slots : List Nat) : State :=
  let uid := s.nextId
  let u : UnitRec :=
    { uid := uid, ctx := l.ctx, launch := l.key, index := index, threads := l.fields.threads, nb := l.fields.nb, coop := l.fields.coop,
      scratch := 1024 * l.fields.scratch, cores := parts.map (fun p => { p.1 with bars := l.bars p.1.bars p.2 }), sysarr := 0, sysSent := false, saveVa := 0, saving := none, stepping := false, live := true }
  let seats : List (Nat × UnitCore × Group) := parts.zipIdx.flatMap (fun p => p.1.2.map (fun g => (p.2, p.1.1, g)))
  let gs := seats.map (fun x => placedGroup l uid (uid + 1 + 2 * x.2.2.sgrp) x.1 x.2.1 (slots.getD x.2.2.sgrp 0) x.2.2)
  let sts := gs.map (fun g => { Stream.start (g.gid + 1) g.gid .home (BitVec.ofNat 57 l.entry) g.alive with status := .waitPlaced })
  let ids := parts.map (fun p => coreNo p.1.die p.1.core)
  (ids.foldl State.dropL1 { s with
    units := s.units ++ [u], groups := s.groups ++ gs, streams := s.streams ++ sts, nextId := uid + 1 + 2 * gs.length,
    clusters := s.clusters.map (fun c => if c.gated ∧ c.wakeAt = 0 ∧ ids.any (fun i => clusterOf i == c.cluster) then
      { c with wakeAt := s.dev.clock.toNat + 1200 } else c) }).useFree (1024 * l.fields.scratch * parts.length)

/-- The units that a die still has to place, in order: those of the chunk that it is placing, then those of its lowest chunk (R263). -/
def Launch.nextUnit (l : Launch) (die : Nat) : Option Nat :=
  match l.pending.find? (fun p => p.1 == die) with
  | some p => some p.2
  | none => ((l.chunks.getD die []).head?).map (fun c => 8 * c)

/-- Unit u has been placed by a die: the rest of its chunk stands next. -/
def Launch.taken (l : Launch) (die u : Nat) : Launch :=
  if l.pending.any (fun p => p.1 == die) then { l with pending := l.pending.filter (fun p => p != (die, u)) }
  else
    { l with chunks := l.chunks.modify die (fun c => c.drop 1),
             pending := l.pending ++ (((List.range 8).map (u + ·)).filter (fun i => decide (u < i) && decide (i < l.units))).map (fun i => (die, i)) }

/-- One unit of a launch tried on a die (R263). -/
def State.tryDie (s : State) (l : Launch) (die : Nat) : Option State :=
  match l.nextUnit die with
  | none => none
  | some u =>
    let parts := (List.range l.fields.coreCount).map l.fields.coreGroups
    match s.coresFor die l.ctx l.fields.nb (1024 * l.fields.scratch) Config.coresPerDie 0 parts, s.freeSlots l l.fields.groups with
    | some places, some slots => some ((s.placeUnit l u places slots).modLaunch l.key (fun x => x.taken die u))
    | _, _ => none

/-- Whether a launch has units that no die has placed. -/
def Launch.toPlace (l : Launch) : Bool := !l.pending.isEmpty || l.chunks.any (fun c => !c.isEmpty)

/-- STEAL_MESSAGE's effect: the die that holds the most chunks of a launch hands half of them, the highest, to a die that has none (R263). -/
def Launch.steal (l : Launch) (die : Nat) : Launch :=
  let n : Nat → Nat := fun d => (l.chunks.getD d []).length
  let victim := (List.range Config.dies).foldl (fun v d => if n v < n d then d else v) 0
  let r := n victim
  if r / 2 = 0 then { l with noSteal := l.noSteal ++ [die] }
  else { l with chunks := (l.chunks.modify victim (fun c => c.take (r - r / 2))).modify die (fun c => c ++ (l.chunks.getD victim []).drop (r - r / 2)) }

/-- Whether a die asks for chunks of a launch: it has none left and has not stopped (R263). -/
def Launch.asks (l : Launch) (die : Nat) : Bool :=
  (l.nextUnit die).isNone && !l.noSteal.contains die && l.chunks.any (fun c => !c.isEmpty)

/-- STEAL_MESSAGE (R263). -/
def execStealMessage (lid die : Nat) (s : State) : Host.Outcome State Fault Refusal :=
  .next ((s.modLaunch lid (fun l => if l.asks die then l.steal die else l)).post (.unitPlacement lid))

/-- The units of a launch that stand placed. -/
def State.unitsOf (s : State) (key : Nat) : List UnitRec := s.allUnits.filter (fun u => u.live && u.launch == key)

/-- The entry segments fetched after a placement: at once for a unit that is not cooperative; for a cooperative launch when its last unit is placed (R124, R244). -/
def State.startUnits (s : State) (key : Nat) : State :=
  match s.launches.find? (fun l => l.key == key) with
  | none => s
  | some l =>
    if l.fields.coop && l.toPlace then s
    else ((s.unitsOf key).filter (fun u => s.allStreams.any (fun x => decide (x.status = .waitPlaced) &&
        s.allGroups.any (fun g => g.gid == x.gid && g.uid == u.uid)))).foldl (fun t u => t.post (.entrySegmentFetch u.uid)) s

/-- UNIT_PLACEMENT: the first die that can places its next unit; a die with no chunk left steals (R121, R123, R263). Nothing of a suspended context is placed (R317). -/
def execUnitPlacement (lid : Nat) (s : State) : Host.Outcome State Fault Refusal :=
  .next (
    match s.launches.find? (fun l => l.key == lid) with
    | none => s
    | some l =>
      if s.ctxs.any (fun c => c.ctx == l.ctx && c.suspended) then s
      else match (List.range Config.dies).findSome? (fun d => s.tryDie l d) with
      | some t => (t.startUnits lid).post (.unitPlacement lid)
      | none =>
        match (List.range Config.dies).find? l.asks with
        | some d => (s.modLaunch lid (fun x => x.steal d)).post (.unitPlacement lid)
        | none => s)

/-- Launches that wait for resources look again. -/
def State.retryPlacement (s : State) : State :=
  (s.launches.filter (fun l => l.toPlace && !l.cancelled)).foldl (fun t l => t.post (.unitPlacement l.key)) s

/-- A group changed wherever it stands, taken away if f says so. -/
def State.removeGroup (s : State) (gid : Nat) : State :=
  let s1 : State := { s with groups := s.groups.filter (fun g => g.gid != gid), streams := s.streams.filter (fun x => x.gid != gid),
                             cmds := s.cmds.filter (fun c => c.gid != gid || !c.isOver) }
  let s2 : State := if s1.st.gid = gid then { s1 with st := Stream.none } else s1
  if s2.gr.gid = gid then { s2 with gr := Group.none } else s2

/-- A unit's window, barriers and record released; the cores remember who held the window (R116, R161). -/
def State.removeUnit (s : State) (u : UnitRec) : State :=
  let kib : UnitCore → List Nat := fun c => (List.range (u.scratch / 1024)).map (fun i => c.base / 1024 + i)
  let s1 := u.cores.foldl (fun t c => t.modCore (coreNo c.die c.core) (fun x =>
    { x with owners := x.owners.filter (fun o => !(kib c).contains o.1) ++ (kib c).map (fun k => (k, u.ctx)) })) s
  let s2 : State := { s1 with units := s1.units.filter (fun x => x.uid != u.uid) }
  if s2.un.uid = u.uid then { s2 with un := UnitRec.none } else s2

/-- A unit has ended, or has been dropped and counts as ended (R257, R258, R262). -/
def State.unitOver (s : State) (u : UnitRec) : State :=
  (((s.removeUnit u).modLaunch u.launch (fun l => { l with ended := l.ended + 1, count := bumpCount l.count (-1) })).post (.launchComplete u.launch)).retryPlacement

/-- The words of the profile record of a group of a unit (R376). -/
def State.profileWords (s : State) (g : Group) (u : UnitRec) : List Word :=
  [((s.launchOf u).map (·.lid)).getD 0, BitVec.ofNat 32 u.index, BitVec.ofNat 32 g.sgrp, g.place] ++
    (List.range 8).flatMap (fun i => [BitVec.ofNat 32 (g.stalls.getD i 0), BitVec.ofNat 32 (g.stalls.getD i 0 / 2 ^ 32)]) ++ List.replicate 12 0

/-- The profile record of a group of a unit in the ring of its context (R376); a context without a ring has none. An error: the ring's page is not there, and the group's end waits for it, at the address that comes with it. -/
def State.profile (s : State) (g : Group) (u : UnitRec) : Except (State × Nat) State :=
  match s.ctxRec g.ctx with
  | none => .ok s
  | some c =>
    if c.profcap = 0 then .ok s
    else
      match s.sysGet g.die g.ctx g.gid c.profva with
      | .error e => .error e
      | .ok (t, w) =>
        match t.sysPut g.die g.ctx g.gid [(c.profva + 128 + 128 * (w.toNat % c.profcap), s.profileWords g u), (c.profva, [w + 1])] with
        | .error e => .error e
        | .ok v => .ok (v.dropFar g.gid g.ctx [c.profva])

/-- The stall cycles of a group that ends count for the template that its launch runs (R348, R376). -/
def State.countStalls (s : State) (g : Group) (u : UnitRec) : State :=
  match (s.launches.find? (fun l => l.key == u.launch)).bind (·.umell) with
  | none => s
  | some e => s.modCtx g.ctx (fun c => { c with templates := c.templates.map (fun t =>
      if t.entry = e.1 then { t with stalls := (List.range 8).map (fun i => t.stalls.getD i 0 + g.stalls.getD i 0) } else t) })

/-- GROUP_END: no lane is left, and every store, atomic, held RED and command of the group is done: its record is written and its place released, and its unit ends with its last group (R116, R262, R376). -/
def execGroupEnd (gid : Nat) (s : State) : Host.Outcome State Fault Refusal :=
  .next (
    match s.group? gid with
    | none => s
    | some g =>
      if g.alive ≠ 0 ∨ g.uid = 0 ∨ s.stores.any (fun x => x.gid == gid) ∨ s.atomics.any (fun x => x.gid == gid) ∨
          s.cmds.any (fun c => c.gid == gid && !c.isOver) then s
      else
        let u := s.unitOf g.uid
        match s.profile g u with
        | .error (t, _) => t
        | .ok s1 =>
          let s2 := (s1.countStalls g u).removeGroup gid
          if s2.allGroups.any (fun x => x.live && x.uid == u.uid) then s2.retryPlacement else s2.unitOver u)

end Sys2Proof.Machine
end

