-- ==== Sys2Proof/Machine/Walker.lean ====
section
/-!
DEFINITION. The translation service: the walker instructions WALKNEXT, TLBFILL, TLBDONE, ATSREQ, PRIREQ (R324 to R328), TLBINV and what every invalidation does (R174, R243, R329), and the events ATS_COMPLETION, PRI_RESPONSE, ATS_INVALIDATION_REQUEST, INVALIDATION_COMPLETION (R361, R362), PAGE_FAULT_REPAIR (R300), PEER_ACCESS (R354), PAGE_MIGRATION and MIGRATION_WINDOW_END (R171).
-/
namespace Sys2Proof.Machine

/-- The walker slot of the issuing stream. -/
def Stream.walkerSlot (x : Stream) : Option Nat :=
  match x.kind with
  | .walker n => some n
  | _ => .none

/-- The shape of the walker instructions: PRIV in a stream that is not privileged and ILLEGAL in a method (R250), legal in a walker slot alone, quads checked by R9, then, under a true guard, R8 on the named registers (R321, R325). -/
def State.walker (s : State) (g : BitVec 4) (quads : Bool) (fields : List Nat) (f : State → Nat → Verdict) : Verdict :=
  match s.st.walkerSlot with
  | none => .trap (if s.st.isPriv || s.isWave then .illegal else .priv) s.st.exm s
  | some n =>
    if !quads then .trap .illegal s.st.exm s
    else if !s.uniGuard g then .next s
    else if s.beyondIn s.st.exm fields ≠ 0 then .trap .regBound s.st.exm s
    else f s n

/-- The registers of a quad. -/
def quadFields (a : BitVec 6) : List Nat := [a.toNat, a.toNat + 1, a.toNat + 2, a.toNat + 3]

/-- A request as the four words of its record (R324). -/
def WalkReq.words (r : WalkReq) : List Word :=
  [BitVec.ofNat 32 (r.page % 2 ^ 20 * 2 ^ 12 + r.need.toNat * 2 ^ 8 + 1), BitVec.ofNat 32 (r.page / 2 ^ 20),
   BitVec.ofNat 32 r.pasid, BitVec.ofNat 32 (r.tag.toNat * 2 ^ 16 + r.ctx % 2 ^ 16)]

/-- WALKNEXT (R325). -/
def execWalknext (g : BitVec 4) (d a : BitVec 6) (s : State) : Host.Outcome State Fault Refusal :=
  s.run (s.walker g (isQuad a.toNat) (quadFields a) (fun t n =>
    let die := t.gr.die
    let ls := t.st.exm.lanes
    let reqs := ((t.dieRec die).walks.filter (fun r => r.taken.isNone)).take ls.length
    if reqs.isEmpty then .hold t
    else
      let tags := reqs.map (·.tag)
      let t1 := t.modDie die (fun x => { x with walks := x.walks.map (fun r => if tags.contains r.tag then { r with taken := some n } else r) })
      let t2 := t1.mapLanes t1.st.exm (fun l x =>
        x.setRegs t1.gr.allot a.toNat (((reqs[ls.idxOf l]?).map WalkReq.words).getD (List.replicate 4 0)))
      .next (t2.setSreg d.toNat (BitVec.ofNat 32 reqs.length))))

/-- The tag in a lane's record, if the record holds a request (R324). -/
def State.recordTag (s : State) (l : Nat) (a : BitVec 6) : Option (BitVec 16) :=
  if (s.reg l a.toNat).getLsbD 0 then some ((s.reg l (a.toNat + 3)).extractLsb' 16 16) else none

/-- The entries that TLBFILL gives a request: none where it is rejected. R179 rows 1 to 4, and a C64 entry names the first frame of its run (R178, R180, R326). key: the key of its context, if that has one (R392). -/
def WalkReq.filled (r : WalkReq) (key : Option Nat) (e : Nat) (form : Word) : Option (List TlbEntry) :=
  let va := 4096 * r.page
  let put : Nat → Nat → Loc → Perms → Nat → List TlbEntry := fun va size loc p pasid =>
    r.cores.map (fun core => { core := core, ctx := r.ctx, pasid := pasid, va := va / size * size, size := size, loc := loc, perms := p })
  if form.getLsbD 2 then some (put va 4096 (.host (e / 4096 * 4096)) (ptePerms e) r.pasid)
  else
    let level := form.toNat % 4
    let size := 2 ^ (12 + 9 * level)
    let run := level = 0 && e.testBit 5
    if !e.testBit 0 || level = 3 || (run && pteFrame e / 4096 % 16 ≠ 0) then none
    else
      match leafOf (r.ctx == Config.osCtx) e size with
      | .page pa _ p false _ enc => some (put va (if run then 65536 else size) (devLoc (if enc then key else none) pa) p 0)
      | _ => none

/-- A request of a die changed. -/
def State.modWalk (s : State) (die : Nat) (tag : BitVec 16) (f : WalkReq → WalkReq) : State :=
  s.modDie die (fun x => { x with walks := x.walks.map (fun r => if r.tag = tag then f r else r) })

/-- TLBFILL for one request: installed, refused, or discarded once an invalidation has covered it (R326, R329). -/
def State.fillWalk (s : State) (die : Nat) (tag : BitVec 16) (e : Nat) (form : Word) : State :=
  match (s.dieRec die).walks.find? (fun r => r.tag == tag) with
  | none => s
  | some r =>
    if r.stale then s
    else
      match r.filled (s.keyOf r.ctx true) e form with
      | some es => es.foldl State.tlbPut s
      | none => s.modWalk die tag (fun x => { x with refused := true })

/-- TLBFILL (R326). -/
def execTlbfill (g : BitVec 4) (a b : BitVec 6) (s : State) : Host.Outcome State Fault Refusal :=
  s.run (s.walker g (isQuad a.toNat && isQuad b.toNat) (quadFields a ++ quadFields b) (fun t _ =>
    .next (t.st.exm.lanes.foldl (fun u l =>
      match t.recordTag l a with
      | none => u
      | some tag => u.fillWalk t.gr.die tag (t.regPair l b.toNat).toNat (t.reg l (b.toNat + 2))) t)))

/-- TLBDONE (R327). -/
def execTlbdone (g : BitVec 4) (a b : BitVec 6) (s : State) : Host.Outcome State Fault Refusal :=
  s.run (s.walker g (isQuad a.toNat) (quadFields a ++ [b.toNat]) (fun t _ =>
    .next (t.st.exm.lanes.foldl (fun u l =>
      match t.recordTag l a with
      | none => u
      | some tag => u.completeWalks t.gr.die (fun r => r.tag == tag) (if (t.reg l b.toNat).toNat < 4 then (t.reg l b.toNat).toNat else 2)) t)))

/-- The VA, PASID and NEED of a lane's record. -/
def State.recordVa (s : State) (l : Nat) (a : BitVec 6) : Nat :=
  (s.reg l a.toNat).toNat / 2 ^ 12 * 2 ^ 12 + (s.reg l (a.toNat + 1)).toNat % 2 ^ 25 * 2 ^ 32

/-- The lanes of EXM whose record holds a request. -/
def State.recordLanes (s : State) (a : BitVec 6) : List Nat := s.st.exm.lanes.filter (fun l => (s.recordTag l a).isSome)

/-- The quad that a completion of ATSREQ writes (R328); its last word is a free value. -/
def atsQuad (v : BitVec 128) (free : Word) : List Word := [v.extractLsb' 0 32, v.extractLsb' 32 32, v.extractLsb' 64 32, free]

/-- ATSREQ (R328): the requests go out, the stream waits for the completions, then the quads are written. -/
def execAtsreq (g : BitVec 4) (a b : BitVec 6) (s : State) : Host.Outcome State Fault Refusal :=
  s.run (s.walker g (isQuad a.toNat && isQuad b.toNat) (quadFields a ++ quadFields b) (fun t _ =>
    let ls := t.recordLanes a
    if ls.isEmpty then .next t
    else if t.st.peer.isEmpty then
      let asks : List HostMsg := ls.map (fun l => HostMsg.atsRequest t.st.sid l ((t.reg l (a.toNat + 3)).toNat % 2 ^ 16) (t.recordVa l a)
        ((t.reg l (a.toNat + 2)).toNat % 2 ^ 20) ((t.reg l a.toNat).extractLsb' 8 3))
      .hold (({ t with out := t.out ++ asks } : State).modSt (fun x =>
        { x with status := .waitPeer, peer := ls.map (fun l => { lane := l, va := t.recordVa l a, write := false, answer := .none }) }))
    else
      .next (ls.foldl (fun u l =>
        match t.peerAnswer l false with
        | some (.done v) =>
          (u.mapLanes (Mask.one l) (fun _ x => x.setRegs u.gr.allot b.toNat (atsQuad v (Config.freeWord u.free)))).useFree 1
        | _ => u) t)))

/-- The page request of a lane's record, while the host takes another one; the lane's tag waits for its answer (R328, R361). -/
def State.sendPri (s : State) (a : BitVec 6) (l : Nat) : State :=
  let ctx := (s.reg l (a.toNat + 3)).toNat % 2 ^ 16
  if s.st.peer.any (fun p => p.lane == l) || !s.pageRoom then s
  else
    ((({ s with dev := { s.dev with pageReqs := s.dev.pageReqs ++ [(ctx, s.recordVa l a)] } } : State).say
      (.pageRequest ctx (s.recordVa l a) ((s.reg l a.toNat).extractLsb' 8 3))).modWalk s.gr.die ((s.recordTag l a).getD 0) (fun r => { r with paged := true })).modSt
      (fun x => { x with peer := x.peer ++ [{ lane := l, va := s.recordVa l a, write := false, answer := some (.done 0) }] })

/-- PRIREQ (R328): it waits at issue until every record's request is sent. -/
def execPrireq (g : BitVec 4) (a : BitVec 6) (s : State) : Host.Outcome State Fault Refusal :=
  s.run (s.walker g (isQuad a.toNat) (quadFields a) (fun t _ =>
    let ls := t.recordLanes a
    let u := ls.foldl (fun u l => u.sendPri a l) t
    if ls.all (fun l => u.st.peer.any (fun p => p.lane == l)) then .next u else .hold u))

/-- The pages that an invalidation covers: n pages from a VA, 0 for all of them. -/
def coversPage (va n page : Nat) : Bool := n = 0 || (decide (va / 4096 ≤ page) && decide (page < va / 4096 + n))

/-- Whether an invalidation covers a byte of [a, a + len). -/
def coversRun (va n a len : Nat) : Bool :=
  n = 0 || (decide (0 < len) && decide (va / 4096 * 4096 < a + len) && decide (a < va / 4096 * 4096 + 4096 * n))

/-- What an invalidation does to the copies of the translations that it covers: TLB entries go, translation registers whose run they touch become stale, walks in flight are marked (R174, R329, R362). mine: the contexts concerned. -/
def State.invalidate (s : State) (mine : Nat → Bool) (host : Bool) (va n : Nat) : State :=
  let s1 := s.mapStreams (fun x =>
    if s.allGroups.any (fun g => g.gid == x.gid && mine g.ctx) then
      { x with tb := x.tb.map (fun t => if t.bound && coversRun va n t.va t.limit then { t with stale := true } else t) } else x)
  { s1 with
    tlb := s1.tlb.filter (fun e => !(mine e.ctx && (!host || e.pasid != 0) && coversRun va n e.va e.size)),
    dies := s1.dies.map (fun d => { d with
      walks := d.walks.map (fun r => if mine r.ctx && coversPage va n r.page then { r with stale := true } else r),
      answers := d.answers.filter (fun r => !(mine r.ctx && coversPage va n r.page)) }) }

/-- The overlay slots that an invalidation of a context covers are dropped, the pinned ones marked (R243). -/
def State.dropSlots (s : State) (ctx va n : Nat) : State :=
  { s with overlays := s.overlays.filterMap (fun o =>
      if o.ctx = ctx ∧ coversRun va n o.va 4096 then (if s.pinned o then some { o with marked := true } else none) else some o) }

/-- The held quantum REDs of a context's streams, which have translated, are sent (R174, R196). -/
def State.flushContext (s : State) (mine : Nat → Bool) : State :=
  ((s.allStreams.filter (fun x => !x.held.isEmpty && s.allGroups.any (fun g => g.gid == x.gid && mine g.ctx))).map (·.sid)).foldl State.flushHeld s

/-- TLBINV (R329): accesses that use an old translation perform first; every store and atomic that is not held has performed before an instruction issues (log entry 1). -/
def execTlbinv (g : BitVec 4) (a b : BitVec 6) (s : State) : Host.Outcome State Fault Refusal :=
  let ctx := (s.sreg (a.toNat + 2)).toNat
  let va := vaPair (s.sreg a.toNat) (s.sreg (a.toNat + 1)) % 2 ^ 57
  let n := (s.sreg b.toNat).toNat
  s.run (
    if !s.st.isPriv then .trap (if s.isWave then .illegal else .priv) s.st.exm s
    else if s.st.kind ≠ .pair ∨ s.st.privileged ∨ !isQuad a.toNat then .trap .illegal s.st.exm s
    else if !s.uniGuard g then .next s
    else if va % 4096 ≠ 0 then .trap .misalign s.st.exm s
    else s.released (fun s1 =>
      let s2 := s1.flushContext (· == ctx)
      if s2.atomics.length ≠ s1.atomics.length then .hold s2
      else .next ((s2.invalidate (· == ctx) false va n).dropSlots ctx va n)))

/-- An answer to a lane of a stream that waits for peers or for ATS; the last one wakes it, the spill engine and the path stack too (R354). The lanes stand in the order of their answers, those without one first (R378). -/
def State.peerReply (s : State) (sid lane : Nat) (v : PeerAnswer) : State :=
  s.modStream sid (fun x =>
    let waits : PeerLane → Bool := fun p => p.lane == lane && p.answer.isNone
    let ps := x.peer.filter (fun p => !waits p) ++ (x.peer.filter waits).map (fun p => { p with answer := some v })
    { x with peer := ps, status := if (x.status = .waitPeer ∨ x.status = .waitWalk) ∧ ps.all (fun p => p.answer.isSome) then .runnable else x.status })

/-- ATS_COMPLETION (R328): of an ATSREQ's lane, or of a walk that the die served itself, lane being its die and tag (log entry 9). -/
def execAtsCompletion (sid lane : Nat) (addr : BitVec 64) (status : BitVec 32) (s : State) : Host.Outcome State Fault Refusal :=
  .next (
    if sid ≠ 0 then s.peerReply sid lane (.done (status.setWidth 128 <<< 64 ||| addr.setWidth 128))
    else
      let die := lane / 65536
      let tag : BitVec 16 := BitVec.ofNat 16 lane
      let s1 := if status = 0 then s.fillWalk die tag addr.toNat 4 else s
      s1.completeWalks die (fun r => r.tag == tag) (if status = 0 then 0 else if status = 1 then 3 else 2))

/-- A stream of a context whose faults on a page, on host memory or not, are settled with an answer. -/
def Stream.settleFaults (x : Stream) (page : Nat) (host ok : Bool) : Stream :=
  { x with faults := x.faults.map (fun f =>
      if f.va / 4096 = page ∧ f.host = host ∧ f.settled.isNone then { f with settled := some ok } else f) }

/-- Whether a stream that had faults has now none unsettled. -/
def Stream.repaired (x : Stream) (page : Nat) (host : Bool) : Bool :=
  x.faults.any (fun f => f.va / 4096 == page && f.host == host) && x.faults.all (fun f => f.settled.isSome)

/-- The event that a stream's repair calls for. -/
def Stream.resumeEvent (x : Stream) : Instr :=
  if x.status = .entryParked then .handlerEntryResume x.sid
  else match x.kind with
    | .wave _ => .methodFaultRerun x.sid
    | _ => .fragmentResume x.sid

/-- A command parked on a page goes on, or fails with PROT; a LAUNCH whose record is lost counts an error (R227, R286). -/
def State.settleCmd (s : State) (c : Cmd) (ok : Bool) (index : Nat) : State :=
  if ok then s.resumeCmd c.id
  else match c.kind with
    | .launch => s.launchLost c
    | _ => s.failCmd c.id .prot index

/-- The units of a context whose streams wait for an entry segment on a page. -/
def State.entryUnits (s : State) (ctx page : Nat) : List Nat :=
  (s.allUnits.filter (fun u => u.live && u.ctx == ctx && s.allStreams.any (fun x => decide (x.status = .waitPlaced) &&
    x.pc.toNat / 4096 == page && s.allGroups.any (fun g => g.gid == x.gid && g.uid == u.uid)))).map (·.uid)

/-- The groups of a unit whose streams wait for its entry segment end as DOUBLE ends them (R244). -/
def State.refuseEntry (s : State) (uid : Nat) : State :=
  ((s.allStreams.filter (fun x => decide (x.status = .waitPlaced) && s.allGroups.any (fun g => g.gid == x.gid && g.uid == uid))).map (·.sid)).foldl
    (fun t sid => let f := t.focus sid; if f.st.sid = sid then f.double Cause.prot.code.toNat f.st.pc 0 0 else t) s

/-- The answer to the faults of a context on a page, in device or in host memory (R300): parked streams and commands go on or fail, ended groups write their profile records, entry segments and count words are read again, completion records and saves go on; the pager has answered, and peers whose accesses met the page hear of it (R313, R354, R367). -/
def State.settlePage (s : State) (ctx va : Nat) (host ok : Bool) : State :=
  let page := va / 4096
  let mine : Stream → Bool := fun x => s.allGroups.any (fun g => g.gid == x.gid && g.ctx == ctx) && x.sid != 0
  let s1 := s.mapStreams (fun x => if mine x then x.settleFaults page host ok else x)
  let ready := s1.allStreams.filter (fun x => mine x && x.repaired page host)
  let s2 := ready.foldl (fun t x => t.post x.resumeEvent) s1
  let parked := s2.cmds.filter (fun c => c.ctx == ctx && (match c.state with
    | .parked v => v / 4096 == page
    | _ => false))
  let s3 := parked.foldl (fun t c => t.settleCmd c ok (if c.kind = .mmag then c.progress else 0)) s2
  let s4 := (s3.entryUnits ctx page).foldl (fun t u => if ok then t.post (.entrySegmentFetch u) else t.refuseEntry u) s3
  let ends := s4.allGroups.filter (fun g => g.live && g.ctx == ctx && g.alive == 0)
  let s5 := ((ends.foldl (fun t g => t.recheckEnd g.gid) s4).post (.launchFire ctx)).post (.launchComplete 0)
  let s6 := s5.resumeSaves ctx page
  let there : PeerFault → Bool := fun f => f.ctx == ctx && f.va / 4096 == page
  let s7 := (s6.peerFaults.filter there).foldl (fun t f => t.say (.peerSettled f.dev f.ctx f.va ok)) s6
  ({ s7 with peerFaults := s7.peerFaults.filter (fun f => !there f) } : State).answered (fun m => match m with
    | .deviceFault c v _ => !host && c == ctx && v / 4096 == page
    | _ => false)

/-- A page-table entry that the device OS writes. -/
def State.writeEntry (s : State) (e : Nat × BitVec 64) : State := s.putN (.dev e.1) e.2.toNat 8

/-- PAGE_FAULT_REPAIR (R300): the pager writes its entries and invalidates what it replaces, or declares the fault unrecoverable. -/
def execPageFaultRepair (ctx va : Nat) (answer : PagerAnswer) (s : State) : Host.Outcome State Fault Refusal :=
  .next (
    match answer with
    | .mapped es => (((es.foldl State.writeEntry s).invalidate (· == ctx) false (va / 4096 * 4096) 1)).settlePage ctx va false true
    | .unrecoverable => s.settlePage ctx va false false)

/-- The page requests that waited go to the host while it takes them (R361). -/
def State.morePri (s : State) (fuel : Nat) : State :=
  match fuel, s.dev.pageWaits with
  | 0, _ => s
  | _, [] => s
  | k + 1, (ctx, va, need) :: r =>
    if s.pageRoom then
      (({ s with dev := { s.dev with pageWaits := r, pageReqs := s.dev.pageReqs ++ [(ctx, va)] } } : State).say (.pageRequest ctx va need)).morePri k
    else s

/-- PRI_RESPONSE (R300, R361): the host takes another request; the tags that PRIREQ has named for the page complete, with status 0 if the page is there and else unrecoverably, and the faults on it are settled. -/
def execPriResponse (ctx va : Nat) (success : Bool) (s : State) : Host.Outcome State Fault Refusal :=
  .next (
    let s1 : State := { s with dev := { s.dev with pageReqs := s.dev.pageReqs.eraseP (fun r => r.1 == ctx && r.2 / 4096 == va / 4096) } }
    let s2 := s1.morePri s1.dev.pageWaits.length
    let s3 := (s2.dies.map (·.die)).foldl (fun t d =>
      t.completeWalks d (fun r => r.paged && r.ctx == ctx && r.page == va / 4096) (if success then 0 else 4)) s2
    s3.settlePage ctx va true success)

/-- ATS_INVALIDATION_REQUEST (R362): the copies go at once; the completion is owed. -/
def execAtsInvalidationRequest (pasid va pages : Nat) (s : State) : Host.Outcome State Fault Refusal :=
  .next (
    let mine : Nat → Bool := fun c => s.pasidOf c == pasid
    let s1 := (s.invalidate mine true va pages).flushContext mine
    ({ s1 with invals := s1.invals ++ [{ id := s1.nextId, pasid := pasid, va := va, pages := pages, since := s1.nextId }],
               nextId := s1.nextId + 1 } : State).post (.invalidationCompletion s1.nextId))

/-- INVALIDATION_COMPLETION (R362, R369): every load, store and atomic that was on its way has performed. -/
def execInvalidationCompletion (id : Nat) (s : State) : Host.Outcome State Fault Refusal :=
  .next (
    match s.invals.find? (fun i => i.id == id) with
    | none => s
    | some i =>
      if s.stores.any (fun x => decide (x.id < i.since)) || s.atomics.any (fun x => decide (x.id < i.since)) ||
          s.allStreams.any (fun x => x.loads.any (fun r => decide (r.id < i.since))) then
        s.post (.invalidationCompletion id)
      else ({ s with invals := s.invals.filter (fun x => x.id != id) } : State).say (.invalidationDone id))

/-- The address of the level-0 entry of a VA in a context's tables, if its walk reaches one. -/
def State.leafEntry (s : State) (os : Bool) (va level base : Nat) : Option Nat :=
  let at_ := base + 8 * (va / 2 ^ (12 + 9 * level) % 512)
  match level with
  | 0 => some at_
  | k + 1 =>
    let e := s.getN (.dev at_) 8
    if !e.testBit 0 || e.testBit 1 || !frameOk os (pteFrame e) then none else s.leafEntry os va k (pteFrame e)

/-- The same for a context. -/
def State.leafOfPage (s : State) (ctx va : Nat) : Option Nat := (s.ctxRec ctx).bind (fun c => s.leafEntry (ctx == Config.osCtx) va 4 c.root)

/-- A page moved to a frame: its bytes, which a key encrypts anew at their new addresses (R392), then its entry (R171); no copy of either frame stays in a cache. -/
def State.movePage (s : State) (ctx va frame : Nat) : State :=
  match s.leafOfPage ctx va with
  | none => s
  | some at_ =>
    let e := s.getN (.dev at_) 8
    let key := s.keyOf ctx (e.testBit 8)
    let old := pteFrame e
    let copy := (List.range 512).foldl (fun (t : State) i => t.putN ((devLoc key frame).plus (8 * i)) (s.getN ((devLoc key old).plus (8 * i)) 8) 8) s
    let gone : Nat → Bool := fun page => page == frame / 4096 || page == old / 4096
    { copy.putN (.dev at_) (e - old + frame / 4096 * 4096) 8 with
      lines := copy.lines.filter (fun x => !gone (x.line / 32))
      syncLines := copy.syncLines.filter (fun x => !gone (x / 32))
      l1 := copy.l1.filter (fun x => !(x.sector.pa.any (fun a => gone (a / 4096)))) }

/-- PAGE_MIGRATION (R171): the translations are invalidated, what is on its way performs, the page is copied to the frame and its entry names the frame. A page under a 64 KiB hint moves with its run; one that may not migrate stays. -/
def execPageMigration (ctx va frame : Nat) (s : State) : Host.Outcome State Fault Refusal :=
  .next (
    match s.leafOfPage ctx va with
    | none => s
    | some at_ =>
      let e := s.getN (.dev at_) 8
      let run := e.testBit 5
      let base := if run then va / 65536 * 65536 else va / 4096 * 4096
      let n := if run then 16 else 1
      if !e.testBit 0 || e.testBit 6 || e.testBit 7 || frame % (4096 * n) ≠ 0 || Config.hbmBytes < frame + 4096 * n then s
      else
        let s1 := ((s.invalidate (· == ctx) false base n).flushContext (· == ctx)).performAll
        (List.range n).foldl (fun t i => t.movePage ctx (base + 4096 * i) (frame + 4096 * i)) s1)

/-- A page of the window that one remote die has used so much that it is asked to migrate there (R171). -/
def State.wantsMove (s : State) (p : PageCount) : Bool :=
  let all := ((s.pageCounts.filter (fun q => q.page == p.page)).map (·.count)).sum
  p.movable && decide (p.die ≠ Loc.homeDie (.dev (4096 * p.page))) && decide (1024 ≤ p.count) && decide (3 * all ≤ 4 * p.count)

/-- MIGRATION_WINDOW_END (R171, R379). -/
def execMigrationWindowEnd (s : State) : Host.Outcome State Fault Refusal :=
  .next { (s.pageCounts.filter s.wantsMove).foldl (fun t p =>
      (t.say (.migrationRequest p.page p.die)).countDie (Loc.homeDie (.dev (4096 * p.page))) 7 1) s with pageCounts := [] }

end Sys2Proof.Machine
end

