-- ==== Sys2Proof/Machine/Fabric.lean ====
section
/-!
DEFINITION. Reduction in the fabric: CRED (R40, R288, R356 to R359) and the event CRED_CONTRIBUTION_ARRIVAL.
-/
namespace Sys2Proof.Machine

/-- The kind of a CRED's elements (R30, R288). -/
def credKind (w : Word) : Option FKind :=
  match w.toNat % 16 with
  | 1 => some kE4m3
  | 2 => some kE5m2
  | 3 => some kBf16
  | 4 => some kF16
  | _ => none

/-- The bytes of an element. -/
def FKind.bytes (k : FKind) : Nat := (1 + k.eb + k.mb) / 8

/-- The most contributions that the fixed-point form of a kind adds exactly (R40). -/
def credLimit (w : Word) : Nat :=
  match w.toNat % 16 with
  | 1 => 2 ^ 21
  | 2 => 2 ^ 31
  | 3 => 2 ^ 58
  | _ => 2 ^ 39

/-- The checks of R288 on a descriptor, in order. -/
def credCheck (w : List Word) : Option Cause :=
  let r : Nat → Word := fun i => w.getD i 0
  match credKind (r 5) with
  | none => some .illegal
  | some k =>
    let src := vaPair (r 0) (r 1)
    let dst := vaPair (r 2) (r 3)
    if src % 4 ≠ 0 ∨ dst % 4 ≠ 0 ∨ (r 4).toNat * k.bytes % 4 ≠ 0 then some .misalign
    else if 2 ^ 57 ≤ src ∨ 2 ^ 57 ≤ dst then some .prot
    else none

/-- The bytes of a command's contribution and of its result. -/
def Cmd.credBytes (c : Cmd) : Nat := (c.w 4).toNat * ((credKind (c.w 5)).map FKind.bytes).getD 1

/-- CRED (R288): it joins the copy batch. -/
def State.cred (s : State) (fn : Nat) (g : BitVec 4) (d a : BitVec 6) : Verdict :=
  let w := s.descr a.toNat 8
  s.engine g (decide (a.toNat % 8 = 0)) (credCheck w)
    ((s.issueCmd (.cred fn) w true false (fun c => { c with destVa := [(vaPair (c.w 2) (c.w 3), c.credBytes)] })).putSeq d s)

/-- CRED.SUM (R288). -/
def execCredSum (g : BitVec 4) (d a : BitVec 6) (s : State) : Host.Outcome State Fault Refusal := s.runN (s.cred 0 g d a)
/-- CRED.MAX (R288). -/
def execCredMax (g : BitVec 4) (d a : BitVec 6) (s : State) : Host.Outcome State Fault Refusal := s.runN (s.cred 1 g d a)
/-- CRED.MIN (R288). -/
def execCredMin (g : BitVec 4) (d a : BitVec 6) (s : State) : Host.Outcome State Fault Refusal := s.runN (s.cred 2 g d a)

/-- The exact sum of R40, rounded once. -/
def FKind.redSum (k : FKind) (xs : List Nat) : Nat :=
  let vs := xs.map k.value
  if vs.contains .nan || (vs.contains (.inf true) && vs.contains (.inf false)) then k.nanCode
  else if vs.contains (.inf true) then k.code .rne false (.inf true)
  else if vs.contains (.inf false) then k.code .rne false (.inf false)
  else
    let t := (vs.map (fixedOf k.emin)).foldl (· + ·) 0
    if t = 0 then 0 else k.code .rne false (.fin (decide (t < 0)) t.natAbs k.emin)

/-- The order of MAX and MIN: -0 is below +0 (R288). -/
def FKind.below (k : FKind) (a b : Nat) : Bool :=
  (k.value a).lt (k.value b) || ((k.value a).eqv (k.value b) && (k.value a).isNeg && !(k.value b).isNeg)

/-- The largest or the smallest contribution; a NaN makes the element NaN (R288). -/
def FKind.redPick (k : FKind) (max : Bool) (xs : List Nat) : Nat :=
  if xs.any (fun x => k.value x == .nan) then k.nanCode
  else match xs with
    | [] => 0
    | x :: r => r.foldl (fun a b => if (if max then k.below a b else k.below b a) then b else a) x

/-- Element i of the words of a contribution. -/
def FKind.element (k : FKind) (ws : List Word) (i : Nat) : Nat :=
  (ws.getD (i * k.bytes / 4) 0).toNat / 2 ^ (8 * (i * k.bytes % 4)) % 2 ^ (8 * k.bytes)

/-- The words of a result (R357). -/
def FKind.reduced (k : FKind) (fn count : Nat) (cs : List (List Word)) : List Word :=
  let one : Nat → Nat := fun i =>
    let xs := cs.map (fun ws => k.element ws i)
    if fn = 0 then k.redSum xs else k.redPick (fn == 1) xs
  let per := 4 / k.bytes
  (List.range (count / per)).map (fun j => BitVec.ofNat 32 (((List.range per).map (fun b => one (per * j + b) * 2 ^ (8 * k.bytes * b))).sum))

/-- What a reduction holds of its commands: the kind of reduction, COUNT and KIND (R357). -/
def Cmd.credShape (c : Cmd) : Nat × Word × Nat :=
  ((match c.kind with
    | .cred f => f
    | _ => 0), c.w 4, (c.w 5).toNat % 16)

/-- The reductions under a key. -/
def State.reductionAt (s : State) (ctx : Nat) (rgrp rtag : Word) : Reduction :=
  (s.reductions.find? (fun r => r.rgrp == rgrp && r.rtag == rtag)).getD ⟨rgrp, rtag, ctx, [], none, false, []⟩

/-- Put back; one with nothing to remember goes. -/
def State.putReduction (s : State) (r : Reduction) : State :=
  { s with reductions := s.reductions.filter (fun x => !(x.rgrp == r.rgrp && x.rtag == r.rtag)) ++
      (if r.parts.isEmpty && r.rounds.isEmpty then [] else [r]) }

/-- How often a group of a device has contributed. -/
def Reduction.roundOf (r : Reduction) (dev : Option (BitVec 12)) (gid : Nat) : Nat :=
  ((r.rounds.find? (fun x => x.1 == dev && x.2.1 == gid)).map (·.2.2)).getD 0

/-- A contribution counted: its command, its group, what it holds; one that holds something else than the first fails the reduction (R357, R358). -/
def Reduction.count (r : Reduction) (dev : Option (BitVec 12)) (cmd gid : Nat) (shape : Nat × Word × Nat) (ws : List Word) : Reduction :=
  let n := r.roundOf dev gid
  { r with
    parts := r.parts ++ [⟨dev, cmd, n, ws⟩]
    shape := some (r.shape.getD shape)
    failed := r.failed || r.shape.any (· != shape)
    rounds := r.rounds.filter (fun x => !(x.1 == dev && x.2.1 == gid)) ++ [(dev, gid, n + 1)] }

/-- Whether the contributions counted are of different rounds (R358). -/
def Reduction.mixed (r : Reduction) : Bool := r.parts.any (fun x => r.parts.any (fun y => x.round != y.round))

/-- After a completion: nothing counted, and nothing remembered once n groups, all that take part, have contributed equally often. -/
def Reduction.next (r : Reduction) (n : Nat) : Reduction :=
  { r with parts := [], shape := none, failed := false,
           rounds := if r.rounds.length < n || r.rounds.any (fun x => r.rounds.any (fun y => x.2.2 != y.2.2)) then r.rounds else [] }

/-- The result of a reduction for a command of this device, which writes it to its DST (R357, R358). -/
def State.reduced (s : State) (cmd : Nat) (r : Reduced) : State :=
  match r with
  | .words r => (s.modCmd cmd (fun y => { y with arg := 1, buf := r, progress := 0, state := .accepted })).post (.credContributionArrival cmd)
  | .failed => s.failCmd cmd .syserr 0
  | .refused => s.failCmd cmd .prot 0

/-- The result for a contribution of this device or of another one. -/
def State.answerPart (s : State) (p : Contribution) (r : Reduced) : State :=
  match p.dev with
  | none => s.reduced p.cmd r
  | some d => s.say (.reduced d p.cmd r)

/-- The N-th contribution has arrived: the root sends the result to every participant (R357, R358). A reduction that mixes rounds gives free values. -/
def State.reduceAll (s : State) (r : Reduction) (n : Nat) : State :=
  match r.shape with
  | none => s.putReduction (r.next n)
  | some (fn, count, kind) =>
    let k := ((r.parts.map (fun p => p.words.length)).head?).getD 0
    let ws := if r.mixed then (List.range k).map (fun i => Config.freeWord (s.free + i))
      else ((credKind (BitVec.ofNat 32 kind)).map (fun k => k.reduced fn count.toNat (r.parts.map (·.words)))).getD []
    (r.parts.foldl (fun t p => t.answerPart p (.words ws)) (s.putReduction (r.next n))).useFree (if r.mixed then k else 0)

/-- A contribution reaches the root, which is here (R357, R358, R379). One that holds something else fails every command of the reduction, those that are still to come as well. -/
def State.contribute (s : State) (g : RGroup) (dev : Option (BitVec 12)) (cmd gid : Nat) (rtag : Word) (shape : Nat × Word × Nat) (ws : List Word) : State :=
  let r := s.reductionAt g.ctx g.rgrp rtag
  let r1 := r.count dev cmd gid shape ws
  let s1 := s.countDie g.rdie.toNat 8 1
  if r1.failed then
    let late := if r.failed then r1.parts.drop r.parts.length else r1.parts
    late.foldl (fun t p => t.answerPart p .failed) (s1.putReduction (if g.n ≤ r1.parts.length then r1.next g.n else r1))
  else if g.n ≤ r1.parts.length then s1.reduceAll r1 g.n
  else s1.putReduction r1

/-- A command of this device contributes, here or at the device that holds the root (R356, R357). -/
def State.contributeCmd (s : State) (c : Cmd) (g : RGroup) : State :=
  let s1 := s.modCmd c.id (fun x => { x with state := .waiting })
  if g.rdev = s.dev.id then s1.contribute g none c.id c.gid (c.w 7) c.credShape c.buf
  else s1.say (.contribution g.rdev c.id c.gid c.ctx (c.w 6) (c.w 7) c.credShape.1 (c.w 4) (c.w 5) c.buf)

/-- A contribution of another device arrives; one to a group that is not defined here, or is not its context's, is refused (R358). -/
def State.contributeFor (s : State) (dev : BitVec 12) (cmd gid ctx : Nat) (rgrp rtag : Word) (shape : Nat × Word × Nat) (ws : List Word) : State :=
  match s.rgroups.find? (fun g => g.rgrp == rgrp && g.ctx == ctx) with
  | none => s.say (.reduced dev cmd .refused)
  | some g => s.contribute g (some dev) cmd gid rtag shape ws

/-- The words of a command's contribution read one after the other, then it contributes; a fault parks it (R227, R357, R359). -/
def State.credRead (s : State) (id fuel : Nat) (g : RGroup) : State :=
  match fuel, s.cmd? id with
  | 0, _ => s
  | _, none => s
  | k + 1, some c =>
    if c.credBytes / 4 ≤ c.buf.length then s.contributeCmd c g
    else
      match s.engWord c (vaPair (c.w 0) (c.w 1) + 4 * c.buf.length) with
      | (t, some w) => (t.modCmd id (fun x => { x with buf := x.buf ++ [w], peer := none })).credRead id k g
      | (t, none) => t

/-- The words of the result written to a command's DST; then it has completed (R357). -/
def State.credWrite (s : State) (id fuel : Nat) : State :=
  match fuel, s.cmd? id with
  | 0, _ => s
  | _, none => s
  | k + 1, some c =>
    match c.buf[c.progress]? with
    | none => s.endCmd id
    | some w =>
      let (t, ok) := s.engPut c (vaPair (c.w 2) (c.w 3) + 4 * c.progress) w
      if ok then (t.modCmd id (fun x => { x with progress := x.progress + 1, peer := none })).credWrite id k else t

/-- CRED_CONTRIBUTION_ARRIVAL (R357, R358). -/
def execCredContributionArrival (id : Nat) (s : State) : Host.Outcome State Fault Refusal :=
  .next (
    match s.cmd? id with
    | none => s
    | some c =>
      if c.state ≠ .accepted then s
      else if c.arg = 1 then s.credWrite id (c.buf.length + 1)
      else
        match s.rgroups.find? (fun g => g.rgrp == c.w 6 && g.ctx == c.ctx) with
        | none => s.failCmd id .prot 0
        | some g =>
          if credLimit (c.w 5) < g.n then s.failCmd id .syserr 0
          else s.credRead id (c.credBytes / 4 + 1) g)

/-- What a peer's access asks for, and its size. -/
def PeerAsk.need (a : PeerAsk) : BitVec 3 :=
  match a.op with
  | .probe _ need => need
  | .read _ => needR
  | .write _ _ => needW
  | .atomic .. => needRW
def PeerAsk.size (a : PeerAsk) : Nat :=
  match a.op with
  | .probe n _ => n
  | .read n => n
  | .write n _ => n
  | .atomic n .. => n

/-- The translation of a peer's access in the tables of the context that it names; it uses the TLB and the walks of die 0's engines (R354, log entry 75). -/
def State.askTrans (s : State) (a : PeerAsk) (need : BitVec 3) (n : Nat) : Trans :=
  if (s.ctxRec a.ctx).isNone then .refused false
  else ((s.translateHere a.id (engineCore 0) a.ctx a.va need).seen false).struck s true n

/-- A peer's access performed at its home, as that of an agent of sys scope (R355): what it reads. -/
def State.performAsk (s : State) (a : PeerAsk) (l : Loc) : State × BitVec 128 :=
  let undef := s.undefIn a.ctx a.va l a.size
  match a.op with
  | .probe _ _ => (s, 0)
  | .read n =>
    ((s.touchLine a.ctx a.va l true 0 0).useFree (if undef then n else 0), BitVec.ofNat 128 (if undef then s.freeValue n else s.getN l n))
  | .write n v =>
    let area := s.inArea a.ctx a.va
    (((s.putN l (if area then s.freeValue n else v.toNat) n).touchLine a.ctx a.va l false 0 0).useFree (if area then n else 0), 0)
  | .atomic n opa sgn flt v nv =>
    let r := s.performAtom { lane := 0, loc := l, size := n, opa := opa, v := v, nv := nv, sgn := sgn, flt := flt, words := [], movable := false, undef := undef }
    (r.1, r.2.setWidth 128)

/-- A peer's access has its answer. -/
def State.answerAsk (s : State) (a : PeerAsk) (v : PeerAnswer) : State :=
  (({ s with peerAsks := s.peerAsks.filter (fun x => x.id != a.id) } : State).dropAnswersOf a.id).say (.peerServed a.dev a.tag v)

/-- Whether a peer's access waits for a walk that is queued. -/
def State.askWaits (s : State) (a : PeerAsk) : Bool :=
  match s.askTrans a a.need a.size with
  | .walk _ => (s.dieRec 0).walks.any (fun r => r.ctx == a.ctx && r.page == a.va / 4096 && r.need == a.need)
  | _ => false

/-- A peer's access served, or its walk queued; the pager here repairs a page that is absent, and the peer hears when it has (R354). -/
def State.serveAsk (s : State) (a : PeerAsk) : State :=
  match s.askTrans a a.need a.size with
  | .ok l => ((s.noteWalk (engineCore 0) a.ctx a.va).performAsk a l).1.answerAsk a (.done (s.performAsk a l).2)
  | .absent h => (({ s.noteWalk (engineCore 0) a.ctx a.va with peerFaults := s.peerFaults ++ [⟨a.dev, a.ctx, a.va⟩] } : State).tellFault 0 a.ctx a.va a.need h false).answerAsk a .absent
  | .walk ats => s.queueWalk (engineCore 0) a.ctx a.va a.need ats
  | _ => s.answerAsk a .refused

/-- The oldest access of a peer that can be served now: those of one device are served in order (R355). -/
def State.askDue (s : State) : Option PeerAsk :=
  s.peerAsks.find? (fun a => !s.askWaits a && !s.peerAsks.any (fun b => b.dev == a.dev && decide (b.id < a.id)))

/-- A peer's answer to an access of the device's own: who made it goes on (R354); the device OS hears of a refusal. -/
def State.farAnswered (s : State) (a : FarAccess) (v : PeerAnswer) : State :=
  let s1 : State := { s with far := s.far.map (fun x => if x.id = a.id then { x with answer := some v } else x) }
  if v = .refused then s1.ask (.deviceFault a.ctx a.va true)
  else (((s1.resumeSaves a.ctx (a.va / 4096)).recheckEnd a.who).post (.launchComplete 0))

/-- A peer's answer to a command, to an access of the device's own, or to the intake of a context that reads a count word (R354). -/
def State.peerAnswered (s : State) (id : Nat) (v : PeerAnswer) : State :=
  match s.cmd? id, s.far.find? (fun a => a.id == id && a.answer.isNone) with
  | some c, _ => if c.state = .waiting ∧ c.kind ≠ .mma then (s.modCmd id (fun x => { x with peer := some v })).resumeCmd id else s
  | none, some a => s.farAnswered a v
  | none, none =>
    match s.ctxs.find? (fun c => c.cntPeer.any (fun p => p.1 == id)) with
    | some c => (s.modCtx c.ctx (fun x => { x with cntPeer := x.cntPeer.map (fun p => (p.1, p.2.1, some v)) })).post (.launchFire c.ctx)
    | none => s

/-- PEER_ACCESS (R354 to R358): what arrives from a device over the links. -/
def execPeerAccess (dev : BitVec 12) (num : Nat) (m : PeerMsg) (s : State) : Host.Outcome State Fault Refusal :=
  .next (
    match m with
    | .answer lane v => if num ≠ 0 then s.peerReply num lane v else s.peerAnswered lane v
    | .settled ctx va ok => s.settlePage ctx va false ok
    | .access rctx va op =>
      let a : PeerAsk := { id := s.nextId, dev := dev, tag := num, ctx := rctx.toNat, va := va, op := op }
      let s1 : State := { s with peerAsks := s.peerAsks ++ [a], nextId := s.nextId + 1 }
      if s.peerAsks.any (fun b => b.dev == dev) then s1 else s1.serveAsk a
    | .contribution gid ctx rgrp rtag fn count kind ws => s.contributeFor dev num gid ctx rgrp rtag (fn, count, kind.toNat % 16) ws
    | .reduced r =>
      match s.cmd? num with
      | some c => if c.state = .waiting ∧ c.arg = 0 then s.reduced num r else s
      | none => s)

end Sys2Proof.Machine
end

