-- ==== Sys2Proof/Machine/Cancel.lean ====
section
/-!
DEFINITION. CANCEL (R254, R258, R287, R318): what it does to launches, records and streams; CANCEL_TIMEOUT; the dropping of units; CONTEXT_TEARDOWN (R254, R289, R392).
-/
namespace Sys2Proof.Machine

/-- The groups of a unit. -/
def State.unitGroups (s : State) (uid : Nat) : List Group := s.allGroups.filter (fun g => g.live && g.uid == uid && g.uid != 0)

/-- The streams of a unit. -/
def State.unitStreams (s : State) (uid : Nat) : List Stream :=
  s.allStreams.filter (fun x => x.sid != 0 && (s.unitGroups uid).any (fun g => g.gid == x.gid))

/-- Whether a stream has sent the requests of an OBJCALL and waits for its replies (R254, R318). -/
def Stream.owedReplies (x : Stream) : Bool :=
  match x.status with
  | .waitReplies => true
  | _ => false

/-- What CANCEL does to a stream: a running one, held at issue or not, stops at its next restart point, an OBJCALL waits for its replies first, any other is dropped at once (R318). -/
def Stream.cancelled (x : Stream) (now : Nat) : Stream :=
  if x.status = .runnable ∨ (x.status = .entryParked ∧ x.faults = []) ∨ x.heldAtIssue ∨ x.owedReplies then
    { x with cancelAt := some (x.cancelAt.getD now) }
  else { x with status := .stopped }

/-- The commands of a group that is dropped: LAUNCH runs on; copies and reductions leave their destinations undefined (R318, R358), and who waits for a CFETCH of it looks again (R242). -/
def State.abandonCmds (s : State) (gid : Nat) : State :=
  let gone := s.cmds.filter (fun c => c.gid == gid && c.kind != .launch)
  let s1 := (gone.filter (fun c => !c.isOver && (match c.kind with
    | .copy _ | .cred _ => true
    | _ => false))).foldl State.scramble s
  (gone.filter (fun c => !c.isOver)).foldl State.wakeFetch { s1 with cmds := s1.cmds.filter (fun c => !gone.any (fun x => x.id == c.id)) }

/-- A unit's groups with their streams and commands leave their cores; what has retired stands (R318). -/
def State.dropGroups (s : State) (uid : Nat) : State :=
  let gs := s.unitGroups uid
  let s1 := ((s.unitStreams uid).map (·.sid)).foldl State.flushHeld s
  let s2 : State := { s1 with requests := s1.requests.filter (fun r => !(s.unitStreams uid).any (fun x => x.sid == r.sid)) }
  gs.foldl (fun t g => (t.abandonCmds g.gid).removeGroup g.gid) s2

/-- A unit dropped without a save: no lane of its groups is left, which then end as groups do, with their profile records; the unit counts as ended with the last of them (R258, R318, R376). -/
def State.dropUnit (s : State) (u : UnitRec) : State :=
  let gs := s.unitGroups u.uid
  let mine : Stream → Bool := fun x => gs.any (fun g => g.gid == x.gid)
  let sids := (s.unitStreams u.uid).map (·.sid)
  let s1 := sids.foldl State.flushHeld s
  let s2 := gs.foldl (fun t g => t.abandonCmds g.gid) { s1 with requests := s1.requests.filter (fun r => !sids.contains r.sid) }
  let s3 : State := { s2 with streams := s2.streams.filter (fun x => !mine x), st := if mine s2.st then Stream.none else s2.st }
  let s4 := (s3.mapGroups (fun g => if g.live ∧ g.uid = u.uid then { g with alive := 0 } else g)).modUnit u.uid (fun x =>
    { x with saving := none, stepping := false })
  gs.foldl (fun t g => t.post (.groupEnd g.gid)) s4

/-- Whether every stream of a unit has stopped for a CANCEL. -/
def State.allStopped (s : State) (u : UnitRec) : Bool :=
  let xs := s.unitStreams u.uid
  u.live && u.uid != 0 && !xs.isEmpty && xs.all (fun x => decide (x.status = .stopped))

/-- Units whose streams have all stopped are dropped (R318). -/
def State.dropStopped (s : State) : State := (s.allUnits.filter s.allStopped).foldl State.dropUnit s

/-- The groups of a saved unit that a CANCEL has dropped end one after the other, with their profile records; the unit counts as ended with the last of them, or waits for the page of the ring (R258, R318, R376). -/
def State.endSaved (s : State) (v : SavedUnit) (gs : List Group) : State :=
  match gs with
  | [] =>
    (({ s with saved := s.saved.filter (fun w => w.unit.uid != v.unit.uid) } : State).modLaunch v.unit.launch (fun l =>
      { l with ended := l.ended + 1, count := bumpCount l.count (-1) })).post (.launchComplete v.unit.launch)
  | g :: r =>
    match s.profile { g with stalls := g.stalls.modify 0 (· + (s.dev.clock.toNat - v.savedAt)) } v.unit with
    | .ok t => t.endSaved v r
    | .error (t, va) => { t with saved := t.saved.map (fun w => if w.unit.uid = v.unit.uid then
        { w with groups := gs, unit := { w.unit with saveWait := some (va / 4096) } } else w) }

/-- CANCEL of a launch that has fired: nothing more of it is placed, its saved units are dropped and leave the global destinations of their suspended copies undefined, its streams stop (R258, R318). -/
def State.cancelLaunch (s : State) (key : Nat) : State :=
  match s.launches.find? (fun l => l.key == key) with
  | none => s
  | some l =>
    let n := l.pending.length + (l.chunks.flatMap (fun c => c.map (fun k => min 8 (l.units - 8 * k)))).sum
    let saved := s.saved.filter (fun v => v.unit.launch == key && !v.dropped)
    let s1 := (saved.flatMap (fun v => v.cmds.filter (fun c => !c.isOver))).foldl (fun t c => t.scramble { c with destPa := [] }) s
    let s2 := ({ s1 with saved := s1.saved.map (fun v => if v.unit.launch = key ∧ !v.dropped then
        { v with dropped := true, queued := none, cmds := [], unit := { v.unit with saveWait := none } } else v) } : State).modLaunch key (fun x =>
      { x with cancelled := true, pending := [], chunks := x.chunks.map (fun _ => []), ended := x.ended + n, count := bumpCount x.count (-n) })
    let mine : Stream → Bool := fun x => s2.allGroups.any (fun g => g.live && g.gid == x.gid && g.uid != 0 &&
      s2.allUnits.any (fun u => u.live && u.uid == g.uid && u.launch == key))
    (s2.mapStreams (fun x => if mine x && x.sid != 0 then x.cancelled s.dev.clock.toNat else x)).post (.launchComplete key)

/-- CANCEL of a record that has not fired: it is dropped with its completion record (R258). -/
def State.cancelQueued (s : State) (ctx queue : Nat) (q : QueuedRec) : State :=
  ((s.unqueue ctx queue q.lnum).complete ctx q.fields.tag q.units q.lid 2 0 0).leaveLevels
    ctx q.fields q.graphid q.child

/-- The records of a context's queues that have entered their levels, with their queues. -/
def State.queuedOf (s : State) (ctx : Nat) : List (Nat × QueuedRec) :=
  match s.ctxRec ctx with
  | some c => (List.range 8).flatMap (fun k => ((c.waiting k).filter (·.valid)).map (fun q => (k, q)))
  | none => []

/-- CANCEL of everything beneath a level that p and q describe. -/
def State.cancelBeneath (s : State) (ctx : Nat) (p : Launch → Bool) (q : QueuedRec → Bool) : State :=
  let ls := s.launches.filter (fun l => l.ctx == ctx && p l)
  let s1 := ls.foldl (fun t l => t.cancelLaunch l.key) s
  ((s1.queuedOf ctx).filter (fun x => q x.2)).foldl (fun t x => t.cancelQueued ctx x.1 x.2) s1

/-- CANCEL of a level (R258); of a job it reaches what its units still LAUNCH and the records that have still to be validated. -/
def State.cancelLevel (s : State) (ctx : Nat) (v : Level) : State :=
  match v with
  | .launch key => s.cancelLaunch key
  | .queued k n =>
    match (s.queuedOf ctx).find? (fun x => x.1 == k && x.2.lnum == n) with
    | some x => s.cancelQueued ctx k x.2
    | none => s
  | .counter kind id =>
    let graph : Word := BitVec.ofNat 32 (0x10000 + id)
    let phase : Word := BitVec.ofNat 32 id
    (s.modCounter kind ctx id (fun c => { c with cancelled := true })).cancelBeneath ctx
      (fun l => if kind = 1 then l.graphid == graph else l.phaseid == phase)
      (fun q => if kind = 1 then q.graphid == graph else q.phaseid == phase)
  | .job =>
    let s1 : State := { s.modCtx ctx (fun c => { c with queues := c.queues.map (fun l => l.map (fun q => { q with dropped := true })) }) with
      launches := s.launches.map (fun l => if l.ctx = ctx then { l with dropped := true } else l)
      cmds := s.cmds.map (fun c => if c.ctx = ctx ∧ c.kind = .launch then { c with dropped := true } else c) }
    s1.cancelBeneath ctx (fun _ => true) (fun _ => true)

/-- CANCEL (R287): a release at dev scope; it performs at retirement. -/
def execCancel (g : BitVec 4) (a : BitVec 6) (l : BitVec 2) (s : State) : Host.Outcome State Fault Refusal :=
  s.runN (s.onLevel g a l (fun s1 v => s1.released (fun s2 =>
    match v with
    | some x => .next (s2.cancelLevel s2.gr.ctx x)
    | none => .next s2)))

/-- CANCEL_TIMEOUT: a stream that has set no restart point within 65,536 cycles of its CANCEL is stopped (R318). -/
def execCancelTimeout (sid : Nat) (s : State) : Host.Outcome State Fault Refusal :=
  .next ((s.modStream sid (fun x =>
    match x.cancelAt with
    | some t => if t + 65536 ≤ s.dev.clock.toNat ∧ !x.owedReplies then { x with status := .stopped } else x
    | none => x)).dropStopped)

/-- The streams whose CANCEL has run out. -/
def State.cancelsDue (s : State) : List Nat :=
  (s.allStreams.filter (fun x => match x.cancelAt with
    | some t => decide (t + 65536 ≤ s.dev.clock.toNat) && !x.owedReplies && decide (x.status ≠ .stopped)
    | none => false)).map (·.sid)

/-- CONTEXT_TEARDOWN: the context's units, fragments, batches, queued requests and records go without replies, and every copy of its translations and code with them; its key is destroyed (R254, R289, R300, R392). -/
def execContextTeardown (ctx : Nat) (s : State) : Host.Outcome State Fault Refusal :=
  .next (
    let mine : Nat → Bool := fun gid => s.allGroups.any (fun g => g.live && g.gid == gid && g.ctx == ctx)
    let us := s.allUnits.filter (fun u => u.live && u.ctx == ctx && u.uid != 0)
    let s1 := us.foldl (fun t u => (t.dropGroups u.uid).removeUnit u) s
    let waves := (s1.allGroups.filter (fun g => g.live && g.ctx == ctx && g.uid == 0 && s1.allStreams.any (fun x => x.gid == g.gid && x.wave.isSome))).map (·.gid)
    let s2 := waves.foldl State.removeGroup s1
    let s3 : State := { s2 with
      ctxs := s2.ctxs.filter (fun c => c.ctx != ctx)
      launches := s2.launches.filter (fun l => l.ctx != ctx)
      counters := s2.counters.filter (fun c => c.ctx != ctx)
      saved := s2.saved.filter (fun v => v.unit.ctx != ctx)
      cmds := s2.cmds.filter (fun c => c.ctx != ctx)
      requests := s2.requests.filter (fun r => r.ctx != ctx)
      records := s2.records.filter (fun r => r.ctx != ctx)
      reductions := s2.reductions.filter (fun r => r.ctx != ctx)
      replies := s2.replies.filter (fun r => !(s.allStreams.any (fun x => x.sid == r.sid && mine x.gid)))
      rgroups := s2.rgroups.filter (fun g => g.ctx != ctx)
      submit := s2.submit.filter (fun p => p.ctx != ctx)
      far := s2.far.filter (fun a => a.ctx != ctx)
      spoils := s2.spoils.filter (fun x => x.1 != ctx)
      tlb := s2.tlb.filter (fun e => e.ctx != ctx)
      l1 := s2.l1.filter (fun e => e.ctx != ctx)
      overlays := s2.overlays.filter (fun o => o.ctx != ctx)
      dies := s2.dies.map (fun d => { d with
        walks := d.walks.map (fun r => if r.ctx = ctx then { r with stale := true } else r), answers := d.answers.filter (fun r => r.ctx != ctx) }) }
    ((List.range Config.dies).foldl (fun t d => t.post (.conjugatorBatchStart d)) s3).retryPlacement)

end Sys2Proof.Machine
end

