-- ==== Sys2Proof/Machine/Clauses.lean ====
section
/-!
DEFINITION. The events of an instruction stream: the clause fetch (R18, R44, R45, R128, R129, R309), promotion (R141), resumption after a repair (R290, R294, R301), the spill engine's moves (R183, R184) and a handler's watchdog (R306).
-/
namespace Sys2Proof.Machine

/-- R129: PENDs that match the header at the PC are merged into EXM. The flag says whether any was. A top entry that stands spilled is compared as it was pushed, and merged as memory gives it back (log entry 68). -/
def State.convMerge (s : State) (fuel : Nat) : Except LaneFault (State × Bool) :=
  match fuel with
  | 0 => .ok (s, false)
  | k + 1 =>
    match s.st.entries with
    | [] => .ok (s, false)
    | e :: _ =>
      if !e.join && e.addr == s.st.pc && e.depth == s.st.dep && e.fmt == s.st.fmt then
        match s.refillStack with
        | .error f => .error f
        | .ok s1 =>
          match s1.st.stack with
          | [] => .ok (s, false)
          | p :: r =>
            match (s1.modSt (fun x => { x with stack := r, exm := x.exm ||| (p.mask &&& x.base) })).convMerge k with
            | .error f => .error f
            | .ok (s2, _) => .ok (s2, true)
      else .ok (s, false)

/-- R18 steps 1 and 2 and R309: MARK sets the restart point, once, then WAIT waits, then the clause starts. -/
def State.enterClause (s : State) (h : Word) : State :=
  let s1 := if hdrMark h && !s.st.marked then s.markRestart else s
  if s1.st.status = .stopped then s1
  else if hdrWait h &&& s1.st.pending ≠ 0 then s1.modSt (fun x => { x with status := .waitFlags, marked := hdrMark h })
  else (s1.slotUsed s1.gr.coreId s1.gr.ctx (segOf s1.st.pc)).modSt (fun x =>
    { x with hdr := h, pc := x.pc + 4, pos := 1, ext := none, fresh := false, marked := false })

/-- The clause fetch of the issuing stream. THDR of a SEG_ABSENT here is 0: DESIGN CHOICE, log entry 16. -/
def State.fetchClause (s : State) : State :=
  let atJoin : Bool := match s.st.topJoin with
    | some (_, e) => e.addr == s.st.pc && e.depth == s.st.dep
    | none => false
  let atSentinel : Bool := match s.st.kind with
    | .fragment _ => s.st.pathd == 0 && s.st.rejoinPos.isSome && s.st.rejoinAddr == s.st.pc && s.st.rejoinDep == s.st.dep
    | _ => false
  if s.st.exm = 0 ∨ atJoin ∨ atSentinel then s.pathEnd
  else
    let slot := if s.st.fresh then s.slotFor s.gr.coreId s.gr.ctx (segOf s.st.pc) else s.slotOf s.st s.gr.coreId s.gr.ctx (segOf s.st.pc)
    match slot with
    | none =>
      if s.isWave then State.finish s false (s.fetchMethod (segOf s.st.pc))
      else if s.fetching s.st.pc then s.modSt (fun x => { x with status := .waitFetch (segOf x.pc) })
      else if s.st.privileged then s.handlerFetch s.st.pc
      else (s.modSt (fun x => { x with hdr := 0 })).takeTrap .segAbsent s.st.exm []
        { TrapInfo.plain with cmdPc := BitVec.ofNat 57 (segOf s.st.pc) }
    | some o =>
      let s := s.modSt (fun x => { x with slot := some o.gen })
      let h := sparseGet 0#32 o.words (s.st.pc.toNat % 4096 / 4 * 4)
      if 0xFFC < s.st.pc.toNat % 4096 + 4 * hdrN h then
        (s.modSt (fun x => { x with hdr := h })).takeTrap .illegal s.st.exm [] TrapInfo.plain
      else if hdrConv h then
        match s.convMerge (s.st.pathd + 1) with
        | .error f => s.parkOn [f]
        | .ok (s1, merged) => (if merged then s1.markRestart else s1).enterClause h
      else s.enterClause h

/-- CLAUSE_FETCH (R128). -/
def execClauseFetch (s : State) : Host.Outcome State Fault Refusal := .next s.fetchClause

/-- STREAM_PROMOTION: a stream that has been runnable for 256 cycles without being served is promoted (R141). -/
def execStreamPromotion (sid : Nat) (s : State) : Host.Outcome State Fault Refusal :=
  .next (({ s with dev := { s.dev with promotions := s.dev.promotions + 1 } } : State).modStream sid (fun x =>
    if x.status = StreamStatus.runnable ∧ x.promoted = none ∧ 256 ≤ x.idle then
      { x with promoted := some s.dev.promotions } else x))

/-- A parked stream whose faults are all settled goes on, in the order in which repairs make streams runnable (R294): with none unrecoverable it replays its instruction, else it traps PROT for the lanes declared so (R300). A path that was ending has no lane to trap for and ends its group (log entry 19). -/
def State.resumeParked (s : State) : State :=
  if s.st.status ≠ .parked ∨ s.st.faults.any (fun f => f.settled.isNone) then s
  else
    let dead := s.st.faults.filter (fun f => f.settled == some false)
    let s1 := { s with nextId := s.nextId + 1 }.modSt (fun x => { x with status := .runnable, repair := s.nextId })
    if dead.isEmpty then
      s1.modSt (fun x => { x with fresh := true })
    else
      let t := Mask.ofLanes (dead.map (·.lane))
      if s.owedBank.isSome then s
      else if s1.st.exm = 0 then s1.double Cause.prot.code.toNat s1.st.pc 0 0
      else let live := if t &&& s1.st.exm = 0 then s1.st.exm else t &&& s1.st.exm
        s1.takeTrap .prot live (dead.flatMap (fun f => if f.lane = 64 then live.lanes.map (fun l => (l, f.protRecord)) else [(f.lane, f.protRecord)])) TrapInfo.plain

/-- FRAGMENT_RESUME (R290, R300); a fragment that waits for one of the 8 places of its group keeps its order (R294). -/
def execFragmentResume (sid : Nat) (s : State) : Host.Outcome State Fault Refusal :=
  .next (let t := s.focus sid; if t.st.sid = sid then t.resumeParked else t)

/-- HANDLER_ENTRY_RESUME (R301). -/
def execHandlerEntryResume (sid : Nat) (s : State) : Host.Outcome State Fault Refusal :=
  .next (
    let t := s.focus sid
    if t.st.sid ≠ sid ∨ t.st.status ≠ .entryParked ∨ t.st.faults.any (fun f => f.settled.isNone) then t
    else if t.st.faults.any (fun f => f.settled == some false) then t.doubleIn Cause.prot.code.toNat 0
    else t.completeEntry)

/-- DEMAND_SPILL_DONE: the engine serves the stream's demands and the instruction goes on (R184). -/
def execDemandSpillDone (sid : Nat) (s : State) : Host.Outcome State Fault Refusal :=
  .next (
    let t := s.focus sid
    if t.st.sid ≠ sid ∨ t.st.status ≠ .waitSpill then t
    else (t.modSt (fun x => { x with demand := [], status := .runnable })).serveAll t.st.demand)

/-- BACKGROUND_SPILL (R183). -/
def execBackgroundSpill (gid lane : Nat) (s : State) : Host.Outcome State Fault Refusal :=
  .next (match s.group? gid with
    | some g => s.bgSpill g lane
    | none => s)

/-- BACKGROUND_REFILL (R183). -/
def execBackgroundRefill (gid lane : Nat) (s : State) : Host.Outcome State Fault Refusal :=
  .next (match s.group? gid with
    | some g => s.bgRefill g lane
    | none => s)

/-- WATCHDOG_EXPIRY: the watchdog of a handler path expires (R306, R308, R388). -/
def execWatchdogExpiry (sid : Nat) (s : State) : Host.Outcome State Fault Refusal :=
  .next (
    let t := s.focus sid
    if t.st.sid = sid ∧ t.st.privileged then t.doubleIn Cause.watchdog.code.toNat t.instrPc else t)

end Sys2Proof.Machine
end

