-- ==== Sys2Proof/Machine/CrossLane.lean ====
section
/-!
DEFINITION. The cross-lane instructions: LPERM, LQRY and GRP (R143 to R147). Every source is read before any destination is written.
-/
namespace Sys2Proof.Machine

/-- The shape of R143 for a lane destination: f gives lane l's result from the participating set. -/
def State.cross (s : State) (g : BitVec 4) (d : BitVec 6) (fields : List Nat) (f : Mask → Nat → Word) : Verdict :=
  s.perLane g true (d.toNat :: fields) (fun l x => x.setReg s.gr.allot d.toNat (f (s.active g) l))

/-- LPERM: lane l reads a of lane j if that lane participates, else its own a (R144). -/
def State.lperm (s : State) (g : BitVec 4) (d a b : BitVec 6) (j : Nat → Nat → Option Nat) : Verdict :=
  s.cross g d [a.toNat, b.toNat] (fun p l =>
    match j l (s.reg l b.toNat).toNat with
    | some k => if k < s.gr.width ∧ p.has k then s.reg k a.toNat else s.reg l a.toNat
    | none => s.reg l a.toNat)

/-- The values of a register over the participating lanes. -/
def State.values (s : State) (p : Mask) (a : BitVec 6) : List Word := p.lanes.map (fun l => s.reg l a.toNat)

/-- The sum modulo 2^32. -/
def sumWords (l : List Word) : Word := l.foldl (· + ·) 0

/-- The extreme of a list under f. -/
def foldWords (f : Word → Word → Word) (l : List Word) : Word :=
  match l with
  | [] => 0
  | x :: r => r.foldl f x

/-- LPERM.ABS (R144). -/
def execLpermAbs (g : BitVec 4) (d a b : BitVec 6) (s : State) : Host.Outcome State Fault Refusal :=
  s.run (s.lperm g d a b (fun _ b => some b))

/-- LPERM.BACK (R144). -/
def execLpermBack (g : BitVec 4) (d a b : BitVec 6) (s : State) : Host.Outcome State Fault Refusal :=
  s.run (s.lperm g d a b (fun l b => if b ≤ l then some (l - b) else none))

/-- LPERM.FWD (R144). -/
def execLpermFwd (g : BitVec 4) (d a b : BitVec 6) (s : State) : Host.Outcome State Fault Refusal :=
  s.run (s.lperm g d a b (fun l b => some (l + b)))

/-- LPERM.FLIP (R144). -/
def execLpermFlip (g : BitVec 4) (d a b : BitVec 6) (s : State) : Host.Outcome State Fault Refusal :=
  s.run (s.lperm g d a b (fun l b => some (l ^^^ b)))

/-- LANY (R145). -/
def execLany (g : BitVec 4) (d a : BitVec 6) (s : State) : Host.Outcome State Fault Refusal :=
  s.run (s.cross g d [a.toNat] (fun p _ => if (s.values p a).any (· != 0) then 1 else 0))

/-- LALL (R145). -/
def execLall (g : BitVec 4) (d a : BitVec 6) (s : State) : Host.Outcome State Fault Refusal :=
  s.run (s.cross g d [a.toNat] (fun p _ => if (s.values p a).all (· != 0) then 1 else 0))

/-- LMASK: the scalar pair is written once, even for no lane (R145). -/
def execLmask (g : BitVec 4) (d a : BitVec 6) (s : State) : Host.Outcome State Fault Refusal :=
  s.run (
    if !isPair d.toNat then .trap .illegal s.st.exm s
    else if s.beyondIn (s.active g) [a.toNat] ≠ 0 then .trap .regBound (s.beyondIn (s.active g) [a.toNat]) s
    else .next (s.setSpair d.toNat (Mask.ofPred (fun l => (s.active g).has l && s.reg l a.toNat != 0))))

/-- LSAME (R145). -/
def execLsame (g : BitVec 4) (d a : BitVec 6) (s : State) : Host.Outcome State Fault Refusal :=
  s.run (s.cross g d [a.toNat] (fun p _ =>
    if (s.values p a).all (· == (s.values p a).headD 0) then 1 else 0))

/-- RDXADD (R146). -/
def execRdxadd (g : BitVec 4) (d a : BitVec 6) (s : State) : Host.Outcome State Fault Refusal :=
  s.run (s.cross g d [a.toNat] (fun p _ => sumWords (s.values p a)))

/-- RDXMIN (R146). -/
def execRdxmin (g : BitVec 4) (d a : BitVec 6) (s : State) : Host.Outcome State Fault Refusal :=
  s.run (s.cross g d [a.toNat] (fun p _ => foldWords sMin (s.values p a)))

/-- RDXMAX (R146). -/
def execRdxmax (g : BitVec 4) (d a : BitVec 6) (s : State) : Host.Outcome State Fault Refusal :=
  s.run (s.cross g d [a.toNat] (fun p _ => foldWords sMax (s.values p a)))

/-- SCANADD (R146). -/
def execScanadd (g : BitVec 4) (d a : BitVec 6) (s : State) : Host.Outcome State Fault Refusal :=
  s.run (s.cross g d [a.toNat] (fun p l => sumWords (s.values (p &&& Mask.below (l + 1)) a)))

/-- SCANADDX (R146). -/
def execScanaddx (g : BitVec 4) (d a : BitVec 6) (s : State) : Host.Outcome State Fault Refusal :=
  s.run (s.cross g d [a.toNat] (fun p l => sumWords (s.values (p &&& Mask.below l) a)))

/-- RANK (R146). -/
def execRank (g : BitVec 4) (d a : BitVec 6) (s : State) : Host.Outcome State Fault Refusal :=
  s.run (s.cross g d [a.toNat] (fun p l =>
    BitVec.ofNat 32 ((s.values (p &&& Mask.below l) a).countP (· == s.reg l a.toNat))))

/-- COUNT (R146). -/
def execCount (g : BitVec 4) (d a b : BitVec 6) (s : State) : Host.Outcome State Fault Refusal :=
  s.run (s.cross g d [a.toNat, b.toNat] (fun p l =>
    BitVec.ofNat 32 ((s.values p a).countP (· == s.reg l b.toNat))))

/-- FRDXADD: the tree of R39 over the group's lanes, absent where they do not participate (R147). A NaN root is delivered as the canonical NaN, a lone lane's too (R27; DESIGN CHOICE against R39's unchanged child, log entry 63). -/
def execFrdxadd (g : BitVec 4) (d a : BitVec 6) (s : State) : Host.Outcome State Fault Refusal :=
  s.run (s.cross g d [a.toNat] (fun p _ =>
    canonical ((treeSum fAdd 6 ((List.range 64).map (fun l => if p.has l then some (s.reg l a.toNat) else none))).getD 0)))

end Sys2Proof.Machine
end

