-- ==== Sys2Proof/Machine/Preempt.lean ====
section
/-!
DEFINITION. Saving and restarting units (R309 to R317, R332, R374, R376): PREEMPT_REQUEST, PRECISE_STOP, UNIT_RESTART, SINGLE_STEP and CONTEXT_SWITCH.
-/
namespace Sys2Proof.Machine

/-- Whether a stream stands past a retired arrival, at a JOIN, arrived, or before a handler whose entry has still to complete: its restart point is where it stands, and it keeps its place in a save (R152, R301, R314, R332). One in a BWAIT has not retired it (R316). -/
def Stream.keepsPlace (x : Stream) : Bool :=
  x.exm == 0 || (match x.status with
    | .waitBarrier _ => !x.bwait
    | .waitSyscall | .waitJoin | .arrived | .entryParked | .stopped => true
    | _ => false)

/-- A stream back at its restart point: what it has not retired is discarded, pushes above PATHD with it (R311, R312). -/
def Stream.discard (x : Stream) : Stream :=
  let r := x.restart
  let all := x.stack ++ x.below
  { x with status := .runnable, pc := r.pc, hdr := r.hdr, pos := r.pos, ext := .none, edged := false, exm := r.exm, dep := r.dep,
           fmt := r.fmt, stack := all.drop (all.length - r.pathd), below := [] }

/-- What a save leaves of a stream: its flags are clear and nothing of it is under way (R312, R316). One in a BWAIT waits again, at its restart point (R152). -/
def Stream.suspend (x : Stream) : Stream :=
  let y := if x.keepsPlace then { x with stack := x.stack ++ x.below, below := [] } else x.discard
  let st : StreamStatus := match x.status with
    | .waitBarrier n => .waitBarrier n
    | .waitSyscall => .waitSyscall
    | .waitJoin => .waitJoin
    | .arrived => .arrived
    | .entryParked => .entryParked
    | .stopped => .stopped
    | _ => .runnable
  { y with status := st, fresh := true, flags := List.replicate 12 0, loads := [], held := [], heldFlags := [], peer := [], demand := [],
           faults := [], promoted := .none, splits := [], reissues := 0, atLimit := false, unsplit := false, woken := false,
           bwait := y.bwait && x.restart.pc == x.pc, bank := if x.status = .entryParked then x.bank else [], admitted := false, slot := .none,
           marked := false }

/-- The restart point of the issuing stream set to its oldest unretired instruction (R314, R374). -/
def State.atBoundary (s : State) : State :=
  s.modSt (fun x => { x with restart := { s.snapshot with pc := s.instrPc, pos := s.instrPos } })

/-- Whether a stream is a fragment that has still to replay the instruction at which it split: its restart point stands there since then (R290, R309). -/
def Stream.unreplayed (x : Stream) : Bool :=
  x.replay.isSome && (match x.kind with
    | .fragment _ => true
    | _ => false)

/-- The restart point that a save finds: a stream that is parked on a fault, or whose path is at its end, has it where it stands (R309, R314). -/
def State.placeRestart (s : State) : State :=
  if (s.st.status = .parked ∧ !s.st.unreplayed) ∨ (s.st.exm = 0 ∧ s.st.status = .runnable) then s.atBoundary else s

/-- Every stream of a unit at its boundary, on behalf of a precise stop (R374). -/
def State.boundaries (s : State) (sids : List Nat) : State :=
  sids.foldl (fun t i => let f := t.focus i; if f.st.sid = i ∧ !f.st.keepsPlace then f.atBoundary else f) s

/-- The copy whose matrix part a command is, if it is one of a CP.MMA that has not been handed on (R240). -/
def State.copyOf (s : State) (c : Cmd) : Option Cmd :=
  if c.kind = .mma ∧ c.arg ≠ 0 ∧ c.cbatch.isNone then s.cmds.find? (fun x => x.id == c.arg && x.kind = .copy 6 && !x.isOver) else none

/-- Whether a command must complete before its unit can be saved (R312 step 2): an MMA, ACCZ, ACCRD, ACCRS or MMV that is not the matrix part of a CP.MMA, and does not stand behind one whose copy is parked. -/
def State.completesFirst (s : State) (c : Cmd) : Bool :=
  !c.isOver && (match c.kind with
    | .mma => (c.cbatch.isSome || c.mbatch.isSome) && (s.copyOf c).isNone
    | .accz | .accrd | .accrs | .mmv => true
    | _ => false) &&
  !s.cmds.any (fun m => m.gid == c.gid && decide (m.id < c.id) && (match s.copyOf m with
    | some x => (match x.state with
      | .parked _ => true
      | _ => false)
    | none => false))

/-- Whether what a unit has retired is settled (R254, R312, R332). A LAUNCH runs on without the unit. -/
def State.settled (s : State) (uid : Nat) : Bool :=
  let gs := s.unitGroups uid
  let mine : Nat → Bool := fun gid => gs.any (fun g => g.gid == gid)
  let xs := s.unitStreams uid
  !(xs.any (fun x => x.owedReplies || !x.loads.isEmpty || !x.held.isEmpty)) &&
    !(s.allUnits.any (fun u => u.uid == uid && u.sysSent)) && !(s.stores.any (fun p => mine p.gid)) &&
    !(s.atomics.any (fun p => mine p.gid)) && !(s.cmds.any (fun c => mine c.gid && s.completesFirst c))

/-- A save or a restart that meets a page that is not there: with whom it was, the page that it waits for is named (R313, R317); a page in a peer window waits for the peer (R354). -/
def State.heldUp (s : State) (g : Group) (f : LaneFault) : State × Nat :=
  let need := if f.write then needW else needR
  let op : PeerOp := if f.write then .write f.bytes (BitVec.ofNat 128 f.data) else .read f.bytes
  let u : State :=
    if s.travels g.ctx f.va then
      (if f.miss then s.askFar g.uid g.ctx [(f.va, op)]
       else { s with far := s.far.filter (fun a => !(a.who == g.uid && a.ctx == g.ctx && a.va == f.va && decide (a.answer = some .absent))) })
    else if f.miss then s.queueWalk g.coreId g.ctx f.va need f.host
    else (((s.areaWalk g f.va).dropAnswersOf s.st.sid).dropAnswersOf g.uid).tellFault g.die g.ctx f.va need f.host f.refused
  (u, f.va / 4096)

/-- What the device has asked peers for a unit's save or restart is over. -/
def State.forgetFar (s : State) (uid : Nat) : State := { s with far := s.far.filter (fun a => a.who != uid) }

/-- The issuing stream's stack in its spill area, as if by overflow (R312 step 3). -/
def State.spillStack (s : State) : Except LaneFault State :=
  match s.spillEntries s.st.below.length s.st.stack with
  | .error f => .error f
  | .ok s1 => .ok (s1.modSt (fun x => { x with below := x.stack ++ x.below, stack := [] }))

/-- The issuing stream's save block, as nonzero words (R305, R312 step 3); one that the stream has no right to reach holds nothing of it. -/
def State.readBlock (s : State) : Except LaneFault (State × List (Nat × Word)) :=
  match s.getBlock ((List.range 2048).map (4 * ·)) with
  | .ok (t, ws) => .ok (t, ws.filter (fun x => x.2 != 0))
  | .error f => if f.refused && !f.miss then .ok (s, []) else .error f

/-- The streams of a list suspended one after the other, with their save blocks; or the group whose page is not there. -/
def State.suspendAll (s : State) (sids : List Nat) : Except (Group × LaneFault) (State × List (Nat × List (Nat × Word))) :=
  match sids with
  | [] => .ok (s, [])
  | i :: r =>
    let s1 := (s.focus i).placeRestart.modSt Stream.suspend
    match s1.spillStack with
    | .error f => .error (s1.gr, f)
    | .ok s2 =>
      match s2.readBlock with
      | .error f => .error (s2.gr, f)
      | .ok (s3, b) => (s3.suspendAll r).map (fun x => (x.1, (i, b) :: x.2))

/-- Every resident frame word of a lane written to its frame area (R312 step 3). -/
def State.spillLane (s : State) (g : Group) (l : Nat) : Except LaneFault State :=
  let x := g.lanes.getD l Lane.start
  s.spillWords g.uid g l x x.lowres x.resident

/-- The lanes of a list of groups written. -/
def State.spillLanes (s : State) (ls : List (Group × Nat)) : Except (Group × LaneFault) State :=
  match ls with
  | [] => .ok s
  | (g, l) :: r =>
    match s.spillLane g l with
    | .error f => .error (g, f)
    | .ok t => t.spillLanes r

/-- Two words of a value. -/
def two (n : Nat) : List Word := [BitVec.ofNat 32 n, BitVec.ofNat 32 (n / 2 ^ 32)]

/-- STATE and BARN of a stream record (R314, R332). -/
def Stream.recordState (x : Stream) : Nat × Nat :=
  if x.privileged then (4, 0)
  else match x.status with
    | .arrived => (1, 0)
    | .waitBarrier n => (2, n)
    | .waitSyscall => (2, 0xFF)
    | .waitJoin => (3, 0)
    | _ => (0, 0)

/-- A stream record, 448 words (R314). -/
def Stream.record (x : Stream) (g : Group) : List Word :=
  let r := x.restart
  let t := x.trap
  let h := x.privileged
  let st := x.recordState
  let lane : Nat → List Word := fun l =>
    let y := g.lanes.getD l Lane.start
    [BitVec.ofNat 32 y.fb, BitVec.ofNat 32 (y.locals / 8 + (if h then y.trapL / 8 * 8 else 0) + y.preds.toNat * 2 ^ 16), y.lanefault, 0]
  let tb : TransReg → List Word := fun b => two b.va ++ [BitVec.ofNat 32 b.len, if b.bound then 1 else 0]
  [x.sregs, [x.q.setWidth 32, r.fmt], two r.pc.toNat,
    [r.hdr, BitVec.ofNat 32 (st.1 * 2 ^ 28 + st.2 * 2 ^ 20 + r.pos * 2 ^ 16 + fragId g x.kind)], two r.exm.toNat,
    [r.dep, BitVec.ofNat 32 r.pathd, r.cbatch, r.mbatch, g.cmdseq, r.flags.setWidth 32,
     (x.rejoinPos.map (BitVec.ofNat 32)).getD 0xFFFFFFFF, x.unifstk.setWidth 32], x.ix,
    [t.cause.setWidth 32, t.instr], two t.pc.toNat, two t.mask.toNat, [t.hdr, t.fl.setWidth 32, t.depth], two t.cmdPc.toNat,
    [t.cmdSeq, t.frag.setWidth 32], two t.et.toNat, [t.dbgst.setWidth 32], x.tb.flatMap tb,
    (List.range 4).map (fun i => x.arrivals.extractLsb' (32 * i) 32),
    (if h then [t.tfmt, BitVec.ofNat 32 t.hpathd, t.hdep] else [0, 0, 0]), List.replicate 57 0, (List.range 64).flatMap lane].flatten

/-- A suspended command record, 32 words (R315); mat: the descriptor of the matrix part of a CP.MMA, words 8 to 15 of its snapshot (R268). -/
def Cmd.record (c : Cmd) (mat : List Word) (sgrp : Nat) : List Word :=
  let fn := match c.kind with
    | .copy f => f
    | _ => 7
  let progress := match c.kind with
    | .copy f => if cpGather f (c.w 7) || cp2d f (c.w 7) then c.progress / max 1 ((copyShape f c.regs).rb / 4) else 4 * c.progress
    | _ => c.progress
  (List.range 16).map (fun i => if i < 8 ∨ mat = [] then c.w i else mat.getD (i - 8) 0) ++ [c.fmt, c.seq, (c.cbatch.getD (c.mbatch.getD 0)), BitVec.ofNat 32 (fn + sgrp * 2 ^ 8),
    BitVec.ofNat 32 progress] ++ List.replicate 11 0

/-- A byte memory as n words. -/
def Memory.words (m : Memory) (n : Nat) : List Word := (List.range n).map (fun i => BitVec.ofNat 32 (m.getN (4 * i) 4))

/-- A sparse list as n words. -/
def blockWords (b : List (Nat × Word)) (n : Nat) : List Word := (List.range n).map (fun i => sparseGet 0#32 b (4 * i))

/-- The save area of a unit (R313). Barrier words are those of its first core. -/
def SavedUnit.area (v : SavedUnit) (lid : Word) : List Word :=
  let g : Nat → Group := fun gid => (v.groups.find? (fun x => x.gid == gid)).getD Group.none
  let susp := v.cmds.filter (fun c => !c.isOver && (match c.kind with
    | .copy _ | .mmag => true
    | _ => false))
  let bars := ((v.unit.cores[0]?).map (·.bars)).getD []
  [[BitVec.ofNat 32 v.unit.index, lid, BitVec.ofNat 32 v.groups.length, BitVec.ofNat 32 v.streams.length, BitVec.ofNat 32 susp.length,
   BitVec.ofNat 32 (v.unit.cores.length - 1), BitVec.ofNat 32 v.unit.sysarr], List.replicate 57 0,
    (List.range 128).flatMap (fun i => two ((bars[i]?).map Barrier.word |>.getD 0)),
    v.streams.flatMap (fun x => x.record (g x.gid)), v.blocks.flatMap (fun b => blockWords b.2 2048),
    v.groups.flatMap (fun x => x.tiles.flatMap (fun t => (List.range 4096).map (fun i => sparseGet 0#32 t.data i))),
    susp.flatMap (fun c => c.record ((v.cmds.find? (fun m => m.kind = .mma && m.arg == c.id && m.cbatch.isNone)).map (·.regs) |>.getD []) (g c.gid).sgrp), v.unit.cores.flatMap (fun c => c.window.words (v.unit.scratch / 4))].flatten

/-- The streams of a unit in record order: the home paths in group order, then the fragments (R313). -/
def State.recordOrder (s : State) (uid : Nat) : List Nat :=
  let gs := (s.unitGroups uid).mergeSort (fun a b => decide (a.sgrp ≤ b.sgrp))
  let of : (Stream → Bool) → List Nat := fun p => gs.flatMap (fun g => ((s.unitStreams uid).filter (fun x => x.gid == g.gid && p x)).map (·.sid))
  of (fun x => decide (x.kind = .home)) ++ of (fun x => decide (x.kind ≠ .home))

/-- A unit whose retired work is settled is saved and released (R312 to R315): what its ACCRDs have drained stands in their registers. An error: the state with the page that the save waits for. -/
def State.saveUnit (s : State) (u : UnitRec) (precise : Bool) : Except (State × Nat) State :=
  let order := s.recordOrder u.uid
  let ended := s.cmds.filter (fun c => c.kind = .accrd && decide (c.state = .done) && (s.unitGroups u.uid).any (fun g => g.gid == c.gid))
  match (ended.foldl State.landDrain s).suspendAll order with
  | .error (g, f) => .error (s.heldUp g f)
  | .ok (s1, blocks) =>
    let gs := (s1.unitGroups u.uid).mergeSort (fun a b => decide (a.sgrp ≤ b.sgrp))
    match s1.spillLanes (gs.flatMap (fun g => (List.range g.width).map (fun l => (g, l)))) with
    | .error (g, f) => .error (s.heldUp g f)
    | .ok s2 =>
      let mine : Nat → Bool := fun gid => gs.any (fun g => g.gid == gid)
      let runsOn : Cmd → Bool := fun c => match c.kind with
        | .cred _ | .launch => true
        | _ => false
      let kept := (s2.cmds.filter (fun c => mine c.gid && c.kind != .cfetch && !runsOn c)).map (fun c =>
        if c.kind = .accrd ∧ c.state = .done then { c with dests := [], rows := [] } else c)
      let u1 := { s2.unitOf u.uid with saving := none, stepping := false }
      let v : SavedUnit :=
        { unit := u1, groups := gs, streams := order.filterMap s2.stream?, blocks := blocks, cmds := kept, savedAt := s2.dev.clock.toNat }
      let die := ((u1.cores[0]?).map (·.die)).getD 0
      let words := v.area (((s2.launchOf u1).map (·.lid)).getD 0)
      match s.sysPut die u.ctx u.uid [(u1.saveVa, words)], s2.sysPut die u.ctx u.uid [(u1.saveVa, words)] with
      | .error (t, va), _ => .error (t, va / 4096)
      | .ok _, .error _ => .error (s, u1.saveVa / 4096)
      | .ok _, .ok s3 =>
        let s4 := if precise then v.streams.foldl (fun t x =>
            let g := (gs.find? (fun y => y.gid == x.gid)).getD Group.none
            t.trace g.coreId u.ctx 2 (two x.restart.pc.toNat ++ [g.cmdseq, BitVec.ofNat 32 (g.coreSlot * 2 ^ 16 + fragId g x.kind)])
              (BitVec.ofNat 32 x.recordState.1 :: two x.exm.toNat)) s3 else s3
        let fetches := s4.cmds.filter (fun c => mine c.gid && c.kind == .cfetch)
        let s5 : State := { s4 with
          cmds := (s4.cmds.filter (fun c => !(mine c.gid && !runsOn c))).map (fun c => if mine c.gid then { c with flag := none } else c)
          requests := s4.requests.filter (fun r => !order.contains r.sid)
          saved := s4.saved ++ [v] }
        .ok ((fetches.foldl State.wakeFetch (((gs.foldl (fun t g => t.removeGroup g.gid) s5).removeUnit u1).forgetFar u.uid)).say
          (if precise then .stopped u.uid else .saved u.uid)).retryPlacement

/-- A save that has been asked for goes on once it can; one that meets a missing page waits until that is there (R317). -/
def State.trySave (s : State) (u : UnitRec) : State :=
  match u.saving with
  | none => s
  | some precise =>
    if !s.settled u.uid ∨ u.saveWait.isSome then s
    else match s.saveUnit u precise with
      | .ok t => t
      | .error (t, page) => t.modUnit u.uid (fun x => { x with saveWait := some page })

/-- A save asked for: issue stops, held REDs go, and the save goes on when what has retired is settled. -/
def State.askSave (s : State) (uid area : Nat) (precise : Bool) : State :=
  match s.unit? uid with
  | none => s
  | some u =>
    if u.saving.isSome ∨ uid = 0 then s
    else
      let s1 := s.modUnit uid (fun x => { x with saveVa := area / 4096 * 4096, saving := some precise, saveWait := none })
      let s2 := ((s.unitStreams uid).map (·.sid)).foldl State.flushHeld s1
      let s3 := if precise then s2.boundaries ((s.unitStreams uid).map (·.sid)) else s2
      s3.trySave (s3.unitOf uid)

/-- PREEMPT_REQUEST (R312): the unit, and the save area that the device OS gives it. -/
def execPreemptRequest (uid area : Nat) (s : State) : Host.Outcome State Fault Refusal := .next (s.askSave uid area false)

/-- PRECISE_STOP (R374). -/
def execPreciseStop (uid area : Nat) (s : State) : Host.Outcome State Fault Refusal :=
  .next (if s.debuggable (s.unitOf uid).ctx then s.askSave uid area true else s)

/-- The lowest free pool entries of a core (R290, R305). -/
def State.poolEntries (s : State) (core n : Nat) : Option (List Nat) :=
  let used : List Nat := s.allStreams.filterMap (fun x => match x.kind with
    | .fragment e => if s.allGroups.any (fun g => g.live && g.gid == x.gid && g.coreId == core) then some e else none
    | _ => none)
  let free := ((List.range 64).filterMap (fun i => if used.contains (64 + i) then none else some (64 + i))).take n
  if free.length = n then some free else none

/-- A copy's destination in a window that has moved. -/
def moveDest (old new : List UnitCore) (scratch : Nat) (r : Nat × Nat) : Nat × Nat :=
  let at_ : UnitCore → Nat := fun c => Config.onChip + c.die * 2 ^ 44 + c.core * 2 ^ 38 + c.base
  match (old.zip new).find? (fun p => decide (at_ p.1 ≤ r.1) && decide (r.1 < at_ p.1 + scratch)) with
  | some (a, b) => (r.1 - at_ a + at_ b, r.2)
  | none => r

/-- The windows of a group's lanes read back from its frame area: [FB, FB + 58) of each (R316 step 2). -/
def State.restoreLanes (s : State) (g : Group) (ls : List Lane) (l : Nat) : Except LaneFault (State × List Lane) :=
  match ls with
  | [] => .ok (s, [])
  | x :: r =>
    match s.refillWords g.uid g l { x with col := [], lowres := x.fb } x.fb 58 with
    | .error f => .error f
    | .ok (t, y) => (t.restoreLanes g r (l + 1)).map (fun p => (p.1, y :: p.2))

/-- The groups of a list with their windows back. -/
def State.restoreGroups (s : State) (gs : List Group) : Except (Group × LaneFault) (State × List Group) :=
  match gs with
  | [] => .ok (s, [])
  | g :: r =>
    match s.restoreLanes g g.lanes 0 with
    | .error f => .error (g, f)
    | .ok (t, ls) => (t.restoreGroups r).map (fun p => (p.1, { g with lanes := ls } :: p.2))

/-- The later of two batch numbers (R228). -/
def later (a b : Word) : Word := if (b - a).toNat < 2 ^ 31 then b else a

/-- A counter of a group as its streams' snapshots leave it (R316). -/
def latest (f : Stream → Word) (xs : List Stream) (d : Word) : Word :=
  match xs with
  | [] => d
  | x :: r => r.foldl (fun a y => later a (f y)) (f x)

/-- The bound translation registers of the issuing stream bound again (R172, R316). -/
def State.rebind (s : State) : State :=
  s.modSt (fun x => { x with tb := x.tb.map (fun t => if t.bound then s.tbBinding t.va t.len else t) })

/-- A saved command on its group's new core: it goes on from its progress (R315, R316); one of a batch that the restored counters have not closed is counted in the open one, and so is one that has ended. -/
def restoreCmd (v : SavedUnit) (new : List UnitCore) (g : Group) (c : Cmd) : Cmd :=
  let above : Option Word → Word → Bool := fun b n => match b with
    | some x => !decide ((n - x).toNat < 2 ^ 31)
    | none => false
  { c with
    core := g.coreId, flag := none,
    cbatch := if above c.cbatch g.cbatch then some (g.cbatch + 1) else c.cbatch,
    mbatch := if above c.mbatch g.mbatch then some (g.mbatch + 1) else c.mbatch,
    destPa := c.destPa.map (moveDest v.unit.cores new v.unit.scratch) }

/-- The save block of the issuing stream written back (R316 step 2), where the stream may reach it. -/
def State.writeBlock (s : State) (b : List (Nat × Word)) : Except LaneFault State :=
  match s.putBlock ((List.range 2048).map (fun i => (4 * i, sparseGet 0#32 b (4 * i)))) with
  | .ok t => .ok t
  | .error f => if f.refused && !f.miss then .ok s else .error f

/-- The save blocks of streams written back, and their translation registers bound again. -/
def State.writeBlocks (s : State) (bs : List (Nat × List (Nat × Word))) : Except (Group × LaneFault) State :=
  match bs with
  | [] => .ok s
  | b :: r =>
    let f := s.focus b.1
    if f.st.sid ≠ b.1 then s.writeBlocks r
    else match f.rebind.writeBlock b.2 with
      | .error e => .error (f.gr, e)
      | .ok t => t.writeBlocks r

/-- A saved unit in new places: parts are its cores with their groups as seated there (R316). step: the step option, with which a stream that does not run retires nothing (R374). An error: the group whose page is not there. -/
def State.restoreUnit (s : State) (v : SavedUnit) (parts : List (UnitCore × List Group)) (pools : List (Nat × Nat)) (step : Bool) : Except (Group × LaneFault) State :=
  let new := parts.zipIdx.map (fun p =>
    let old := (v.unit.cores[p.2]?).getD ⟨0, 0, 0, [], [], []⟩
    { p.1.1 with window := old.window, bars := old.bars })
  let seated := parts.zipIdx.flatMap (fun p => p.1.2.map (fun g =>
    let xs := v.streams.filter (fun x => x.gid == g.gid)
    { g with die := p.1.1.die, core := p.1.1.core, coreIndex := p.2,
             cbatch := latest (fun x => x.restart.cbatch) xs g.cbatch, mbatch := latest (fun x => x.restart.mbatch) xs g.mbatch,
             stalls := g.stalls.modify 0 (· + (s.dev.clock.toNat - v.savedAt)) }))
  match s.restoreGroups seated with
  | .error e => .error e
  | .ok (s0, gs) =>
    let sts := v.streams.map (fun x => { x with
      kind := match x.kind with
        | .fragment _ => .fragment (((pools.find? (fun p => p.1 == x.sid)).map (·.2)).getD 64)
        | k => k
      step := if !step then none else if x.status = .runnable ∨ x.status = .entryParked then some 1 else some 0 })
    let cs := v.cmds.map (fun c => restoreCmd v new ((gs.find? (fun g => g.gid == c.gid)).getD Group.none) c)
    let ids := new.map (fun c => coreNo c.die c.core)
    let s1 : State := ids.foldl State.dropL1 { s0 with
      saved := s0.saved.filter (fun w => w.unit.uid != v.unit.uid)
      units := s0.units ++ [{ v.unit with cores := new, saving := none, saveWait := none, stepping := step }]
      groups := s0.groups ++ gs
      streams := s0.streams ++ sts
      cmds := s0.cmds ++ cs
      clusters := s0.clusters.map (fun c => if c.gated ∧ c.wakeAt = 0 ∧ ids.any (fun i => clusterOf i == c.cluster) then
        { c with wakeAt := s.dev.clock.toNat + 1200 } else c) }
    (s1.writeBlocks v.blocks).map (fun s2 => (cs.foldl (fun t c =>
      if c.isOver || c.kind = .mma then t
      else match c.state with
        | .retired => t.post (.commandAccept c.id)
        | _ => t.resumeCmd c.id) s2).forgetFar v.unit.uid)

/-- A command that goes on from where it was saved is accepted again. -/
def SavedUnit.wakeCmds (v : SavedUnit) : SavedUnit :=
  { v with cmds := v.cmds.map (fun c => if c.state = .accepted && c.kind != .mma then { c with state := .waiting } else c) }

/-- A saved unit changed. -/
def State.modSaved (s : State) (uid : Nat) (f : SavedUnit → SavedUnit) : State :=
  { s with saved := s.saved.map (fun v => if v.unit.uid = uid then f v else v) }

/-- The places in which a saved unit can be restarted, with the pool entries of its fragments (R316): room for its parts (R121) and a pool entry for each fragment on its group's core. None while its context is suspended (R317). -/
def State.restartPlaces (s : State) (v : SavedUnit) (die core : Nat) : Option (List (UnitCore × List Group) × List (Nat × Nat)) :=
  let parts := (List.range v.unit.cores.length).map (fun k => v.groups.filter (fun g => g.coreIndex == k))
  if s.ctxs.any (fun c => c.ctx == v.unit.ctx && c.suspended) then none
  else match s.coresFor die v.unit.ctx v.unit.nb v.unit.scratch (Config.coresPerDie - core) core parts with
  | none => none
  | some places =>
    let frags : UnitCore × List Group → List Nat := fun p => (v.streams.filter (fun x => decide (x.kind ≠ .home) && p.2.any (fun g => g.gid == x.gid))).map (·.sid)
    let pools := places.map (fun p => (s.poolEntries (coreNo p.1.die p.1.core) (frags p).length).map (fun es => (frags p).zip es))
    if pools.any (·.isNone) then none else some (places, pools.flatMap (fun p => p.getD []))

/-- A saved unit whose restart is asked for goes back to work if there are places for it and its pages are there; else it waits (R316, R317). -/
def State.tryRestart (s : State) (v : SavedUnit) : State :=
  match v.queued with
  | none => s
  | some (die, core, step) =>
    if v.unit.saveWait.isSome then s
    else match s.restartPlaces v die core with
      | none => s
      | some (places, pools) =>
        match s.restoreUnit { v.wakeCmds with queued := none } places pools step with
        | .ok t => t
        | .error (g, f) =>
          let (t, page) := s.heldUp g f
          t.modSaved v.unit.uid (fun w => { w with unit := { w.unit with saveWait := some page } })

/-- Whether a saved unit's restart, or the end of one that has been dropped, can go on. -/
def State.restartable (s : State) (v : SavedUnit) : Bool :=
  (v.dropped && v.unit.saveWait.isNone) || match v.queued with
  | none => false
  | some (die, core, _) => v.unit.saveWait.isNone && (s.restartPlaces v die core).isSome

/-- A restart of a saved unit asked for: on a die, from a core on (R316). -/
def State.restart (s : State) (uid die core : Nat) (step : Bool) : State :=
  let s1 := s.modSaved uid (fun v => if v.dropped then v else { v with queued := some (die, core, step), unit := { v.unit with saveWait := none } })
  (s1.saved.filter (fun v => v.unit.uid == uid)).foldl State.tryRestart s1

/-- UNIT_RESTART (R316). -/
def execUnitRestart (uid die core : Nat) (s : State) : Host.Outcome State Fault Refusal := .next (s.restart uid die core false)

/-- SINGLE_STEP: a stopped unit restarted with the step option (R374, R381). -/
def execSingleStep (uid die core : Nat) (s : State) : Host.Outcome State Fault Refusal :=
  .next (if s.saved.any (fun v => v.unit.uid == uid && s.debuggable v.unit.ctx) then s.restart uid die core true else s)

/-- Whether a stream can retire nothing until something else happens: it is parked, it waits for other streams, or for an engine that is parked (R374). -/
def State.stands (s : State) (x : Stream) : Bool :=
  match x.status with
  | .waitBarrier _ | .waitJoin | .waitCounter _ _ | .waitSyscall | .parked | .arrived | .stopped | .ended => true
  | .entryParked => !x.faults.isEmpty
  | .waitCopy _ | .waitMatrix _ => s.cmds.any (fun c => c.gid == x.gid && (match c.state with
    | .parked _ => true
    | _ => false))
  | _ => false

/-- Whether every stream of a stepping unit has retired its instruction, or cannot (R374). -/
def State.stepped (s : State) (u : UnitRec) : Bool :=
  u.live && u.stepping && u.saving.isNone && (s.unitStreams u.uid).all (fun x => x.step == some 0 || s.stands x)

/-- Stepping units that have stepped stop again, and saves and restarts that waited go on. -/
def State.savesDue (s : State) : State :=
  let s1 := (s.allUnits.filter s.stepped).foldl (fun t u => t.askSave u.uid u.saveVa true) s
  let s2 := (s1.allUnits.filter (fun u => u.live && u.saving.isSome)).foldl State.trySave s1
  (s2.saved.filter s2.restartable).foldl (fun t v => if v.dropped then t.endSaved v v.groups else t.tryRestart v) s2

/-- A batch that rested while its context was switched out runs again from its start (R252). -/
def Stream.restartWave (x : Stream) : Stream :=
  match x.wave with
  | .none => x
  | some w => { x with wave := some { w with started := false, buf := [], replies := [] }, status := if x.status = .parked then .parked else .runnable }

/-- CONTEXT_SWITCH: a running context is suspended, its units saved to the areas of the list in the order of their numbers; its batches go on while those units wait for their replies. A suspended one runs again: its batches, from their start where they rested (R252), its queues and the placing of its launches go on (R254, R317). -/
def execContextSwitch (ctx : Nat) (areas : List Nat) (s : State) : Host.Outcome State Fault Refusal :=
  .next (
    match s.ctxRec ctx with
    | none => s
    | some c =>
      if c.suspended then
        let s := if s.batchesRest ctx then s.mapStreams (fun x => if s.allGroups.any (fun g => g.gid == x.gid && g.ctx == ctx) then x.restartWave else x) else s
        (((List.range Config.dies).foldl (fun t d => t.post (.conjugatorBatchStart d)) (s.modCtx ctx (fun x => { x with suspended := false }))).post
          (.launchFire ctx)).retryPlacement
      else
        let us := (s.allUnits.filter (fun u => u.live && u.ctx == ctx && u.uid != 0)).mergeSort (fun a b => decide (a.uid ≤ b.uid))
        (us.zip areas).foldl (fun t p => t.askSave p.1.uid p.2 false) (s.modCtx ctx (fun x => { x with suspended := true })))

end Sys2Proof.Machine
end

