-- ==== Sys2Proof/Machine/Device.lean ====
section
/-!
DEFINITION. The device: starts (R382 to R384), attestation (R385, R386), service pairs and the leader (R387 to R389), uncorrectable errors (R391), confidential contexts (R392), trace buffers and gating (R377, R380, R393), power (R394), and links (R352).
-/
namespace Sys2Proof.Machine

/-- n bytes of a value, the lowest first. -/
def leBytes (n v : Nat) : List Byte := (List.range n).map (byteOf v)

/-- Step 4: every image's signature verifies over its hash, under a key that the root key has signed, whose hash is fused (R382). -/
def authenticImages (r : StartReport) : Bool :=
  r.images.all (fun i => Config.sha512 i.root == r.rootHash && Config.verify i.root i.keySig (Config.sha512 i.key) &&
    Config.verify i.key i.sig (Config.sha512 i.bytes))

/-- The firmware images in load order, and what step 5 measures. -/
def firmwareOf (r : StartReport) : List Byte := r.images.flatMap (·.bytes)
def measOf (r : StartReport) : BitVec 512 := Config.sha512 (firmwareOf r)

/-- The steps of R382 at which a start fails, the first one first. skip: the steps that it skips (R383). -/
def startFailure (r : StartReport) (skip : List Nat) (pairs : List Bool) : Option Nat :=
  [1, 2, 3, 4, 7, 8].find? (fun k => !skip.contains k && (r.failedStep == some k || (k == 4 && !authenticImages r) || (k == 8 && !pairs.any id)))

/-- What a start that fails at step k has read and measured: the fuses past step 3; the measurement past step 4, and a warm start measures before step 4 (R382, R383). -/
def Device.booting (d : Device) (r : StartReport) (warm : Bool) (k : Nat) : Device :=
  let d1 := if 3 < k then { d with secret := r.secret, rootHash := r.rootHash, serial := r.serial } else d
  let d2 := if 4 < k ∨ (warm ∧ 3 < k) then { d1 with meas := measOf r } else d1
  if 4 < k then { d2 with authMeas := some (measOf r) } else d2

/-- A device in which a start has begun: no context is left, and nothing runs (R382, R383). Device memory and host memory stand as they were. -/
def State.emptied (s : State) (pairs : List Bool) : State :=
  let ok : Nat → Bool := fun d => pairs.getD d false
  { State.reset with
    dies := (List.range Config.dies).map (fun d => { DieRec.start d with pairOk := ok d, pairBist := ok d, hbSeen := s.dev.clock.toNat })
    cores := (List.range Config.dies).flatMap (fun d => (List.range Config.coresPerDie).map (fun c => CoreRec.start (coreNo d c)))
    clusters := (List.range (6 * Config.dies)).map (fun c =>
      { cluster := c, trace := [], ring := 0, ringCap := 0, drained := 0, loss := 0, gated := false, idleSince := s.dev.clock.toNat, wakeAt := 0 })
    mem := s.mem, host := s.host, dev := s.dev, out := s.out, free := s.free, nextId := s.nextId }

/-- A start that failed at a step, with memory zero from step 7 on (R382): after the third failure in a row the device enters safe mode, in which die 0's port alone trains and BAR0 serves the record of the failure (R384). -/
def State.startFailed (s : State) (r : StartReport) (pairs : List Bool) (warm : Bool) (k : Nat) : State :=
  let n := (if s.dev.phase = .reset then s.dev.failures else 0) + 1
  let safe : Bool := decide (3 ≤ n)
  let t := s.emptied pairs
  let s1 : State := { t with mem := if 7 ≤ k then [] else s.mem, dev := { s.dev.booting r warm k with
    phase := if safe then .safeMode else .reset, failures := n, trained := if safe then [0] else [], dualRoot := false,
    record := if safe then some (k, r.failedDie, r.cause) else s.dev.record } }
  if safe then s1.say (.fatal k r.failedDie r.cause) else s1

/-- The identity key (R385). -/
def Device.identity (d : Device) : BitVec 512 := Config.derive d.secret (leBytes 64 d.meas.toNat)

/-- A start that succeeded: all that a context held is gone, memory is zero, the device key has certified the identity key, the leader is the lowest die whose pair is in service (R382, R383, R385, R387). pairs: the pairs that passed step 1. -/
def State.started (s : State) (r : StartReport) (pairs : List Bool) : State :=
  let dev : Device := { s.dev.booting r false 9 with
    phase := .running, failures := 0, boots := s.dev.boots + 1, pairEntry := Config.pairHandler (firmwareOf r), record := none,
    trained := [0], dualRoot := false, leader := ((List.range Config.dies).find? (fun d => pairs.getD d false)).getD 0, term := 0, throttle := 64,
    ports := [], down := [], id := 0, pageReqs := [], pageWaits := [], asked := [] }
  let key := Config.publicKey dev.identity
  ({ s.emptied pairs with mem := [], dev := dev } : State).say
    (.certificate key dev.meas (Config.sign (Config.derive dev.secret []) (leBytes 64 (Config.sha512 (key ++ leBytes 64 dev.meas.toNat)).toNat)))

/-- COLD_START (R382). -/
def execColdStart (report : StartReport) (s : State) : Host.Outcome State Fault Refusal :=
  .next (
    match startFailure report [] report.pairs with
    | some k => s.startFailed report report.pairs false k
    | none => s.started report report.pairs)

/-- The service pairs that passed step 1 of the last cold start. -/
def State.bistPairs (s : State) : List Bool := (List.range Config.dies).map (fun d => (s.dieRec d).pairBist)

/-- WARM_START: steps 1 and 2 are skipped, and step 4 where the measurement is the authenticated one (R383). -/
def execWarmStart (report : StartReport) (s : State) : Host.Outcome State Fault Refusal :=
  .next (
    let skip := if s.dev.authMeas = some (measOf report) then [1, 2, 4] else [1, 2]
    match startFailure report skip s.bistPairs with
    | some k => s.startFailed report s.bistPairs true k
    | none => s.started report s.bistPairs)

/-- Bytes 0x000 to 0x0DF of an attestation report (R386). -/
def State.reportBytes (s : State) (nonce : BitVec 512) (c : Ctx) : List Byte :=
  leBytes 64 nonce.toNat ++ leBytes 64 s.dev.meas.toNat ++ leBytes 64 (Config.sha512 c.measured).toNat ++
    leBytes 16 s.dev.serial.toNat ++ leBytes 4 c.ctx ++ leBytes 4 c.key.isSome.toNat ++ leBytes 8 s.dev.boots

/-- n bytes of a value, the highest first. -/
def beBytes (n v : Nat) : List Byte := (leBytes n v).reverse

/-- The signature field of a report: r, then s (R386). -/
def sigBytes (sig : BitVec 1056) : List Byte := beBytes 66 (sig.toNat / 2 ^ 528) ++ beBytes 66 (sig.toNat % 2 ^ 528)

/-- ATTESTATION_REQUEST (R385, R386): the identity key signs the hash of the first 0xE0 bytes of the report. -/
def execAttestationRequest (nonce : BitVec 512) (ctx : Nat) (s : State) : Host.Outcome State Fault Refusal :=
  .next (
    match s.ctxRec ctx with
    | none => s
    | some c =>
      let bytes := s.reportBytes nonce c
      s.say (.report (bytes ++ sigBytes (Config.sign s.dev.identity (leBytes 64 (Config.sha512 bytes).toNat)))))

/-- A service pair's stream is taken off its pair. -/
def State.dropPair (s : State) (die : Nat) : State :=
  let mine : Stream → Bool := fun x => decide (x.kind = .pair) && s.allGroups.any (fun g => g.gid == x.gid && g.die == die)
  ((s.allStreams.filter mine).map (·.gid)).foldl State.removeGroup s

/-- LOCKSTEP_MISMATCH (R387, R389). -/
def execLockstepMismatch (die : Nat) (s : State) : Host.Outcome State Fault Refusal :=
  .next (if (s.dieRec die).pairOk then (s.dropPair die).stopPair die else s)

/-- HEARTBEAT_WRITE: the leader writes HB on every die whose pair is in service (R389). -/
def execHeartbeatWrite (s : State) : Host.Outcome State Fault Refusal :=
  .next (
    let d := s.dieRec s.dev.leader
    if d.pairOk then
      let hb : Pair := BitVec.ofNat 64 (s.dev.term.toNat * 2 ^ 32 + (d.hb.toNat + 1) % 2 ^ 32)
      { s with dies := s.dies.map (fun x => if x.pairOk then { x with hb := hb, hbSeen := s.dev.clock.toNat } else x) }
    else s)

/-- The claim of R389: a CAS of HB on each die in service in order; whether every one succeeded. -/
def claim (old new : Pair) (now : Nat) (ds : List DieRec) : List DieRec × Bool :=
  match ds with
  | [] => ([], true)
  | d :: r =>
    if !d.pairOk then (d :: (claim old new now r).1, (claim old new now r).2)
    else if d.hb = old then ({ d with hb := new, hbSeen := now } :: (claim old new now r).1, (claim old new now r).2)
    else (d :: r, false)

/-- The cycles after which a die claims leadership (R389). -/
def State.patience (s : State) (die : Nat) : Nat := 6000000 + 1200000 * ((die + 8 - s.dev.leader % 4 - 1) % 4)

/-- Whether a die claims leadership: its pair is in service and it has seen HB unchanged for so long (R389). -/
def State.claims (s : State) (die : Nat) : Bool :=
  let d := s.dieRec die
  d.pairOk && die != s.dev.leader && decide (d.hbSeen + s.patience die ≤ s.dev.clock.toNat)

/-- What the old leader had taken and not answered is asked again, in arrival order; replies that it had queued are discarded (R389). -/
def State.reroute (s : State) : State :=
  { s with
    events := s.events.filter (fun e => match e with
      | .pageFaultRepair .. | .syscallReply .. => false
      | _ => true)
    out := s.out ++ s.dev.asked }

/-- LEADER_TAKEOVER (R389). -/
def execLeaderTakeover (die : Nat) (s : State) : Host.Outcome State Fault Refusal :=
  .next (
    if !s.claims die then s
    else
      let old := (s.dieRec die).hb
      let term : Word := BitVec.ofNat 32 (old.toNat / 2 ^ 32 + 1)
      let c := claim old (BitVec.ofNat 64 (term.toNat * 2 ^ 32)) s.dev.clock.toNat s.dies
      let s1 : State := { s with dies := c.1 }
      if c.2 then
        let s2 := (s1.dropPair s.dev.leader).modDie s.dev.leader (fun d => { d with pairOk := false })
        (({ s2 with dev := { s2.dev with leader := die, term := term } } : State).say (.taken die)).reroute
      else s1.modDie die (fun d => { d with hbSeen := s.dev.clock.toNat }))

/-- A correction counted for a die (R391). -/
def State.corrected (s : State) (die n : Nat) : State := s.modDie die (fun d => { d with corrected := d.corrected + n })

/-- PATROL_SCRUB (R391). -/
def execPatrolScrub (die corrected : Nat) (s : State) : Host.Outcome State Fault Refusal := .next (s.corrected die corrected)

/-- An overlay slot fetched again after a parity error (R391): what stands in it goes, and the core's fetcher brings the segment again, for which the streams that stand there wait as for a CFETCH (R242). -/
def State.refetch (s : State) (core ctx va : Nat) : State :=
  let at_ : Overlay → Bool := fun o => o.core == core && o.ctx == ctx && o.va == va
  if !s.overlays.any at_ then s
  else
    let c : Cmd :=
      { id := s.nextId, seq := 0, pc := 0, gid := 0, sid := 0, core := core, ctx := ctx, kind := .cfetch, regs := [], fmt := 0, exm := 0, flag := none,
        cbatch := none, mbatch := none, state := .accepted, progress := 0, arg := va, dests := [], rows := [], joint := [], destVa := [],
        destPa := [], fenced := false, buf := [], peer := none, frag := 0, priv := ctx == Config.osCtx }
    ({ s with overlays := s.overlays.filter (fun o => !at_ o), cmds := s.cmds ++ [c], nextId := s.nextId + 1 } : State).post
      (.overlayFetchComplete core ctx va)

/-- A group struck in its own state: it ends as DOUBLE ends it, with PROT as the first cause (R308, R391). -/
def State.strikeGroup (s : State) (gid : Nat) : State :=
  match s.allStreams.find? (fun x => x.gid == gid && x.sid != 0) with
  | none => s
  | some x =>
    let t := s.focus x.sid
    match t.st.kind with
    | .wave _ => t.abortWave .prot
    | .walker n => t.stopWalker n .prot t.st.exm
    | _ => t.double Cause.prot.code.toNat t.instrPc 0 0

/-- UNCORRECTABLE_ERROR (R391). -/
def execUncorrectableError (site : ErrorSite) (s : State) : Host.Outcome State Fault Refusal :=
  .next (
    match site with
    | .hbm pa => ({ s with poison := s.poison ++ [⟨pa / 32 * 32, 32, false⟩] } : State).say (.machineCheck 3 pa)
    | .l1 core pa =>
      ({ s with l1 := s.l1.filter (fun x => !(x.core == core && x.sector.pa.any (fun a => a / 128 == pa / 128))) } : State).corrected (dieOf core) 1
    | .overlay core ctx va => (s.refetch core ctx (va / 4096 * 4096)).corrected (dieOf core) 1
    | .tileOrSync pa => ({ s with poison := s.poison ++ [⟨pa / 128 * 128, 128, true⟩] } : State).say (.machineCheck 4 pa)
    | .scratch die core off =>
      let pa := Config.onChip + die * 2 ^ 44 + core * 2 ^ 38 + off
      ({ s with poison := s.poison ++ [⟨pa / 128 * 128, 128, true⟩] } : State).say (.machineCheck 5 pa)
    | .groupState gid => (s.say (.machineCheck 6 gid)).strikeGroup gid)

/-- CONFIDENTIAL_CONTEXT_REQUEST: the context has a key of its own, the next draw of the device's random source (R392). -/
def execConfidentialContextRequest (ctx : Nat) (s : State) : Host.Outcome State Fault Refusal :=
  .next { s.modCtx ctx (fun c => { c with key := some (c.key.getD s.nextId) }) with nextId := s.nextId + 1 }

/-- A cluster changed. -/
def State.modCluster (s : State) (n : Nat) (f : Cluster → Cluster) : State :=
  { s with clusters := s.clusters.map (fun c => if c.cluster = n then f c else c) }

/-- Words of a record written at a physical address. -/
def State.putRecord (s : State) (pa : Nat) (ws : List Word) : State :=
  match ws with
  | [] => s
  | w :: r => (s.putN (.dev pa) w.toNat 4).putRecord (pa + 4) r

/-- TRACE_DRAIN: the oldest record of a cluster goes to its ring (R377); without a ring it stays. -/
def execTraceDrain (cluster : Nat) (s : State) : Host.Outcome State Fault Refusal :=
  .next (
    match s.clusters.find? (fun c => c.cluster == cluster) with
    | none => s
    | some c =>
      match c.trace with
      | [] => s
      | ws :: r =>
        if c.ringCap = 0 then s
        else (s.putRecord (c.ring + 64 * (c.drained % c.ringCap)) ws).modCluster cluster (fun x => { x with trace := r, drained := x.drained + 1 }))

/-- Whether a cluster has a resident group (R393). -/
def State.resident (s : State) (cluster : Nat) : Bool :=
  s.allGroups.any (fun g => g.live && g.uid != 0 && clusterOf g.coreId == cluster)

/-- A cluster gated: the records that it still holds are lost and counted (R380). -/
def Cluster.gate (c : Cluster) : Cluster :=
  { c with gated := true, wakeAt := 0, loss := min 255 (c.loss + c.trace.length), trace := [] }

/-- Whether a cluster has been idle for n cycles. -/
def State.idle (s : State) (c : Cluster) (n : Nat) : Bool :=
  !c.gated && !s.resident c.cluster && decide (c.idleSince + n ≤ s.dev.clock.toNat)

/-- CLUSTER_IDLE_GATE: after 6,000 idle cycles, its trace buffer drained (R380, R393). -/
def execClusterIdleGate (cluster : Nat) (s : State) : Host.Outcome State Fault Refusal :=
  .next (s.modCluster cluster (fun c => if s.idle c 6000 && c.trace.isEmpty then c.gate else c))

/-- GATE_DRAIN_TIMEOUT: gating has waited 30,000 cycles for the trace buffer (R380). -/
def execGateDrainTimeout (cluster : Nat) (s : State) : Host.Outcome State Fault Refusal :=
  .next (s.modCluster cluster (fun c => if s.idle c 36000 then c.gate else c))

/-- CLUSTER_WAKE: the wake of a gated cluster is over (R393). -/
def execClusterWake (cluster : Nat) (s : State) : Host.Outcome State Fault Refusal :=
  .next (s.modCluster cluster (fun c =>
    if c.gated && decide (c.wakeAt ≤ s.dev.clock.toNat) then { c with gated := false, wakeAt := 0, idleSince := s.dev.clock.toNat } else c))

/-- THERMAL_FORCED_GATE (R380, R394). A cluster with resident groups wakes as one does on which a unit is placed, so that gating changes time only (R393; log entry 59). -/
def execThermalForcedGate (s : State) : Host.Outcome State Fault Refusal :=
  .next { s with clusters := s.clusters.map (fun c => { c.gate with wakeAt := if s.resident c.cluster then s.dev.clock.toNat + 1200 else 0 }) }

/-- THERMAL_SHUTDOWN: the module stops; the host sees its link go down (R394). -/
def execThermalShutdown (s : State) : Host.Outcome State Fault Refusal :=
  .next (({ s with dev := { s.dev with phase := .stopped } } : State).say (.portDown 0))

/-- POWER_MEASUREMENT: the module power, and in how many of every 64 cycles partitions may issue while it exceeds the cap (R394). -/
def execPowerMeasurement (watts : Nat) (s : State) : Host.Outcome State Fault Refusal := .next (s.measurePower watts)

/-- A context as the device OS makes it. -/
def Ctx.fresh (ctx : Nat) : Ctx :=
  { ctx := ctx, root := 0, pasid := 0, handler := none, bindings := [], objects := [], overflow := 0,
    windows := List.replicate 16 ⟨false, 0, 0, 0, 0, 0⟩, carray := 0, gens := [], profva := 0, profcap := 0, submitErrors := 0, cntPeer := none,
    launches := 0, queues := List.replicate 8 [], children := [], topPhase := 0, pinned := ⟨0, 0, 0⟩, complex := 0, vector := 0, key := none,
    debug := false, suspended := false, translations := [], templates := [], measured := [], symbols := [], jobCount := 0 }

/-- A peer window from its record (R353). -/
def PeerWindow.ofWords (w0 w1 w2 w3 : Word) : PeerWindow :=
  { valid := w2.getLsbD 31, lbase := w0.setWidth 27, rbase := w1.setWidth 27, size := w2.extractLsb' 12 16, dev := w2.setWidth 12, rctx := w3 }

/-- A stream of the device OS's own on a unit of a die that is none of the cores: its group has n lanes and the areas that the device OS gives, and its entry segment is brought to the unit's overlay (log entry 76). -/
def State.startBare (s : State) (kind : StreamKind) (die core n : Nat) (entry : CodeVa) (fa da : Nat) : State :=
  let g : Group := { Group.none with
    gid := s.nextId, ctx := Config.osCtx, width := max 8 n, die := die, core := core, allot := 256, ilp := 48, fa := fa, faw := 2048, da := da,
    alive := Mask.below n, lanes := List.replicate (max 8 n) Lane.start, live := true }
  let x := Stream.start (s.nextId + 1) g.gid kind entry g.alive
  let s1 : State := { s with groups := s.groups ++ [g], streams := s.streams ++ [x], nextId := s.nextId + 2 }
  match s1.engTrans die g.ctx (segOf entry) needX true with
  | .ok l => s1.slotPut g.coreId g.ctx (segOf entry) (s1.wordsAt l)
  | _ => s1

/-- A walker slot loaded: what the old routine had taken returns to the head of the walk queue; the routine's 64 lanes start at its entry, whose segment the slot's overlay holds (R176, R325; log entry 76). -/
def State.loadWalker (s : State) (die n : Nat) (entry : CodeVa) (fa da : Nat) : State :=
  let slot := die * 16 + n % 16
  let old := (s.allStreams.filter (fun x => decide (x.kind = .walker slot))).map (·.gid)
  let back : List WalkReq → List WalkReq := fun ws =>
    (ws.filter (fun r => r.taken == some slot)).map (fun r => { r with taken := none }) ++ ws.filter (fun r => r.taken != some slot)
  ((old.foldl State.removeGroup s).modDie die (fun d => { d with walks := back d.walks })).startBare (.walker slot) die 40 64 entry fa da

/-- The stream of a service pair that is in service, started by its firmware: one lane, since it executes the uniform set; its save blocks stand where the device OS keeps them (R305, R387; log entry 76). -/
def State.startPair (s : State) (die : Nat) (entry : CodeVa) (fa da base : Nat) : State :=
  if !(s.dieRec die).pairOk then s
  else
    let s1 := s.dropPair die
    ({ s1 with cores := s1.cores.filter (fun c => c.core != coreNo die 41) ++ [{ CoreRec.start (coreNo die 41) with sbase := base }] } : State).startBare
      .pair die 41 1 entry fa da

/-- What the device OS writes takes effect (R372 and the rules that OsWrite names). -/
def State.osWrite (s : State) (w : OsWrite) : State :=
  match w with
  | .breakpoint core n va en ctx => s.modCore core (fun c => { c with breaks := c.breaks.set n ⟨va &&& ~~~ 3, en, ctx⟩ })
  | .sampling core n => s.modCore core (fun c => { c with sampn := n })
  | .coreSelect core n v => s.modCore core (fun c => { c with ecsel := c.ecsel.set n v })
  | .dieSelect die n v => s.modDie die (fun d => { d with ecsel := d.ecsel.set n v })
  | .saveBase core base => s.modCore core (fun c => { c with sbase := base })
  | .traceRing cluster base records => s.modCluster cluster (fun c => { c with ring := base, ringCap := records, drained := 0 })
  | .profileRing ctx va records => s.modCtx ctx (fun c => { c with profva := va, profcap := records })
  | .demote ctx tag => s.demoteLines ctx tag
  | .pinned ctx va len quota => s.modCtx ctx (fun c => { c with pinned := ⟨va, len, quota⟩ })
  | .context ctx root pasid complex vector handler =>
    let s1 : State := if (s.ctxRec ctx).isSome then s else { s with ctxs := s.ctxs ++ [Ctx.fresh ctx] }
    s1.modCtx ctx (fun c => { c with
      root := root, pasid := pasid, complex := complex % 2, vector := vector % 2048, handler := if handler = 0 then c.handler else some handler })
  | .completionArray ctx va => s.modCtx ctx (fun c => { c with carray := va })
  | .peerWindow ctx n w0 w1 w2 w3 => s.modCtx ctx (fun c => { c with windows := c.windows.set n (PeerWindow.ofWords w0 w1 w2 w3) })
  | .overflow ctx n => s.modCtx ctx (fun c => { c with overflow := n })
  | .submission page bound =>
    let rest := s.submit.filter (fun p => p.page != page)
    match bound with
    | some (ctx, pasid) => if page < 32768 then { s with submit := rest ++ [⟨page, ctx, pasid⟩] } else s
    | none => { s with submit := rest }
  | .reductionGroup rgrp w0 w1 w2 =>
    { s with rgroups := s.rgroups.filter (fun g => g.rgrp != rgrp) ++ [⟨rgrp, w0.toNat, w1.extractLsb' 2 12, w1.setWidth 2, w2.toNat⟩] }
  | .conjugator die n fa da => s.modDie die (fun d => { d with conj := d.conj.modify n (fun c => { c with fa := fa, da := da }) })
  | .servicePair die entry fa da base => s.startPair die entry fa da base
  | .walkerSlot die n entry fa da => s.loadWalker die n entry fa da
  | .deviceId n => { s with dev := { s.dev with id := n } }
  | .powerCap watts => { s with dev := { s.dev with cap := max 600 (min 2200 watts) } }
  | .dualRoot on => { s with dev := { s.dev with dualRoot := on, trained := if on then [0, 2] else [0] } }
  | .debug ctx on => s.modCtx ctx (fun c => { c with debug := on })

/-- COUNTER_SNAPSHOT_REQUEST: what the device OS writes first (log entry 77); then two records hold the low words of the core's 16 counters (R377). -/
def execCounterSnapshotRequest (r : SnapshotRequest) (s : State) : Host.Outcome State Fault Refusal :=
  .next (
    let t := r.writes.foldl State.osWrite s
    match t.coreRec r.core with
    | none => t
    | some c =>
      let ws : List Word := c.ecnt.map (fun x => x.setWidth 32)
      (t.trace r.core 0 5 [0, 0, 0, 0] (ws.take 9)).trace r.core 0 5 [0, 0, 0, 0] (ws.drop 9))

/-- LINK_FLIT_FAILURE: the flit is retried; after 16 failures in a row the port, one of the 16 of the 4 dies, is taken down and the leader is told (R352). passed: a flit has passed since the port's last failure. -/
def execLinkFlitFailure (port : Nat) (passed : Bool) (s : State) : Host.Outcome State Fault Refusal :=
  .next (
    if 4 * Config.dies ≤ port ∨ s.dev.down.contains port then s
    else
      let n := if passed then 1 else ((s.dev.ports.find? (fun p => p.1 == port)).map (·.2)).getD 0 + 1
      let s1 : State := { s with dev := { s.dev with ports := s.dev.ports.filter (fun p => p.1 != port) ++ [(port, n)] } }
      if n < 16 then s1 else { s1 with dev := { s1.dev with down := s1.dev.down ++ [port] } }.say (.portDown port))

end Sys2Proof.Machine
end

