-- ==== Sys2Proof/Machine/Sfu.lean ====
section
/-!
DEFINITION. The special-function pipe (R104, R105). FSQRT is fixed by its rounding; FRCP and FRSQ are one of the two neighbours of the exact value; the others are free functions of the input held within the error bounds of R104, which are checked against fixed-point values with 300 fraction bits (log entry 6).
-/
namespace Sys2Proof.Machine

/-- 2 pi, ln 2 and 1 / ln 2 with 300 fraction bits, and 1 / (2 pi) with 400. -/
def twoPi : Nat := 0x6487ed5110b4611a62633145c06e0e68948127044533e63a0105df531d89cd9128a5043cc71a
def ln2 : Nat := 0xb17217f7d1cf79abc9e3b39803f2f6af40f343267298b62d8a0d175b8baafa2be7b876206de
def log2e : Nat := 0x171547652b82fe1777d0ffda0d23a7d11d6aef551bad2b4b1164a2cd9a342648fbc3887eeaa4
def invTwoPi : Nat := 0x28be60db9391054a7f09d5f47d4d377036d8a5664f10e4107f9458eaf7aef1586dc91b8e909374b801924bba827464873f87

/-- The sum of a power series in x with fixed-point terms: term k+1 is term k times x over the next divisor. -/
def series (n : Nat) (x t acc : Int) (k step : Nat) (sgn : Int) : Int :=
  match n with
  | 0 => acc
  | j + 1 =>
    let t1 := if step = 1 then sgn * (t * x / 2 ^ 300) / (k + 1) else sgn * (t * x / 2 ^ 300 * x / 2 ^ 300) / ((k + 1) * (k + 2))
    series j x t1 (acc + t1) (k + step) step sgn

/-- 2^f for a fraction f, both with 300 fraction bits. -/
def exp2Frac (f : Nat) : Nat := (series 70 ((f * ln2 : Nat) / 2 ^ 300 : Nat) (2 ^ 300) (2 ^ 300) 0 1 1).toNat

/-- 2^y for y with 300 fraction bits. -/
def exp2Val (y : Int) : FVal := .fin false (exp2Frac (y % 2 ^ 300).toNat) (y / 2 ^ 300 - 300)

/-- The bits of log2 of y in [1,2) by repeated squaring. -/
def log2Bits (n : Nat) (y acc : Nat) : Nat :=
  match n with
  | 0 => acc
  | k + 1 =>
    let z := (y * y) >>> 300
    if 2 ^ 301 ≤ z then log2Bits k (z >>> 1) (2 * acc + 1) else log2Bits k z (2 * acc)

/-- log2 of m * 2^e with 200 fraction bits. -/
def log2Val (m : Nat) (e : Int) : FVal :=
  let v : Int := ((m.log2 : Int) + e) * 2 ^ 200 + log2Bits 200 (m <<< (300 - m.log2)) 0
  .fin (decide (v < 0)) v.natAbs (-200)

/-- m * 2^e reduced by 2 pi, as an angle with 300 fraction bits. -/
def reduced (m : Nat) (e : Int) : Nat :=
  let t := if 0 ≤ e then (m <<< e.toNat) * invTwoPi % 2 ^ 400 else (m * invTwoPi) >>> (-e).toNat % 2 ^ 400
  t * twoPi / 2 ^ 400

/-- sin and cos of an angle with 300 fraction bits. -/
def sinFix (x : Int) : Int := series 120 x x x 1 2 (-1)
def cosFix (x : Int) : Int := series 120 x (2 ^ 300) (2 ^ 300) 0 2 (-1)

/-- tanh of m * 2^e. -/
def tanhVal (m : Nat) (e : Int) : FVal :=
  if 6 < (m.log2 : Int) + e then .fin false 1 0
  else
    let x := if 0 ≤ e + 301 then m <<< (e + 301).toNat else 0
    let y := x * log2e / 2 ^ 300
    let u := exp2Frac (y % 2 ^ 300) <<< (y / 2 ^ 300)
    .fin false ((u - 2 ^ 300) * 2 ^ 300 / (u + 2 ^ 300)) (-300)

/-- A fixed-point value with its sign. -/
def ofFix (neg : Bool) (v : Int) : FVal := .fin (xor neg (decide (v < 0))) v.natAbs (-300)

/-- The exponent of one ulp of an f32 value. -/
def ulpExp (x : FVal) : Int :=
  match x with
  | .fin _ m e => max ((m.log2 : Int) + e - 23) (-149)
  | _ => 0

/-- Whether a word is a number within n * 2^q of x. -/
def within (n : Nat) (q : Int) (x : FVal) (w : Word) : Bool :=
  match (f32 w).add x.neg with
  | .fin _ m e => !(FVal.fin false n q).lt (.fin false m e)
  | _ => false

/-- The free result where it meets the bound, else the value rounded, which meets it. -/
def bounded (n : Nat) (q : Int) (x : FVal) (w : Word) : Word := if within n q x w then w else rne32 x

/-- A word from a code of f32. -/
def pInf : Word := 0x7F800000#32
def nInf : Word := 0xFF800000#32
def qNan : Word := 0x7FC00000#32
def one32 : Word := 0x3F800000#32
def mone32 : Word := 0xBF800000#32

/-- The neighbour of an exact value that a free choice picks: away from zero or toward it. -/
def neighbour (up : Bool) (x : FVal) : Word := BitVec.ofNat 32 (kF32.code (if up then .ra else .rz) false x)

/-- FRCP (R104, R105); a quotient of 2^128 and more overflows (R27). -/
def sfuRcp (a : Word) : Word :=
  match f32 a with
  | .nan => qNan
  | .inf s => if s then 0x80000000#32 else 0
  | .fin s m e =>
    if m <<< (e + 149).toNat ≤ 2 ^ 21 then (if s then nInf else pInf) else neighbour (Config.rcpUp a) (recipOf s m e)

/-- FRSQ. -/
def sfuRsq (a : Word) : Word :=
  match f32 a with
  | .nan => qNan
  | .inf s => if s then qNan else 0
  | .fin s m e =>
    if m = 0 then (if s then nInf else pInf)
    else if s then qNan
    else match recipOf false m e with
      | .fin _ n f => neighbour (Config.rsqUp a) (rootOf n f)
      | x => rne32 x

/-- FSQRT. -/
def sfuSqrt (a : Word) : Word :=
  match f32 a with
  | .nan => qNan
  | .inf s => if s then qNan else pInf
  | .fin s m e => if m = 0 then a else if s then qNan else rne32 (rootOf m e)

/-- FEX2: exact for integers. -/
def sfuEx2 (a : Word) : Word :=
  match f32 a with
  | .nan => qNan
  | .inf s => if s then 0 else pInf
  | .fin s m e =>
    let y := scaled s m e (-300)
    if 128 * 2 ^ 300 ≤ y then pInf
    else if y ≤ -150 * 2 ^ 300 then 0
    else if y % 2 ^ 300 = 0 then rne32 (.fin false 1 (y / 2 ^ 300))
    else bounded 2 (ulpExp (exp2Val y)) (exp2Val y) (Config.ex2 a)

/-- FLG2: exact for powers of two. -/
def sfuLg2 (a : Word) : Word :=
  match f32 a with
  | .nan => qNan
  | .inf s => if s then qNan else pInf
  | .fin s m e =>
    if m = 0 then nInf
    else if s then qNan
    else if m = 2 ^ m.log2 then rne32 (.ofInt ((m.log2 : Int) + e))
    else if (FVal.fin false m e).lt (.fin false 1 (-1)) || (FVal.fin false 1 1).lt (.fin false m e) then
      bounded 2 (ulpExp (log2Val m e)) (log2Val m e) (Config.lg2 a)
    else bounded 1 (-22) (log2Val m e) (Config.lg2 a)

/-- FSIN. -/
def sfuSin (a : Word) : Word :=
  match f32 a with
  | .nan => qNan
  | .inf _ => qNan
  | .fin s m e => if m = 0 then a else bounded 1 (-21) (ofFix s (sinFix (reduced m e))) (Config.sin a)

/-- FCOS. -/
def sfuCos (a : Word) : Word :=
  match f32 a with
  | .nan => qNan
  | .inf _ => qNan
  | .fin _ m e => if m = 0 then one32 else bounded 1 (-21) (ofFix false (cosFix (reduced m e))) (Config.cos a)

/-- FTANH. -/
def sfuTanh (a : Word) : Word :=
  match f32 a with
  | .nan => qNan
  | .inf s => if s then mone32 else one32
  | .fin s m e =>
    if m = 0 then a
    else
      let x := if s then (tanhVal m e).neg else tanhVal m e
      bounded 2 (ulpExp x) x (Config.tanh a)

end Sys2Proof.Machine
end

