-- ==== Sys2Proof/Machine/Floating.lean ====
section
/-!
DEFINITION. The lane floating-point instructions: FAR, FSET, HAR, SFU, CVT and PACK (R99 to R107).
-/
namespace Sys2Proof.Machine

/-- FADD (R100). -/
def execFadd (g : BitVec 4) (d a b : BitVec 6) (s : State) : Host.Outcome State Fault Refusal :=
  s.run (s.alu2 g d a b fAdd)

/-- FSUB (R100). -/
def execFsub (g : BitVec 4) (d a b : BitVec 6) (s : State) : Host.Outcome State Fault Refusal :=
  s.run (s.alu2 g d a b fSub)

/-- FMUL (R100). -/
def execFmul (g : BitVec 4) (d a b : BitVec 6) (s : State) : Host.Outcome State Fault Refusal :=
  s.run (s.alu2 g d a b fMul)

/-- FFMA (R100). -/
def execFfma (g : BitVec 4) (d a b : BitVec 6) (s : State) : Host.Outcome State Fault Refusal :=
  s.run (s.alu3c g d a b fFma)

/-- FMIN (R101). -/
def execFmin (g : BitVec 4) (d a b : BitVec 6) (s : State) : Host.Outcome State Fault Refusal :=
  s.run (s.alu2 g d a b fMin)

/-- FMAX (R101). -/
def execFmax (g : BitVec 4) (d a b : BitVec 6) (s : State) : Host.Outcome State Fault Refusal :=
  s.run (s.alu2 g d a b fMax)

/-- FADDMN (R100). -/
def execFaddmn (g : BitVec 4) (d a b : BitVec 6) (s : State) : Host.Outcome State Fault Refusal :=
  s.run (s.alu3 g d a b fAddMin)

/-- FNFMA (R100). -/
def execFnfma (g : BitVec 4) (d a b : BitVec 6) (s : State) : Host.Outcome State Fault Refusal :=
  s.run (s.alu3c g d a b fNfma)

/-- FSET (R102). -/
def execFset (g : BitVec 4) (c : BitVec 2) (p : BitVec 4) (a b : BitVec 6) (f : BitVec 3) (s : State) : Host.Outcome State Fault Refusal :=
  s.run (s.perLane g (decide (p.toNat < 12)) [a.toNat, b.toNat]
    (fun l x => x.setPred p.toNat (combine c (x.pred p.toNat) (floatCond f (s.reg l a.toNat) (s.reg l b.toNat)))))

/-- A HAR instruction: HALFK of FMT names the half kind (R103). -/
def State.half (s : State) (g : BitVec 4) (d a b : BitVec 6) (fused : Bool) (f : FKind → Nat → Nat → Nat → Nat) : Verdict :=
  match halfKind s.st.fmt with
  | none => .trap .illegal s.st.exm s
  | some h => if fused then s.alu3c g d a b (onHalves (f h)) else s.alu3 g d a b (onHalves (f h))

/-- HPADD (R103). -/
def execHpadd (g : BitVec 4) (d a b : BitVec 6) (s : State) : Host.Outcome State Fault Refusal :=
  s.run (s.half g d a b false FKind.hAdd)

/-- HPSUB (R103). -/
def execHpsub (g : BitVec 4) (d a b : BitVec 6) (s : State) : Host.Outcome State Fault Refusal :=
  s.run (s.half g d a b false FKind.hSub)

/-- HPMUL (R103). -/
def execHpmul (g : BitVec 4) (d a b : BitVec 6) (s : State) : Host.Outcome State Fault Refusal :=
  s.run (s.half g d a b false FKind.hMul)

/-- HPFMA (R103). -/
def execHpfma (g : BitVec 4) (d a b : BitVec 6) (s : State) : Host.Outcome State Fault Refusal :=
  s.run (s.half g d a b true FKind.hFma)

/-- HPMIN (R103). -/
def execHpmin (g : BitVec 4) (d a b : BitVec 6) (s : State) : Host.Outcome State Fault Refusal :=
  s.run (s.half g d a b false FKind.hMin)

/-- HPMAX (R103). -/
def execHpmax (g : BitVec 4) (d a b : BitVec 6) (s : State) : Host.Outcome State Fault Refusal :=
  s.run (s.half g d a b false FKind.hMax)

/-- FRCP (R104, R105). -/
def execFrcp (g : BitVec 4) (d a : BitVec 6) (s : State) : Host.Outcome State Fault Refusal :=
  s.run (s.alu1 g d a sfuRcp)

/-- FRSQ (R104, R105). -/
def execFrsq (g : BitVec 4) (d a : BitVec 6) (s : State) : Host.Outcome State Fault Refusal :=
  s.run (s.alu1 g d a sfuRsq)

/-- FSQRT (R104, R105). -/
def execFsqrt (g : BitVec 4) (d a : BitVec 6) (s : State) : Host.Outcome State Fault Refusal :=
  s.run (s.alu1 g d a sfuSqrt)

/-- FEX2 (R104, R105). -/
def execFex2 (g : BitVec 4) (d a : BitVec 6) (s : State) : Host.Outcome State Fault Refusal :=
  s.run (s.alu1 g d a sfuEx2)

/-- FLG2 (R104, R105). -/
def execFlg2 (g : BitVec 4) (d a : BitVec 6) (s : State) : Host.Outcome State Fault Refusal :=
  s.run (s.alu1 g d a sfuLg2)

/-- FSIN (R104, R105). -/
def execFsin (g : BitVec 4) (d a : BitVec 6) (s : State) : Host.Outcome State Fault Refusal :=
  s.run (s.alu1 g d a sfuSin)

/-- FCOS (R104, R105). -/
def execFcos (g : BitVec 4) (d a : BitVec 6) (s : State) : Host.Outcome State Fault Refusal :=
  s.run (s.alu1 g d a sfuCos)

/-- FTANH (R104, R105). -/
def execFtanh (g : BitVec 4) (d a : BitVec 6) (s : State) : Host.Outcome State Fault Refusal :=
  s.run (s.alu1 g d a sfuTanh)

/-- CVT (R106). -/
def execCvt (g : BitVec 4) (d a : BitVec 6) (u v r : BitVec 3) (s : State) : Host.Outcome State Fault Refusal :=
  s.run (s.perLane g (decide (r.toNat < 5) && (decide (r.toNat < 2) || decide (v.toNat < 2))) [d.toNat, a.toNat]
    (fun l x => x.setReg s.gr.allot d.toNat (cvt (cvtKind u) (cvtKind v) r (s.reg l a.toNat))))

/-- A PACK instruction that reads a kind from FMT (R107); a reserved kind is ILLEGAL (R99). -/
def State.pack (s : State) (g : BitVec 4) (d a b : BitVec 6) (k : Option FKind) (useB : Bool) (f : FKind → Word → Word → Word → Word) : Verdict :=
  match k with
  | none => .trap .illegal s.st.exm s
  | some h =>
    s.perLane g true (if useB then [d.toNat, a.toNat, b.toNat] else [d.toNat, a.toNat])
      (fun l x => x.setReg s.gr.allot d.toNat (f h (s.reg l d.toNat) (s.reg l a.toNat) (if useB then s.reg l b.toNat else 0)))

/-- PKH (R107). -/
def execPkh (g : BitVec 4) (d a b : BitVec 6) (s : State) : Host.Outcome State Fault Refusal :=
  s.run (s.pack g d a b (halfKind s.st.fmt) true (fun h _ x y => BitVec.ofNat 32 ((h.narrow y) <<< 16 + h.narrow x)))

/-- UPKL (R107). -/
def execUpkl (g : BitVec 4) (d a : BitVec 6) (s : State) : Host.Outcome State Fault Refusal :=
  s.run (s.pack g d a 0 (halfKind s.st.fmt) false (fun h _ x _ => h.widen (x.toNat % 2 ^ 16)))

/-- UPKH (R107). -/
def execUpkh (g : BitVec 4) (d a : BitVec 6) (s : State) : Host.Outcome State Fault Refusal :=
  s.run (s.pack g d a 0 (halfKind s.st.fmt) false (fun h _ x _ => h.widen (x.toNat / 2 ^ 16)))

/-- PKB (R107). -/
def execPkb (g : BitVec 4) (d a b : BitVec 6) (s : State) : Host.Outcome State Fault Refusal :=
  s.run (s.pack g d a b (byteKind s.st.fmt) true (fun h o x y =>
    BitVec.ofNat 32 ((h.narrow y) <<< 24 + (h.narrow x) <<< 16 + o.toNat / 2 ^ 16)))

/-- UPKB (R107). -/
def execUpkb (g : BitVec 4) (d a b : BitVec 6) (s : State) : Host.Outcome State Fault Refusal :=
  s.run (s.pack g d a b (byteKind s.st.fmt) true (fun h _ x y =>
    h.widen (x.toNat / 2 ^ (8 * (y.toNat % 4)) % 2 ^ 8)))

/-- PKN (R107). -/
def execPkn (g : BitVec 4) (d a b : BitVec 6) (s : State) : Host.Outcome State Fault Refusal :=
  s.run (s.pack g d a b (some kE2m1) true (fun h o x y =>
    BitVec.ofNat 32 ((h.narrow y) <<< 28 + (h.narrow x) <<< 24 + o.toNat / 2 ^ 8)))

/-- UPKN (R107). -/
def execUpkn (g : BitVec 4) (d a b : BitVec 6) (s : State) : Host.Outcome State Fault Refusal :=
  s.run (s.pack g d a b (some kE2m1) true (fun h _ x y =>
    h.widen (x.toNat / 2 ^ (4 * (y.toNat % 8)) % 2 ^ 4)))

end Sys2Proof.Machine
end

