-- ==== Sys2Proof/Machine/Integer.lean ====
section
/-!
DEFINITION. The lane integer instructions: IAR, IMU, SHF, SHI, LOG, BIT, the immediate forms, MOVI, MOVG, XMOV, ISET and PLOG (R74 to R90), and NOP, HINT (R119).
-/
namespace Sys2Proof.Machine

/-- IADD (R78). -/
def execIadd (g : BitVec 4) (d a b : BitVec 6) (s : State) : Host.Outcome State Fault Refusal :=
  s.run (s.alu2x g d a b (· + ·) (· + ·))

/-- ISUB (R78). -/
def execIsub (g : BitVec 4) (d a b : BitVec 6) (s : State) : Host.Outcome State Fault Refusal :=
  s.run (s.alu2x g d a b (· - ·) (· - ·))

/-- IMIN (R78). -/
def execImin (g : BitVec 4) (d a b : BitVec 6) (s : State) : Host.Outcome State Fault Refusal :=
  s.run (s.alu2x g d a b sMin sMin)

/-- IMAX (R78). -/
def execImax (g : BitVec 4) (d a b : BitVec 6) (s : State) : Host.Outcome State Fault Refusal :=
  s.run (s.alu2x g d a b sMax sMax)

/-- IMINN (R78). -/
def execIminn (g : BitVec 4) (d a b : BitVec 6) (s : State) : Host.Outcome State Fault Refusal :=
  s.run (s.alu2x g d a b uMin uMin)

/-- IMAXN (R78). -/
def execImaxn (g : BitVec 4) (d a b : BitVec 6) (s : State) : Host.Outcome State Fault Refusal :=
  s.run (s.alu2x g d a b uMax uMax)

/-- IADDMN (R78). -/
def execIaddmn (g : BitVec 4) (d a b : BitVec 6) (s : State) : Host.Outcome State Fault Refusal :=
  s.run (s.alu3 g d a b addMin)

/-- IABSD (R78). -/
def execIabsd (g : BitVec 4) (d a b : BitVec 6) (s : State) : Host.Outcome State Fault Refusal :=
  s.run (s.alu2 g d a b absDiff)

/-- IMUL (R79). -/
def execImul (g : BitVec 4) (d a b : BitVec 6) (s : State) : Host.Outcome State Fault Refusal :=
  s.run (s.alu2 g d a b (· * ·))

/-- IMULH (R79). -/
def execImulh (g : BitVec 4) (d a b : BitVec 6) (s : State) : Host.Outcome State Fault Refusal :=
  s.run (s.alu2 g d a b mulHigh)

/-- IMULHN (R79). -/
def execImulhn (g : BitVec 4) (d a b : BitVec 6) (s : State) : Host.Outcome State Fault Refusal :=
  s.run (s.alu2 g d a b mulHighU)

/-- IMAC (R79). -/
def execImac (g : BitVec 4) (d a b : BitVec 6) (s : State) : Host.Outcome State Fault Refusal :=
  s.run (s.alu3c g d a b (fun c x y => c + x * y))

/-- IDIV: feature bit 2 is clear, so it traps ILLEGAL for EXM (R80). -/
def execIdiv (_g : BitVec 4) (_d _a _b : BitVec 6) (s : State) : Host.Outcome State Fault Refusal :=
  s.run (.trap .illegal s.st.exm s)

/-- IDIVN: feature bit 2 is clear, so it traps ILLEGAL for EXM (R80). -/
def execIdivn (_g : BitVec 4) (_d _a _b : BitVec 6) (s : State) : Host.Outcome State Fault Refusal :=
  s.run (.trap .illegal s.st.exm s)

/-- IREM: feature bit 2 is clear, so it traps ILLEGAL for EXM (R80). -/
def execIrem (_g : BitVec 4) (_d _a _b : BitVec 6) (s : State) : Host.Outcome State Fault Refusal :=
  s.run (.trap .illegal s.st.exm s)

/-- IREMN: feature bit 2 is clear, so it traps ILLEGAL for EXM (R80). -/
def execIremn (_g : BitVec 4) (_d _a _b : BitVec 6) (s : State) : Host.Outcome State Fault Refusal :=
  s.run (.trap .illegal s.st.exm s)

/-- SHL (R81). -/
def execShl (g : BitVec 4) (d a b : BitVec 6) (s : State) : Host.Outcome State Fault Refusal :=
  s.run (s.alu2 g d a b shl)

/-- SHR (R81). -/
def execShr (g : BitVec 4) (d a b : BitVec 6) (s : State) : Host.Outcome State Fault Refusal :=
  s.run (s.alu2 g d a b shr)

/-- SHRA (R81). -/
def execShra (g : BitVec 4) (d a b : BitVec 6) (s : State) : Host.Outcome State Fault Refusal :=
  s.run (s.alu2 g d a b shra)

/-- ROTL (R81). -/
def execRotl (g : BitVec 4) (d a b : BitVec 6) (s : State) : Host.Outcome State Fault Refusal :=
  s.run (s.alu2 g d a b rotl)

/-- AND (R82). -/
def execAnd (g : BitVec 4) (d a b : BitVec 6) (s : State) : Host.Outcome State Fault Refusal :=
  s.run (s.alu2 g d a b (· &&& ·))

/-- OR (R82). -/
def execOr (g : BitVec 4) (d a b : BitVec 6) (s : State) : Host.Outcome State Fault Refusal :=
  s.run (s.alu2 g d a b (· ||| ·))

/-- XOR (R82). -/
def execXor (g : BitVec 4) (d a b : BitVec 6) (s : State) : Host.Outcome State Fault Refusal :=
  s.run (s.alu2 g d a b (· ^^^ ·))

/-- ANDN (R82). -/
def execAndn (g : BitVec 4) (d a b : BitVec 6) (s : State) : Host.Outcome State Fault Refusal :=
  s.run (s.alu2 g d a b (fun x y => x &&& ~~~ y))

/-- ORN (R82). -/
def execOrn (g : BitVec 4) (d a b : BitVec 6) (s : State) : Host.Outcome State Fault Refusal :=
  s.run (s.alu2 g d a b (fun x y => x ||| ~~~ y))

/-- XNOR (R82). -/
def execXnor (g : BitVec 4) (d a b : BitVec 6) (s : State) : Host.Outcome State Fault Refusal :=
  s.run (s.alu2 g d a b (fun x y => ~~~ (x ^^^ y)))

/-- POPC (R82). -/
def execPopc (g : BitVec 4) (d a : BitVec 6) (s : State) : Host.Outcome State Fault Refusal :=
  s.run (s.alu1 g d a popCount)

/-- CLZ (R82). -/
def execClz (g : BitVec 4) (d a : BitVec 6) (s : State) : Host.Outcome State Fault Refusal :=
  s.run (s.alu1 g d a leadingZeros)

/-- BREV (R83). -/
def execBrev (g : BitVec 4) (d a : BitVec 6) (s : State) : Host.Outcome State Fault Refusal :=
  s.run (s.alu1 g d a bitReverse)

/-- BFE (R83). -/
def execBfe (g : BitVec 4) (d a b : BitVec 6) (s : State) : Host.Outcome State Fault Refusal :=
  s.run (s.alu2 g d a b bfeS)

/-- BFEN (R83). -/
def execBfen (g : BitVec 4) (d a b : BitVec 6) (s : State) : Host.Outcome State Fault Refusal :=
  s.run (s.alu2 g d a b bfeU)

/-- BFI (R83). -/
def execBfi (g : BitVec 4) (d a b : BitVec 6) (s : State) : Host.Outcome State Fault Refusal :=
  s.run (s.alu3 g d a b bfi)

/-- IADDI (R84). -/
def execIaddi (g : BitVec 4) (d a : BitVec 6) (i : BitVec 9) (s : State) : Host.Outcome State Fault Refusal :=
  s.run (s.alu1 g d a (fun x => x + s.immS i))

/-- IMULI (R84). -/
def execImuli (g : BitVec 4) (d a : BitVec 6) (i : BitVec 9) (s : State) : Host.Outcome State Fault Refusal :=
  s.run (s.alu1 g d a (fun x => x * s.immS i))

/-- ANDI (R84). -/
def execAndi (g : BitVec 4) (d a : BitVec 6) (i : BitVec 9) (s : State) : Host.Outcome State Fault Refusal :=
  s.run (s.alu1 g d a (fun x => x &&& s.immZ i))

/-- ORI (R84). -/
def execOri (g : BitVec 4) (d a : BitVec 6) (i : BitVec 9) (s : State) : Host.Outcome State Fault Refusal :=
  s.run (s.alu1 g d a (fun x => x ||| s.immZ i))

/-- XORI (R84). -/
def execXori (g : BitVec 4) (d a : BitVec 6) (i : BitVec 9) (s : State) : Host.Outcome State Fault Refusal :=
  s.run (s.alu1 g d a (fun x => x ^^^ s.immZ i))

/-- SHLI (R81). -/
def execShli (g : BitVec 4) (d a : BitVec 6) (n : BitVec 5) (s : State) : Host.Outcome State Fault Refusal :=
  s.run (s.alu1 g d a (fun x => shl x (n.setWidth 32)))

/-- SHRI (R81). -/
def execShri (g : BitVec 4) (d a : BitVec 6) (n : BitVec 5) (s : State) : Host.Outcome State Fault Refusal :=
  s.run (s.alu1 g d a (fun x => shr x (n.setWidth 32)))

/-- SHRAI (R81). -/
def execShrai (g : BitVec 4) (d a : BitVec 6) (n : BitVec 5) (s : State) : Host.Outcome State Fault Refusal :=
  s.run (s.alu1 g d a (fun x => shra x (n.setWidth 32)))

/-- ROTLI (R81). -/
def execRotli (g : BitVec 4) (d a : BitVec 6) (n : BitVec 5) (s : State) : Host.Outcome State Fault Refusal :=
  s.run (s.alu1 g d a (fun x => rotl x (n.setWidth 32)))

/-- MOVI (R85). -/
def execMovi (g : BitVec 4) (d : BitVec 6) (i : BitVec 15) (s : State) : Host.Outcome State Fault Refusal :=
  s.run (s.perLane g true [d.toNat] (fun _ x => x.setReg s.gr.allot d.toNat (s.immS i)))

/-- MOV (R86). -/
def execMov (g : BitVec 4) (d a : BitVec 6) (s : State) : Host.Outcome State Fault Refusal :=
  s.run (s.alu1 g d a id)

/-- MOVS (R86). -/
def execMovs (g : BitVec 4) (d a : BitVec 6) (s : State) : Host.Outcome State Fault Refusal :=
  s.run (s.perLane g true [d.toNat] (fun _ x => x.setReg s.gr.allot d.toNat (s.sreg a.toNat)))

/-- MOVP (R86). -/
def execMovp (g : BitVec 4) (d : BitVec 6) (s : State) : Host.Outcome State Fault Refusal :=
  s.run (s.perLane g true [d.toNat] (fun _ x => x.setReg s.gr.allot d.toNat (x.preds.setWidth 32)))

/-- PMOV (R86). -/
def execPmov (g : BitVec 4) (a b : BitVec 6) (s : State) : Host.Outcome State Fault Refusal :=
  s.run (s.perLane g true [a.toNat, b.toNat] (fun l x =>
    let v := (s.reg l a.toNat).setWidth 12
    let m := (s.reg l b.toNat).setWidth 12
    { x with preds := (v &&& m) ||| (x.preds &&& ~~~ m) }))

/-- The lane special of LSR (R86). -/
def State.laneSpecial (s : State) (x : Lane) (n : Nat) : Word :=
  match n with
  | 0 => BitVec.ofNat 32 s.gr.fa
  | 1 => BitVec.ofNat 32 (s.gr.fa / 2 ^ 32 % 2 ^ 25)
  | 2 => BitVec.ofNat 32 x.fb
  | 3 => BitVec.ofNat 32 x.lowres
  | _ => x.lanefault

/-- LSR (R86). -/
def execLsr (g : BitVec 4) (d b : BitVec 6) (s : State) : Host.Outcome State Fault Refusal :=
  s.run (s.perLane g (decide (b.toNat < 5)) [d.toNat] (fun _ x => x.setReg s.gr.allot d.toNat (s.laneSpecial x b.toNat)))

/-- The frame word that XMOV names in a lane, computed exactly (R87). -/
def State.xword (s : State) (i : BitVec 2) (k : BitVec 12) (x : Lane) : Int :=
  x.fb + ((s.st.ix.getD i.toNat 0).toInt + (match s.extImm with
    | some e => (joinImm e k).toInt
    | none => k.toInt))

/-- Whether that word is outside the range of R87, or below word 0 (R185). -/
def State.xwordBad (s : State) (i : BitVec 2) (k : BitVec 12) (x : Lane) : Bool :=
  let w := s.xword i k x
  decide (w < (x.fb : Int) + 58 - s.gr.allot) || decide ((x.fb : Int) + 58 ≤ w) || decide (w < 0)

/-- The shape of XLD and XST: the checks, the refill of words that are not resident, then f on each lane and its word (R87, R88, R184). -/
def State.xmov (s : State) (g : BitVec 4) (d : BitVec 6) (i : BitVec 2) (k : BitVec 12) (f : Nat → Lane → Nat → Lane) : Verdict :=
  let p := s.active g
  let bad := Mask.ofPred (fun l => p.has l && ((s.lane l).beyond d.toNat || s.xwordBad i k (s.lane l)))
  if bad ≠ 0 then .trap .regBound bad s
  else
    let ds := (p.lanes.filter (fun l => decide ((s.xword i k (s.lane l)).toNat < (s.lane l).lowres))).map (fun l =>
      ({ lane := l, spill := false, need := (s.xword i k (s.lane l)).toNat, bound := (s.xword i k (s.lane l)).toNat,
         words := [] } : Demand))
    s.withDemands ds (fun t => .next (t.mapLanes (t.active g) (fun l x => f l x (t.xword i k x).toNat)))

/-- XLD (R87). -/
def execXld (g : BitVec 4) (d : BitVec 6) (i : BitVec 2) (k : BitVec 12) (s : State) : Host.Outcome State Fault Refusal :=
  s.run (s.xmov g d i k (fun _ x w => x.setReg s.gr.allot d.toNat (x.word s.gr.allot w)))

/-- XST (R87): d is read as of the instruction's place. -/
def execXst (g : BitVec 4) (d : BitVec 6) (i : BitVec 2) (k : BitVec 12) (s : State) : Host.Outcome State Fault Refusal :=
  s.run (s.xmov g d i k (fun l x w => x.putWord s.gr.allot w (s.reg l d.toNat)))

/-- ISET (R89). -/
def execIset (g : BitVec 4) (c : BitVec 2) (p : BitVec 4) (a b : BitVec 6) (f : BitVec 3) (s : State) : Host.Outcome State Fault Refusal :=
  s.run (if s.wide then
      s.perLane g (decide (p.toNat < 12) && isPair a.toNat && isPair b.toNat)
        [a.toNat, a.toNat + 1, b.toNat, b.toNat + 1]
        (fun l x => x.setPred p.toNat (combine c (x.pred p.toNat) (intCond f (s.regPair l a.toNat) (s.regPair l b.toNat))))
    else
      s.perLane g (decide (p.toNat < 12)) [a.toNat, b.toNat]
        (fun l x => x.setPred p.toNat (combine c (x.pred p.toNat) (intCond f (s.reg l a.toNat) (s.reg l b.toNat)))))

/-- PAND (R90). -/
def execPand (g d a b : BitVec 4) (s : State) : Host.Outcome State Fault Refusal :=
  s.run (s.perLane g (decide (d.toNat < 12) && decide (a.toNat < 13) && decide (b.toNat < 13)) []
    (fun _ x => x.setPred d.toNat (x.pred a.toNat && x.pred b.toNat)))

/-- POR (R90). -/
def execPor (g d a b : BitVec 4) (s : State) : Host.Outcome State Fault Refusal :=
  s.run (s.perLane g (decide (d.toNat < 12) && decide (a.toNat < 13) && decide (b.toNat < 13)) []
    (fun _ x => x.setPred d.toNat (x.pred a.toNat || x.pred b.toNat)))

/-- PXOR (R90). -/
def execPxor (g d a b : BitVec 4) (s : State) : Host.Outcome State Fault Refusal :=
  s.run (s.perLane g (decide (d.toNat < 12) && decide (a.toNat < 13) && decide (b.toNat < 13)) []
    (fun _ x => x.setPred d.toNat (xor (x.pred a.toNat) (x.pred b.toNat))))

/-- PANDN (R90). -/
def execPandn (g d a b : BitVec 4) (s : State) : Host.Outcome State Fault Refusal :=
  s.run (s.perLane g (decide (d.toNat < 12) && decide (a.toNat < 13) && decide (b.toNat < 13)) []
    (fun _ x => x.setPred d.toNat (x.pred a.toNat && !x.pred b.toNat)))

/-- PNOT (R90). -/
def execPnot (g d a : BitVec 4) (s : State) : Host.Outcome State Fault Refusal :=
  s.run (s.perLane g (decide (d.toNat < 12) && decide (a.toNat < 13)) [] (fun _ x => x.setPred d.toNat (!x.pred a.toNat)))

/-- PSET (R90). -/
def execPset (g d : BitVec 4) (s : State) : Host.Outcome State Fault Refusal :=
  s.run (s.perLane g (decide (d.toNat < 12)) [] (fun _ x => x.setPred d.toNat true))

/-- PCLR (R90). -/
def execPclr (g d : BitVec 4) (s : State) : Host.Outcome State Fault Refusal :=
  s.run (s.perLane g (decide (d.toNat < 12)) [] (fun _ x => x.setPred d.toNat false))

/-- NOP (R119). -/
def execNop (s : State) : Host.Outcome State Fault Refusal :=
  s.run (.next s)

/-- The hint region (R119). -/
def execHint (s : State) : Host.Outcome State Fault Refusal :=
  s.run (.next s)

end Sys2Proof.Machine
end

