-- ==== Sys2Proof/Decode.lean ====
section
/-!
DEFINITION. The decoder and the encoder of the instruction words (R42, R43, R47 to R55), over the seven bit fields that every format shares. Events of the machine have no words. decodeTableWord at the end is the host's view of the decoder.
-/
namespace Sys2Proof

/-- Why a word is no instruction: its fate is ILLEGAL (R55). -/
inductive DecodeError where
  /-- a reserved major opcode -/
  | reservedMajor
  /-- a function code or sub-field marked illegal -/
  | illegalFunction
  /-- FRAME with a guard (R14) -/
  | frameGuard
  /-- fewer than four bytes -/
  | truncated
deriving DecidableEq, Repr

/-- The bit fields of a word: S [31], MAJ [30:25], G [24:21], D [20:15], A [14:9], B [8:3], FN [2:0] (R42, R47). -/
structure Fields where
  s : BitVec 1
  maj : BitVec 6
  g : BitVec 4
  d : BitVec 6
  a : BitVec 6
  b : BitVec 6
  fn : BitVec 3
deriving DecidableEq, Repr

/-- The fields of a word. -/
def Fields.split (w : Word) : Fields :=
  { s := w.extractLsb' 31 1, maj := w.extractLsb' 25 6, g := w.extractLsb' 21 4, d := w.extractLsb' 15 6,
    a := w.extractLsb' 9 6, b := w.extractLsb' 3 6, fn := w.extractLsb' 0 3 }

/-- The word of some fields. -/
def Fields.join (f : Fields) : Word := f.s ++ f.maj ++ f.g ++ f.d ++ f.a ++ f.b ++ f.fn

/-- The lane set (R53). -/
def decodeLane (f : Fields) : Except DecodeError Instr :=
  match f.maj with
  | 0x00#6 => .ok .nop
  | 0x01#6 =>
    match f.fn with
    | 0#3 => .ok (.iadd f.g f.d f.a f.b)
    | 1#3 => .ok (.isub f.g f.d f.a f.b)
    | 2#3 => .ok (.imin f.g f.d f.a f.b)
    | 3#3 => .ok (.imax f.g f.d f.a f.b)
    | 4#3 => .ok (.iminn f.g f.d f.a f.b)
    | 5#3 => .ok (.imaxn f.g f.d f.a f.b)
    | 6#3 => .ok (.iaddmn f.g f.d f.a f.b)
    | _ => .ok (.iabsd f.g f.d f.a f.b)
  | 0x02#6 =>
    match f.fn with
    | 0#3 => .ok (.imul f.g f.d f.a f.b)
    | 1#3 => .ok (.imulh f.g f.d f.a f.b)
    | 2#3 => .ok (.imulhn f.g f.d f.a f.b)
    | 3#3 => .ok (.imac f.g f.d f.a f.b)
    | 4#3 => .ok (.idiv f.g f.d f.a f.b)
    | 5#3 => .ok (.idivn f.g f.d f.a f.b)
    | 6#3 => .ok (.irem f.g f.d f.a f.b)
    | _ => .ok (.iremn f.g f.d f.a f.b)
  | 0x03#6 =>
    match f.fn with
    | 0#3 => .ok (.shl f.g f.d f.a f.b)
    | 1#3 => .ok (.shr f.g f.d f.a f.b)
    | 2#3 => .ok (.shra f.g f.d f.a f.b)
    | 3#3 => .ok (.rotl f.g f.d f.a f.b)
    | _ => .error .illegalFunction
  | 0x04#6 =>
    match f.fn with
    | 0#3 => .ok (.and f.g f.d f.a f.b)
    | 1#3 => .ok (.or f.g f.d f.a f.b)
    | 2#3 => .ok (.xor f.g f.d f.a f.b)
    | 3#3 => .ok (.andn f.g f.d f.a f.b)
    | 4#3 => .ok (.orn f.g f.d f.a f.b)
    | 5#3 => .ok (.xnor f.g f.d f.a f.b)
    | 6#3 => .ok (.popc f.g f.d f.a)
    | _ => .ok (.clz f.g f.d f.a)
  | 0x05#6 =>
    match f.fn with
    | 0#3 => .ok (.brev f.g f.d f.a)
    | 1#3 => .ok (.bfe f.g f.d f.a f.b)
    | 2#3 => .ok (.bfen f.g f.d f.a f.b)
    | 3#3 => .ok (.bfi f.g f.d f.a f.b)
    | _ => .error .illegalFunction
  | 0x06#6 => .ok (.iaddi f.g f.d f.a (f.b ++ f.fn))
  | 0x07#6 => .ok (.imuli f.g f.d f.a (f.b ++ f.fn))
  | 0x08#6 => .ok (.andi f.g f.d f.a (f.b ++ f.fn))
  | 0x09#6 => .ok (.ori f.g f.d f.a (f.b ++ f.fn))
  | 0x0A#6 => .ok (.xori f.g f.d f.a (f.b ++ f.fn))
  | 0x0B#6 =>
    match f.b.extractLsb' 3 3 with
    | 0#3 => .ok (.shli f.g f.d f.a (f.b.extractLsb' 0 2 ++ f.fn))
    | 1#3 => .ok (.shri f.g f.d f.a (f.b.extractLsb' 0 2 ++ f.fn))
    | 2#3 => .ok (.shrai f.g f.d f.a (f.b.extractLsb' 0 2 ++ f.fn))
    | 3#3 => .ok (.rotli f.g f.d f.a (f.b.extractLsb' 0 2 ++ f.fn))
    | _ => .error .illegalFunction
  | 0x0C#6 => .ok (.movi f.g f.d (f.a ++ f.b ++ f.fn))
  | 0x0D#6 =>
    match f.fn with
    | 0#3 => .ok (.mov f.g f.d f.a)
    | 1#3 => .ok (.movs f.g f.d f.a)
    | 2#3 => .ok (.movp f.g f.d)
    | 3#3 => .ok (.pmov f.g f.a f.b)
    | 4#3 => .ok (.lsr f.g f.d f.b)
    | _ => .error .illegalFunction
  | 0x0E#6 => .ok (.iset f.g (f.d.extractLsb' 4 2) (f.d.extractLsb' 0 4) f.a f.b f.fn)
  | 0x0F#6 =>
    match f.fn with
    | 0#3 => .ok (.pand f.g (f.d.extractLsb' 0 4) (f.a.extractLsb' 0 4) (f.b.extractLsb' 0 4))
    | 1#3 => .ok (.por f.g (f.d.extractLsb' 0 4) (f.a.extractLsb' 0 4) (f.b.extractLsb' 0 4))
    | 2#3 => .ok (.pxor f.g (f.d.extractLsb' 0 4) (f.a.extractLsb' 0 4) (f.b.extractLsb' 0 4))
    | 3#3 => .ok (.pandn f.g (f.d.extractLsb' 0 4) (f.a.extractLsb' 0 4) (f.b.extractLsb' 0 4))
    | 4#3 => .ok (.pnot f.g (f.d.extractLsb' 0 4) (f.a.extractLsb' 0 4))
    | 5#3 => .ok (.pset f.g (f.d.extractLsb' 0 4))
    | 6#3 => .ok (.pclr f.g (f.d.extractLsb' 0 4))
    | _ => .error .illegalFunction
  | 0x10#6 =>
    match f.fn with
    | 0#3 => .ok (.fadd f.g f.d f.a f.b)
    | 1#3 => .ok (.fsub f.g f.d f.a f.b)
    | 2#3 => .ok (.fmul f.g f.d f.a f.b)
    | 3#3 => .ok (.ffma f.g f.d f.a f.b)
    | 4#3 => .ok (.fmin f.g f.d f.a f.b)
    | 5#3 => .ok (.fmax f.g f.d f.a f.b)
    | 6#3 => .ok (.faddmn f.g f.d f.a f.b)
    | _ => .ok (.fnfma f.g f.d f.a f.b)
  | 0x11#6 => .ok (.fset f.g (f.d.extractLsb' 4 2) (f.d.extractLsb' 0 4) f.a f.b f.fn)
  | 0x12#6 =>
    match f.fn with
    | 0#3 => .ok (.hpadd f.g f.d f.a f.b)
    | 1#3 => .ok (.hpsub f.g f.d f.a f.b)
    | 2#3 => .ok (.hpmul f.g f.d f.a f.b)
    | 3#3 => .ok (.hpfma f.g f.d f.a f.b)
    | 4#3 => .ok (.hpmin f.g f.d f.a f.b)
    | 5#3 => .ok (.hpmax f.g f.d f.a f.b)
    | _ => .error .illegalFunction
  | 0x13#6 =>
    match f.fn with
    | 0#3 => .ok (.frcp f.g f.d f.a)
    | 1#3 => .ok (.frsq f.g f.d f.a)
    | 2#3 => .ok (.fsqrt f.g f.d f.a)
    | 3#3 => .ok (.fex2 f.g f.d f.a)
    | 4#3 => .ok (.flg2 f.g f.d f.a)
    | 5#3 => .ok (.fsin f.g f.d f.a)
    | 6#3 => .ok (.fcos f.g f.d f.a)
    | _ => .ok (.ftanh f.g f.d f.a)
  | 0x14#6 => .ok (.cvt f.g f.d f.a (f.b.extractLsb' 3 3) (f.b.extractLsb' 0 3) f.fn)
  | 0x15#6 =>
    match f.fn with
    | 0#3 => .ok (.pkh f.g f.d f.a f.b)
    | 1#3 => .ok (.upkl f.g f.d f.a)
    | 2#3 => .ok (.upkh f.g f.d f.a)
    | 3#3 => .ok (.pkb f.g f.d f.a f.b)
    | 4#3 => .ok (.upkb f.g f.d f.a f.b)
    | 5#3 => .ok (.pkn f.g f.d f.a f.b)
    | 6#3 => .ok (.upkn f.g f.d f.a f.b)
    | _ => .error .illegalFunction
  | 0x16#6 =>
    match f.fn with
    | 0#3 => .ok (.lpermAbs f.g f.d f.a f.b)
    | 1#3 => .ok (.lpermBack f.g f.d f.a f.b)
    | 2#3 => .ok (.lpermFwd f.g f.d f.a f.b)
    | 3#3 => .ok (.lpermFlip f.g f.d f.a f.b)
    | _ => .error .illegalFunction
  | 0x17#6 =>
    match f.fn with
    | 0#3 => .ok (.lany f.g f.d f.a)
    | 1#3 => .ok (.lall f.g f.d f.a)
    | 2#3 => .ok (.lmask f.g f.d f.a)
    | 3#3 => .ok (.lsame f.g f.d f.a)
    | _ => .error .illegalFunction
  | 0x18#6 =>
    match f.fn with
    | 0#3 => .ok (.rdxadd f.g f.d f.a)
    | 1#3 => .ok (.rdxmin f.g f.d f.a)
    | 2#3 => .ok (.rdxmax f.g f.d f.a)
    | 3#3 => .ok (.scanadd f.g f.d f.a)
    | 4#3 => .ok (.scanaddx f.g f.d f.a)
    | 5#3 => .ok (.rank f.g f.d f.a)
    | 6#3 => .ok (.count f.g f.d f.a f.b)
    | _ => .ok (.frdxadd f.g f.d f.a)
  | 0x19#6 => .ok (.ld f.g f.d f.a (f.b.extractLsb' 3 3) (f.b.extractLsb' 0 3) f.fn)
  | 0x1A#6 => .ok (.st f.g f.d f.a (f.b.extractLsb' 3 3) (f.b.extractLsb' 0 3) f.fn)
  | 0x1B#6 =>
    match f.b.extractLsb' 5 1 with
    | 0#1 => .ok (.lds f.g f.d f.a (f.b.extractLsb' 0 3) f.fn)
    | _ => .ok (.sts f.g f.d f.a (f.b.extractLsb' 0 3) f.fn)
  | 0x1C#6 => .ok (.atom f.g f.d f.a (f.b.extractLsb' 3 3) (f.b.extractLsb' 0 3) f.fn)
  | 0x1D#6 => .ok (.red f.g f.d f.a (f.b.extractLsb' 3 3) (f.b.extractLsb' 0 3) f.fn)
  | 0x1E#6 => .ok (.satom f.g f.d f.a (f.b.extractLsb' 0 3) f.fn)
  | 0x1F#6 => .ok (.objcall f.g f.d f.a f.b f.fn)
  | 0x20#6 => .ok (.bra f.g (f.d ++ f.a ++ f.b ++ f.fn))
  | 0x21#6 => .ok (.brau f.g (f.d ++ f.a ++ f.b ++ f.fn))
  | 0x22#6 => .ok (.joinat f.g (f.d ++ f.a ++ f.b ++ f.fn))
  | 0x23#6 => .ok (.call f.g (f.d ++ f.a ++ f.b ++ f.fn))
  | 0x24#6 => if f.g = 13#4 then .ok (.callrU f.a) else .ok (.callr f.g f.a)
  | 0x25#6 => .ok (.ret f.g)
  | 0x26#6 => if f.g = 0#4 then .ok (.frame f.fn) else .error .frameGuard
  | 0x27#6 => .ok (.exit f.g)
  | 0x28#6 =>
    match f.b.extractLsb' 4 2 with
    | 0#2 => .ok (.bsync f.g (f.b.extractLsb' 0 4 ++ f.fn))
    | 1#2 => .ok (.barv f.g (f.b.extractLsb' 0 4 ++ f.fn))
    | 2#2 => .ok (.bwait f.g (f.b.extractLsb' 0 4 ++ f.fn))
    | _ => .error .illegalFunction
  | 0x29#6 =>
    match f.a.extractLsb' 3 1 with
    | 0#1 => .ok (.xld f.g f.d (f.a.extractLsb' 4 2) (f.a.extractLsb' 0 3 ++ f.b ++ f.fn))
    | _ => .ok (.xst f.g f.d (f.a.extractLsb' 4 2) (f.a.extractLsb' 0 3 ++ f.b ++ f.fn))
  | 0x2A#6 => .ok (.trap f.g (f.b.extractLsb' 0 5 ++ f.fn))
  | 0x2B#6 => .ok (.bkpt f.g (f.a ++ f.b ++ f.fn))
  | 0x2C#6 =>
    match f.fn with
    | 0#3 => .ok (.objret f.g f.a)
    | 1#3 => .ok (.objretErr f.g f.a)
    | _ => .error .illegalFunction
  | _ => .error .reservedMajor

/-- The uniform set (R54). -/
def decodeUniform (f : Fields) : Except DecodeError Instr :=
  match f.maj with
  | 0x00#6 => .ok .snop
  | 0x01#6 =>
    match f.fn with
    | 0#3 => .ok (.sadd f.g f.d f.a f.b)
    | 1#3 => .ok (.ssub f.g f.d f.a f.b)
    | 2#3 => .ok (.smin f.g f.d f.a f.b)
    | 3#3 => .ok (.smax f.g f.d f.a f.b)
    | 4#3 => .ok (.sminn f.g f.d f.a f.b)
    | 5#3 => .ok (.smaxn f.g f.d f.a f.b)
    | 6#3 => .ok (.smul f.g f.d f.a f.b)
    | _ => .ok (.smulh f.g f.d f.a f.b)
  | 0x02#6 =>
    match f.fn with
    | 0#3 => .ok (.sand f.g f.d f.a f.b)
    | 1#3 => .ok (.sor f.g f.d f.a f.b)
    | 2#3 => .ok (.sxor f.g f.d f.a f.b)
    | 3#3 => .ok (.sandn f.g f.d f.a f.b)
    | 4#3 => .ok (.sshl f.g f.d f.a f.b)
    | 5#3 => .ok (.sshr f.g f.d f.a f.b)
    | 6#3 => .ok (.sshra f.g f.d f.a f.b)
    | _ => .ok (.spopc f.g f.d f.a)
  | 0x03#6 => .ok (.saddi f.g f.d f.a (f.b ++ f.fn))
  | 0x04#6 => .ok (.smovi f.g f.d (f.a ++ f.b ++ f.fn))
  | 0x05#6 =>
    match f.fn with
    | 0#3 => .ok (.smov f.g f.d f.a)
    | 1#3 => .ok (.smov64 f.g f.d f.a)
    | 2#3 => .ok (.srd f.g f.d (f.a ++ f.b))
    | 3#3 => .ok (.swr f.g f.d (f.a ++ f.b))
    | 4#3 => .ok (.slane f.g f.d f.a f.b)
    | _ => .error .illegalFunction
  | 0x06#6 => .ok (.sset f.g (f.d.extractLsb' 4 2) (f.d.extractLsb' 0 4) f.a f.b f.fn)
  | 0x07#6 =>
    match f.fn with
    | 0#3 => .ok (.qand f.g (f.d.extractLsb' 0 4) (f.a.extractLsb' 0 4) (f.b.extractLsb' 0 4))
    | 1#3 => .ok (.qor f.g (f.d.extractLsb' 0 4) (f.a.extractLsb' 0 4) (f.b.extractLsb' 0 4))
    | 2#3 => .ok (.qxor f.g (f.d.extractLsb' 0 4) (f.a.extractLsb' 0 4) (f.b.extractLsb' 0 4))
    | 3#3 => .ok (.qandn f.g (f.d.extractLsb' 0 4) (f.a.extractLsb' 0 4) (f.b.extractLsb' 0 4))
    | 4#3 => .ok (.qnot f.g (f.d.extractLsb' 0 4) (f.a.extractLsb' 0 4))
    | 5#3 => .ok (.qset f.g (f.d.extractLsb' 0 4))
    | 6#3 => .ok (.qclr f.g (f.d.extractLsb' 0 4))
    | _ => .error .illegalFunction
  | 0x08#6 => .ok (.sbra f.g (f.d ++ f.a ++ f.b ++ f.fn))
  | 0x09#6 => .ok (.jseg f.g (f.d ++ f.a ++ f.b ++ f.fn))
  | 0x0A#6 => .ok (.sld f.g f.d f.a (f.b.extractLsb' 3 3) (f.b.extractLsb' 0 3) f.fn)
  | 0x0B#6 => .ok (.sst f.g f.d f.a (f.b.extractLsb' 3 3) (f.b.extractLsb' 0 3) f.fn)
  | 0x0C#6 => .ok (.tbset f.g (f.d.extractLsb' 0 3) f.a f.b)
  | 0x0D#6 => .ok (.fence f.g (f.d.extractLsb' 3 3) (f.d.extractLsb' 1 2) (f.d.extractLsb' 0 1))
  | 0x0E#6 => .ok (.fmtset f.g (f.a ++ f.b ++ f.fn))
  | 0x0F#6 =>
    match f.fn with
    | 0#3 => .ok (.setix f.g (f.d.extractLsb' 0 2) f.a)
    | 1#3 => .ok (.addix f.g (f.d.extractLsb' 0 2) f.a)
    | _ => .error .illegalFunction
  | 0x10#6 => .ok (.barinit f.g (f.d ++ f.a.extractLsb' 5 1) (f.a.extractLsb' 4 1) f.b)
  | 0x11#6 =>
    match f.fn with
    | 0#3 => .ok (.cpG2s f.g f.d f.a)
    | 1#3 => .ok (.cpS2g f.g f.d f.a)
    | 2#3 => .ok (.cpG2g f.g f.d f.a)
    | 3#3 => .ok (.cpGath f.g f.d f.a)
    | 4#3 => .ok (.cpReg f.g f.d f.a)
    | 5#3 => .ok (.cpAcc f.g f.d f.a)
    | 6#3 => .ok (.cpMma f.g f.d f.a)
    | _ => .error .illegalFunction
  | 0x12#6 =>
    match f.fn with
    | 0#3 => .ok (.bfc f.g f.d)
    | 1#3 => .ok (.bfm f.g f.d)
    | _ => .error .illegalFunction
  | 0x13#6 =>
    match f.fn with
    | 0#3 => .ok (.waitc f.g f.a)
    | 1#3 => .ok (.waitm f.g f.a)
    | _ => .error .illegalFunction
  | 0x14#6 =>
    match f.fn with
    | 0#3 => .ok (.mma f.g f.d f.a)
    | 1#3 => .ok (.mmag f.g f.d f.a f.b)
    | 2#3 => .ok (.mmaf f.g)
    | 3#3 => .ok (.accz f.g (f.a.extractLsb' 0 4) (f.b.extractLsb' 0 4))
    | 4#3 => .ok (.accrd f.g f.d (f.a.extractLsb' 0 4) (f.b.extractLsb' 0 3))
    | 5#3 => .ok (.accrs f.g (f.d.extractLsb' 0 4) f.a)
    | 6#3 => .ok (.mmv f.g f.d f.a)
    | _ => .error .illegalFunction
  | 0x15#6 =>
    match f.fn with
    | 0#3 => .ok (.cfetch f.g f.a)
    | 1#3 => .ok (.cinv f.g (f.d.extractLsb' 3 3) f.a)
    | _ => .error .illegalFunction
  | 0x16#6 =>
    match f.fn with
    | 0#3 => .ok (.objdef f.g f.d f.a)
    | 1#3 => .ok (.objdel f.g f.a)
    | 2#3 => .ok (.objend f.g)
    | _ => .error .illegalFunction
  | 0x17#6 =>
    match f.fn with
    | 0#3 => .ok (.launch f.g f.d f.a)
    | 1#3 => .ok (.cntinc f.g f.d f.a (f.b.extractLsb' 0 2))
    | 2#3 => .ok (.cntwait f.g f.a (f.b.extractLsb' 0 2))
    | 3#3 => .ok (.cancel f.g f.a (f.b.extractLsb' 0 2))
    | 4#3 => .ok (.cntrd f.g f.d f.a (f.b.extractLsb' 0 2))
    | _ => .error .illegalFunction
  | 0x18#6 =>
    match f.fn with
    | 0#3 => .ok (.credSum f.g f.d f.a)
    | 1#3 => .ok (.credMax f.g f.d f.a)
    | 2#3 => .ok (.credMin f.g f.d f.a)
    | _ => .error .illegalFunction
  | 0x19#6 => .ok (.syscall f.g (f.a ++ f.b ++ f.fn))
  | 0x1A#6 =>
    match f.fn with
    | 0#3 => .ok (.walknext f.g f.d f.a)
    | 1#3 => .ok (.tlbfill f.g f.a f.b)
    | 2#3 => .ok (.tlbdone f.g f.a f.b)
    | 3#3 => .ok (.tlbinv f.g f.a f.b)
    | 4#3 => .ok (.atsreq f.g f.a f.b)
    | 5#3 => .ok (.prireq f.g f.a)
    | _ => .error .illegalFunction
  | 0x1B#6 =>
    match f.fn with
    | 0#3 => .ok (.rft f.g)
    | 1#3 => .ok (.tkill f.g)
    | 2#3 => .ok (.tend f.g)
    | _ => .error .illegalFunction
  | 0x1C#6 => .ok (.yield f.g)
  | 0x1D#6 => .ok (.jsegr f.g f.a)
  | _ => .error .reservedMajor

/-- EXT (R49 to R51); its S bit is ignored. -/
def decodeExt (f : Fields) : Instr :=
  match f.g.extractLsb' 3 1 with
  | 0#1 => .extImmediate (f.g.extractLsb' 0 3 ++ f.d ++ f.a ++ f.b ++ f.fn)
  | _ => .extOperand (f.g.extractLsb' 0 3 ++ f.d.extractLsb' 3 3) (f.d.extractLsb' 0 3) (f.a.extractLsb' 5 1)
      (f.a.extractLsb' 4 1) (f.a.extractLsb' 3 1) (f.a.extractLsb' 0 3 ++ f.b ++ f.fn)

/-- The instruction of some fields: EXT and the hint region stand in both sets (R49, R55). -/
def decodeFields (f : Fields) : Except DecodeError Instr :=
  match f.maj with
  | 0x38#6 => .ok .hint
  | 0x39#6 => .ok .hint
  | 0x3A#6 => .ok .hint
  | 0x3B#6 => .ok .hint
  | 0x3F#6 => .ok (decodeExt f)
  | _ => match f.s with
    | 0#1 => decodeLane f
    | _ => decodeUniform f

/-- The instruction that a word holds. -/
def decode (w : Word) : Except DecodeError Instr := decodeFields (Fields.split w)

/-- A word from its four bytes, the lowest address first (R4). -/
def wordOfBytes (b0 b1 b2 b3 : Byte) : Word := b3 ++ b2 ++ b1 ++ b0

/-- Decoding from bytes: the instruction and the bytes after it. -/
def decodeBytes (bs : List Byte) : Except DecodeError (Instr × List Byte) :=
  match bs with
  | b0 :: b1 :: b2 :: b3 :: rest => (decode (wordOfBytes b0 b1 b2 b3)).map (fun i => (i, rest))
  | _ => .error .truncated

/-- The fields of an instruction word, every ignored bit 0; none for an event, which has no word. -/
def encodeFields (i : Instr) : Option Fields :=
  match i with
  | .iadd g d a b => some ⟨0#1, 0x01#6, g, d, a, b, 0#3⟩
  | .isub g d a b => some ⟨0#1, 0x01#6, g, d, a, b, 1#3⟩
  | .imin g d a b => some ⟨0#1, 0x01#6, g, d, a, b, 2#3⟩
  | .imax g d a b => some ⟨0#1, 0x01#6, g, d, a, b, 3#3⟩
  | .iminn g d a b => some ⟨0#1, 0x01#6, g, d, a, b, 4#3⟩
  | .imaxn g d a b => some ⟨0#1, 0x01#6, g, d, a, b, 5#3⟩
  | .iaddmn g d a b => some ⟨0#1, 0x01#6, g, d, a, b, 6#3⟩
  | .iabsd g d a b => some ⟨0#1, 0x01#6, g, d, a, b, 7#3⟩
  | .imul g d a b => some ⟨0#1, 0x02#6, g, d, a, b, 0#3⟩
  | .imulh g d a b => some ⟨0#1, 0x02#6, g, d, a, b, 1#3⟩
  | .imulhn g d a b => some ⟨0#1, 0x02#6, g, d, a, b, 2#3⟩
  | .imac g d a b => some ⟨0#1, 0x02#6, g, d, a, b, 3#3⟩
  | .idiv g d a b => some ⟨0#1, 0x02#6, g, d, a, b, 4#3⟩
  | .idivn g d a b => some ⟨0#1, 0x02#6, g, d, a, b, 5#3⟩
  | .irem g d a b => some ⟨0#1, 0x02#6, g, d, a, b, 6#3⟩
  | .iremn g d a b => some ⟨0#1, 0x02#6, g, d, a, b, 7#3⟩
  | .shl g d a b => some ⟨0#1, 0x03#6, g, d, a, b, 0#3⟩
  | .shr g d a b => some ⟨0#1, 0x03#6, g, d, a, b, 1#3⟩
  | .shra g d a b => some ⟨0#1, 0x03#6, g, d, a, b, 2#3⟩
  | .rotl g d a b => some ⟨0#1, 0x03#6, g, d, a, b, 3#3⟩
  | .and g d a b => some ⟨0#1, 0x04#6, g, d, a, b, 0#3⟩
  | .or g d a b => some ⟨0#1, 0x04#6, g, d, a, b, 1#3⟩
  | .xor g d a b => some ⟨0#1, 0x04#6, g, d, a, b, 2#3⟩
  | .andn g d a b => some ⟨0#1, 0x04#6, g, d, a, b, 3#3⟩
  | .orn g d a b => some ⟨0#1, 0x04#6, g, d, a, b, 4#3⟩
  | .xnor g d a b => some ⟨0#1, 0x04#6, g, d, a, b, 5#3⟩
  | .popc g d a => some ⟨0#1, 0x04#6, g, d, a, 0#6, 6#3⟩
  | .clz g d a => some ⟨0#1, 0x04#6, g, d, a, 0#6, 7#3⟩
  | .brev g d a => some ⟨0#1, 0x05#6, g, d, a, 0#6, 0#3⟩
  | .bfe g d a b => some ⟨0#1, 0x05#6, g, d, a, b, 1#3⟩
  | .bfen g d a b => some ⟨0#1, 0x05#6, g, d, a, b, 2#3⟩
  | .bfi g d a b => some ⟨0#1, 0x05#6, g, d, a, b, 3#3⟩
  | .iaddi g d a i => some ⟨0#1, 0x06#6, g, d, a, i.extractLsb' 3 6, i.extractLsb' 0 3⟩
  | .imuli g d a i => some ⟨0#1, 0x07#6, g, d, a, i.extractLsb' 3 6, i.extractLsb' 0 3⟩
  | .andi g d a i => some ⟨0#1, 0x08#6, g, d, a, i.extractLsb' 3 6, i.extractLsb' 0 3⟩
  | .ori g d a i => some ⟨0#1, 0x09#6, g, d, a, i.extractLsb' 3 6, i.extractLsb' 0 3⟩
  | .xori g d a i => some ⟨0#1, 0x0A#6, g, d, a, i.extractLsb' 3 6, i.extractLsb' 0 3⟩
  | .shli g d a n => some ⟨0#1, 0x0B#6, g, d, a, 0#4 ++ n.extractLsb' 3 2, n.extractLsb' 0 3⟩
  | .shri g d a n => some ⟨0#1, 0x0B#6, g, d, a, 2#4 ++ n.extractLsb' 3 2, n.extractLsb' 0 3⟩
  | .shrai g d a n => some ⟨0#1, 0x0B#6, g, d, a, 4#4 ++ n.extractLsb' 3 2, n.extractLsb' 0 3⟩
  | .rotli g d a n => some ⟨0#1, 0x0B#6, g, d, a, 6#4 ++ n.extractLsb' 3 2, n.extractLsb' 0 3⟩
  | .movi g d i => some ⟨0#1, 0x0C#6, g, d, i.extractLsb' 9 6, i.extractLsb' 3 6, i.extractLsb' 0 3⟩
  | .mov g d a => some ⟨0#1, 0x0D#6, g, d, a, 0#6, 0#3⟩
  | .movs g d a => some ⟨0#1, 0x0D#6, g, d, a, 0#6, 1#3⟩
  | .movp g d => some ⟨0#1, 0x0D#6, g, d, 0#6, 0#6, 2#3⟩
  | .pmov g a b => some ⟨0#1, 0x0D#6, g, 0#6, a, b, 3#3⟩
  | .lsr g d b => some ⟨0#1, 0x0D#6, g, d, 0#6, b, 4#3⟩
  | .iset g c p a b f => some ⟨0#1, 0x0E#6, g, c ++ p, a, b, f⟩
  | .pand g d a b => some ⟨0#1, 0x0F#6, g, 0#2 ++ d, 0#2 ++ a, 0#2 ++ b, 0#3⟩
  | .por g d a b => some ⟨0#1, 0x0F#6, g, 0#2 ++ d, 0#2 ++ a, 0#2 ++ b, 1#3⟩
  | .pxor g d a b => some ⟨0#1, 0x0F#6, g, 0#2 ++ d, 0#2 ++ a, 0#2 ++ b, 2#3⟩
  | .pandn g d a b => some ⟨0#1, 0x0F#6, g, 0#2 ++ d, 0#2 ++ a, 0#2 ++ b, 3#3⟩
  | .pnot g d a => some ⟨0#1, 0x0F#6, g, 0#2 ++ d, 0#2 ++ a, 0#6, 4#3⟩
  | .pset g d => some ⟨0#1, 0x0F#6, g, 0#2 ++ d, 0#6, 0#6, 5#3⟩
  | .pclr g d => some ⟨0#1, 0x0F#6, g, 0#2 ++ d, 0#6, 0#6, 6#3⟩
  | .fadd g d a b => some ⟨0#1, 0x10#6, g, d, a, b, 0#3⟩
  | .fsub g d a b => some ⟨0#1, 0x10#6, g, d, a, b, 1#3⟩
  | .fmul g d a b => some ⟨0#1, 0x10#6, g, d, a, b, 2#3⟩
  | .ffma g d a b => some ⟨0#1, 0x10#6, g, d, a, b, 3#3⟩
  | .fmin g d a b => some ⟨0#1, 0x10#6, g, d, a, b, 4#3⟩
  | .fmax g d a b => some ⟨0#1, 0x10#6, g, d, a, b, 5#3⟩
  | .faddmn g d a b => some ⟨0#1, 0x10#6, g, d, a, b, 6#3⟩
  | .fnfma g d a b => some ⟨0#1, 0x10#6, g, d, a, b, 7#3⟩
  | .fset g c p a b f => some ⟨0#1, 0x11#6, g, c ++ p, a, b, f⟩
  | .hpadd g d a b => some ⟨0#1, 0x12#6, g, d, a, b, 0#3⟩
  | .hpsub g d a b => some ⟨0#1, 0x12#6, g, d, a, b, 1#3⟩
  | .hpmul g d a b => some ⟨0#1, 0x12#6, g, d, a, b, 2#3⟩
  | .hpfma g d a b => some ⟨0#1, 0x12#6, g, d, a, b, 3#3⟩
  | .hpmin g d a b => some ⟨0#1, 0x12#6, g, d, a, b, 4#3⟩
  | .hpmax g d a b => some ⟨0#1, 0x12#6, g, d, a, b, 5#3⟩
  | .frcp g d a => some ⟨0#1, 0x13#6, g, d, a, 0#6, 0#3⟩
  | .frsq g d a => some ⟨0#1, 0x13#6, g, d, a, 0#6, 1#3⟩
  | .fsqrt g d a => some ⟨0#1, 0x13#6, g, d, a, 0#6, 2#3⟩
  | .fex2 g d a => some ⟨0#1, 0x13#6, g, d, a, 0#6, 3#3⟩
  | .flg2 g d a => some ⟨0#1, 0x13#6, g, d, a, 0#6, 4#3⟩
  | .fsin g d a => some ⟨0#1, 0x13#6, g, d, a, 0#6, 5#3⟩
  | .fcos g d a => some ⟨0#1, 0x13#6, g, d, a, 0#6, 6#3⟩
  | .ftanh g d a => some ⟨0#1, 0x13#6, g, d, a, 0#6, 7#3⟩
  | .cvt g d a u v r => some ⟨0#1, 0x14#6, g, d, a, u ++ v, r⟩
  | .pkh g d a b => some ⟨0#1, 0x15#6, g, d, a, b, 0#3⟩
  | .upkl g d a => some ⟨0#1, 0x15#6, g, d, a, 0#6, 1#3⟩
  | .upkh g d a => some ⟨0#1, 0x15#6, g, d, a, 0#6, 2#3⟩
  | .pkb g d a b => some ⟨0#1, 0x15#6, g, d, a, b, 3#3⟩
  | .upkb g d a b => some ⟨0#1, 0x15#6, g, d, a, b, 4#3⟩
  | .pkn g d a b => some ⟨0#1, 0x15#6, g, d, a, b, 5#3⟩
  | .upkn g d a b => some ⟨0#1, 0x15#6, g, d, a, b, 6#3⟩
  | .lpermAbs g d a b => some ⟨0#1, 0x16#6, g, d, a, b, 0#3⟩
  | .lpermBack g d a b => some ⟨0#1, 0x16#6, g, d, a, b, 1#3⟩
  | .lpermFwd g d a b => some ⟨0#1, 0x16#6, g, d, a, b, 2#3⟩
  | .lpermFlip g d a b => some ⟨0#1, 0x16#6, g, d, a, b, 3#3⟩
  | .lany g d a => some ⟨0#1, 0x17#6, g, d, a, 0#6, 0#3⟩
  | .lall g d a => some ⟨0#1, 0x17#6, g, d, a, 0#6, 1#3⟩
  | .lmask g d a => some ⟨0#1, 0x17#6, g, d, a, 0#6, 2#3⟩
  | .lsame g d a => some ⟨0#1, 0x17#6, g, d, a, 0#6, 3#3⟩
  | .rdxadd g d a => some ⟨0#1, 0x18#6, g, d, a, 0#6, 0#3⟩
  | .rdxmin g d a => some ⟨0#1, 0x18#6, g, d, a, 0#6, 1#3⟩
  | .rdxmax g d a => some ⟨0#1, 0x18#6, g, d, a, 0#6, 2#3⟩
  | .scanadd g d a => some ⟨0#1, 0x18#6, g, d, a, 0#6, 3#3⟩
  | .scanaddx g d a => some ⟨0#1, 0x18#6, g, d, a, 0#6, 4#3⟩
  | .rank g d a => some ⟨0#1, 0x18#6, g, d, a, 0#6, 5#3⟩
  | .count g d a b => some ⟨0#1, 0x18#6, g, d, a, b, 6#3⟩
  | .frdxadd g d a => some ⟨0#1, 0x18#6, g, d, a, 0#6, 7#3⟩
  | .ld g t a b z m => some ⟨0#1, 0x19#6, g, t, a, b ++ z, m⟩
  | .st g t a b z m => some ⟨0#1, 0x1A#6, g, t, a, b ++ z, m⟩
  | .lds g t a z m => some ⟨0#1, 0x1B#6, g, t, a, 0#3 ++ z, m⟩
  | .sts g t a z m => some ⟨0#1, 0x1B#6, g, t, a, 4#3 ++ z, m⟩
  | .atom g t a b o u => some ⟨0#1, 0x1C#6, g, t, a, b ++ o, u⟩
  | .red g t a b o u => some ⟨0#1, 0x1D#6, g, t, a, b ++ o, u⟩
  | .satom g t a o u => some ⟨0#1, 0x1E#6, g, t, a, 0#3 ++ o, u⟩
  | .objcall g d a h m => some ⟨0#1, 0x1F#6, g, d, a, h, m⟩
  | .bra g o => some ⟨0#1, 0x20#6, g, o.extractLsb' 15 6, o.extractLsb' 9 6, o.extractLsb' 3 6, o.extractLsb' 0 3⟩
  | .brau g o => some ⟨0#1, 0x21#6, g, o.extractLsb' 15 6, o.extractLsb' 9 6, o.extractLsb' 3 6, o.extractLsb' 0 3⟩
  | .joinat g o => some ⟨0#1, 0x22#6, g, o.extractLsb' 15 6, o.extractLsb' 9 6, o.extractLsb' 3 6, o.extractLsb' 0 3⟩
  | .call g o => some ⟨0#1, 0x23#6, g, o.extractLsb' 15 6, o.extractLsb' 9 6, o.extractLsb' 3 6, o.extractLsb' 0 3⟩
  | .callr g a => some ⟨0#1, 0x24#6, g, 0#6, a, 0#6, 0#3⟩
  | .callrU a => some ⟨0#1, 0x24#6, 13#4, 0#6, a, 0#6, 0#3⟩
  | .ret g => some ⟨0#1, 0x25#6, g, 0#6, 0#6, 0#6, 0#3⟩
  | .frame n => some ⟨0#1, 0x26#6, 0#4, 0#6, 0#6, 0#6, n⟩
  | .exit g => some ⟨0#1, 0x27#6, g, 0#6, 0#6, 0#6, 0#3⟩
  | .bsync g n => some ⟨0#1, 0x28#6, g, 0#6, 0#6, 0#2 ++ n.extractLsb' 3 4, n.extractLsb' 0 3⟩
  | .barv g n => some ⟨0#1, 0x28#6, g, 0#6, 0#6, 1#2 ++ n.extractLsb' 3 4, n.extractLsb' 0 3⟩
  | .bwait g n => some ⟨0#1, 0x28#6, g, 0#6, 0#6, 2#2 ++ n.extractLsb' 3 4, n.extractLsb' 0 3⟩
  | .xld g d i k => some ⟨0#1, 0x29#6, g, d, i ++ 0#1 ++ k.extractLsb' 9 3, k.extractLsb' 3 6, k.extractLsb' 0 3⟩
  | .xst g d i k => some ⟨0#1, 0x29#6, g, d, i ++ 1#1 ++ k.extractLsb' 9 3, k.extractLsb' 3 6, k.extractLsb' 0 3⟩
  | .trap g n => some ⟨0#1, 0x2A#6, g, 0#6, 0#6, 0#1 ++ n.extractLsb' 3 5, n.extractLsb' 0 3⟩
  | .bkpt g c => some ⟨0#1, 0x2B#6, g, 0#6, c.extractLsb' 9 6, c.extractLsb' 3 6, c.extractLsb' 0 3⟩
  | .objret g a => some ⟨0#1, 0x2C#6, g, 0#6, a, 0#6, 0#3⟩
  | .objretErr g a => some ⟨0#1, 0x2C#6, g, 0#6, a, 0#6, 1#3⟩
  | .extImmediate i => some ⟨0#1, 0x3F#6, 0#1 ++ i.extractLsb' 21 3, i.extractLsb' 15 6, i.extractLsb' 9 6, i.extractLsb' 3 6, i.extractLsb' 0 3⟩
  | .extOperand c s w n f m => some ⟨0#1, 0x3F#6, 1#1 ++ c.extractLsb' 3 3, c.extractLsb' 0 3 ++ s, w ++ n ++ f ++ m.extractLsb' 9 3, m.extractLsb' 3 6, m.extractLsb' 0 3⟩
  | .sadd g d a b => some ⟨1#1, 0x01#6, g, d, a, b, 0#3⟩
  | .ssub g d a b => some ⟨1#1, 0x01#6, g, d, a, b, 1#3⟩
  | .smin g d a b => some ⟨1#1, 0x01#6, g, d, a, b, 2#3⟩
  | .smax g d a b => some ⟨1#1, 0x01#6, g, d, a, b, 3#3⟩
  | .sminn g d a b => some ⟨1#1, 0x01#6, g, d, a, b, 4#3⟩
  | .smaxn g d a b => some ⟨1#1, 0x01#6, g, d, a, b, 5#3⟩
  | .smul g d a b => some ⟨1#1, 0x01#6, g, d, a, b, 6#3⟩
  | .smulh g d a b => some ⟨1#1, 0x01#6, g, d, a, b, 7#3⟩
  | .sand g d a b => some ⟨1#1, 0x02#6, g, d, a, b, 0#3⟩
  | .sor g d a b => some ⟨1#1, 0x02#6, g, d, a, b, 1#3⟩
  | .sxor g d a b => some ⟨1#1, 0x02#6, g, d, a, b, 2#3⟩
  | .sandn g d a b => some ⟨1#1, 0x02#6, g, d, a, b, 3#3⟩
  | .sshl g d a b => some ⟨1#1, 0x02#6, g, d, a, b, 4#3⟩
  | .sshr g d a b => some ⟨1#1, 0x02#6, g, d, a, b, 5#3⟩
  | .sshra g d a b => some ⟨1#1, 0x02#6, g, d, a, b, 6#3⟩
  | .spopc g d a => some ⟨1#1, 0x02#6, g, d, a, 0#6, 7#3⟩
  | .saddi g d a i => some ⟨1#1, 0x03#6, g, d, a, i.extractLsb' 3 6, i.extractLsb' 0 3⟩
  | .smovi g d i => some ⟨1#1, 0x04#6, g, d, i.extractLsb' 9 6, i.extractLsb' 3 6, i.extractLsb' 0 3⟩
  | .smov g d a => some ⟨1#1, 0x05#6, g, d, a, 0#6, 0#3⟩
  | .smov64 g d a => some ⟨1#1, 0x05#6, g, d, a, 0#6, 1#3⟩
  | .srd g d r => some ⟨1#1, 0x05#6, g, d, r.extractLsb' 6 6, r.extractLsb' 0 6, 2#3⟩
  | .swr g d r => some ⟨1#1, 0x05#6, g, d, r.extractLsb' 6 6, r.extractLsb' 0 6, 3#3⟩
  | .slane g d a b => some ⟨1#1, 0x05#6, g, d, a, b, 4#3⟩
  | .sset g c p a b f => some ⟨1#1, 0x06#6, g, c ++ p, a, b, f⟩
  | .qand g d a b => some ⟨1#1, 0x07#6, g, 0#2 ++ d, 0#2 ++ a, 0#2 ++ b, 0#3⟩
  | .qor g d a b => some ⟨1#1, 0x07#6, g, 0#2 ++ d, 0#2 ++ a, 0#2 ++ b, 1#3⟩
  | .qxor g d a b => some ⟨1#1, 0x07#6, g, 0#2 ++ d, 0#2 ++ a, 0#2 ++ b, 2#3⟩
  | .qandn g d a b => some ⟨1#1, 0x07#6, g, 0#2 ++ d, 0#2 ++ a, 0#2 ++ b, 3#3⟩
  | .qnot g d a => some ⟨1#1, 0x07#6, g, 0#2 ++ d, 0#2 ++ a, 0#6, 4#3⟩
  | .qset g d => some ⟨1#1, 0x07#6, g, 0#2 ++ d, 0#6, 0#6, 5#3⟩
  | .qclr g d => some ⟨1#1, 0x07#6, g, 0#2 ++ d, 0#6, 0#6, 6#3⟩
  | .sbra g o => some ⟨1#1, 0x08#6, g, o.extractLsb' 15 6, o.extractLsb' 9 6, o.extractLsb' 3 6, o.extractLsb' 0 3⟩
  | .jseg g o => some ⟨1#1, 0x09#6, g, o.extractLsb' 15 6, o.extractLsb' 9 6, o.extractLsb' 3 6, o.extractLsb' 0 3⟩
  | .sld g t a b z m => some ⟨1#1, 0x0A#6, g, t, a, b ++ z, m⟩
  | .sst g t a b z m => some ⟨1#1, 0x0B#6, g, t, a, b ++ z, m⟩
  | .tbset g n a b => some ⟨1#1, 0x0C#6, g, 0#3 ++ n, a, b, 0#3⟩
  | .fence g s k y => some ⟨1#1, 0x0D#6, g, s ++ k ++ y, 0#6, 0#6, 0#3⟩
  | .fmtset g i => some ⟨1#1, 0x0E#6, g, 0#6, i.extractLsb' 9 6, i.extractLsb' 3 6, i.extractLsb' 0 3⟩
  | .setix g i a => some ⟨1#1, 0x0F#6, g, 0#4 ++ i, a, 0#6, 0#3⟩
  | .addix g i a => some ⟨1#1, 0x0F#6, g, 0#4 ++ i, a, 0#6, 1#3⟩
  | .barinit g n u b => some ⟨1#1, 0x10#6, g, n.extractLsb' 1 6, n.extractLsb' 0 1 ++ u ++ 0#4, b, 0#3⟩
  | .cpG2s g d a => some ⟨1#1, 0x11#6, g, d, a, 0#6, 0#3⟩
  | .cpS2g g d a => some ⟨1#1, 0x11#6, g, d, a, 0#6, 1#3⟩
  | .cpG2g g d a => some ⟨1#1, 0x11#6, g, d, a, 0#6, 2#3⟩
  | .cpGath g d a => some ⟨1#1, 0x11#6, g, d, a, 0#6, 3#3⟩
  | .cpReg g d a => some ⟨1#1, 0x11#6, g, d, a, 0#6, 4#3⟩
  | .cpAcc g d a => some ⟨1#1, 0x11#6, g, d, a, 0#6, 5#3⟩
  | .cpMma g d a => some ⟨1#1, 0x11#6, g, d, a, 0#6, 6#3⟩
  | .bfc g d => some ⟨1#1, 0x12#6, g, d, 0#6, 0#6, 0#3⟩
  | .bfm g d => some ⟨1#1, 0x12#6, g, d, 0#6, 0#6, 1#3⟩
  | .waitc g a => some ⟨1#1, 0x13#6, g, 0#6, a, 0#6, 0#3⟩
  | .waitm g a => some ⟨1#1, 0x13#6, g, 0#6, a, 0#6, 1#3⟩
  | .mma g d a => some ⟨1#1, 0x14#6, g, d, a, 0#6, 0#3⟩
  | .mmag g d a b => some ⟨1#1, 0x14#6, g, d, a, b, 1#3⟩
  | .mmaf g => some ⟨1#1, 0x14#6, g, 0#6, 0#6, 0#6, 2#3⟩
  | .accz g t n => some ⟨1#1, 0x14#6, g, 0#6, 0#2 ++ t, 0#2 ++ n, 3#3⟩
  | .accrd g d t c => some ⟨1#1, 0x14#6, g, d, 0#2 ++ t, 0#3 ++ c, 4#3⟩
  | .accrs g t a => some ⟨1#1, 0x14#6, g, 0#2 ++ t, a, 0#6, 5#3⟩
  | .mmv g d a => some ⟨1#1, 0x14#6, g, d, a, 0#6, 6#3⟩
  | .cfetch g a => some ⟨1#1, 0x15#6, g, 0#6, a, 0#6, 0#3⟩
  | .cinv g s a => some ⟨1#1, 0x15#6, g, s ++ 0#3, a, 0#6, 1#3⟩
  | .objdef g d a => some ⟨1#1, 0x16#6, g, d, a, 0#6, 0#3⟩
  | .objdel g a => some ⟨1#1, 0x16#6, g, 0#6, a, 0#6, 1#3⟩
  | .objend g => some ⟨1#1, 0x16#6, g, 0#6, 0#6, 0#6, 2#3⟩
  | .launch g d a => some ⟨1#1, 0x17#6, g, d, a, 0#6, 0#3⟩
  | .cntinc g d a l => some ⟨1#1, 0x17#6, g, d, a, 0#4 ++ l, 1#3⟩
  | .cntwait g a l => some ⟨1#1, 0x17#6, g, 0#6, a, 0#4 ++ l, 2#3⟩
  | .cancel g a l => some ⟨1#1, 0x17#6, g, 0#6, a, 0#4 ++ l, 3#3⟩
  | .cntrd g d a l => some ⟨1#1, 0x17#6, g, d, a, 0#4 ++ l, 4#3⟩
  | .credSum g d a => some ⟨1#1, 0x18#6, g, d, a, 0#6, 0#3⟩
  | .credMax g d a => some ⟨1#1, 0x18#6, g, d, a, 0#6, 1#3⟩
  | .credMin g d a => some ⟨1#1, 0x18#6, g, d, a, 0#6, 2#3⟩
  | .syscall g i => some ⟨1#1, 0x19#6, g, 0#6, i.extractLsb' 9 6, i.extractLsb' 3 6, i.extractLsb' 0 3⟩
  | .walknext g d a => some ⟨1#1, 0x1A#6, g, d, a, 0#6, 0#3⟩
  | .tlbfill g a b => some ⟨1#1, 0x1A#6, g, 0#6, a, b, 1#3⟩
  | .tlbdone g a b => some ⟨1#1, 0x1A#6, g, 0#6, a, b, 2#3⟩
  | .tlbinv g a b => some ⟨1#1, 0x1A#6, g, 0#6, a, b, 3#3⟩
  | .atsreq g a b => some ⟨1#1, 0x1A#6, g, 0#6, a, b, 4#3⟩
  | .prireq g a => some ⟨1#1, 0x1A#6, g, 0#6, a, 0#6, 5#3⟩
  | .rft g => some ⟨1#1, 0x1B#6, g, 0#6, 0#6, 0#6, 0#3⟩
  | .tkill g => some ⟨1#1, 0x1B#6, g, 0#6, 0#6, 0#6, 1#3⟩
  | .tend g => some ⟨1#1, 0x1B#6, g, 0#6, 0#6, 0#6, 2#3⟩
  | .yield g => some ⟨1#1, 0x1C#6, g, 0#6, 0#6, 0#6, 0#3⟩
  | .jsegr g a => some ⟨1#1, 0x1D#6, g, 0#6, a, 0#6, 0#3⟩
  | .loadSectorReturn .. => none
  | .storePerform .. => none
  | .atomicPerform .. => none
  | .quantumRedFlush .. => none
  | .invalidationCompletion .. => none
  | .fragmentResume .. => none
  | .handlerEntryResume .. => none
  | .demandSpillDone .. => none
  | .commandAccept .. => none
  | .copyComplete .. => none
  | .matrixOperation .. => none
  | .jointMmaStart .. => none
  | .mmagEntry .. => none
  | .cpMmaHandoff .. => none
  | .mmvComplete .. => none
  | .overlayFetchComplete .. => none
  | .entrySegmentFetch .. => none
  | .objcallSend .. => none
  | .objectRequestArrival .. => none
  | .conjugatorBatchStart .. => none
  | .methodFaultRerun .. => none
  | .objectReplyArrival .. => none
  | .objdelAtHome .. => none
  | .recordValidation .. => none
  | .launchRecordRead .. => none
  | .launchFire .. => none
  | .unitPlacement .. => none
  | .groupEnd .. => none
  | .launchComplete .. => none
  | .credContributionArrival .. => none
  | .exmWrite .. => none
  | .unifstkClear .. => none
  | .ecntLowRead .. => none
  | .streamPromotion .. => none
  | .atsCompletion .. => none
  | .priResponse .. => none
  | .atsInvalidationRequest .. => none
  | .pageFaultRepair .. => none
  | .pageMigration .. => none
  | .backgroundSpill .. => none
  | .backgroundRefill .. => none
  | .copyPageFault .. => none
  | .copyResume .. => none
  | .cinvDeferredDrop .. => none
  | .objectBatchWatchdog .. => none
  | .doorbellDmwr .. => none
  | .doorbellPostedWrite .. => none
  | .stealMessage .. => none
  | .syscallReply .. => none
  | .peerAccess .. => none
  | .linkFlitFailure .. => none
  | .preemptRequest .. => none
  | .unitRestart .. => none
  | .contextSwitch .. => none
  | .cancelTimeout .. => none
  | .preciseStop .. => none
  | .singleStep .. => none
  | .traceDrain .. => none
  | .gateDrainTimeout .. => none
  | .clusterIdleGate .. => none
  | .clusterWake .. => none
  | .powerMeasurement .. => none
  | .coldStart .. => none
  | .warmStart .. => none
  | .attestationRequest .. => none
  | .leaderTakeover .. => none
  | .lockstepMismatch .. => none
  | .uncorrectableError .. => none
  | .patrolScrub .. => none
  | .watchdogExpiry .. => none
  | .contextTeardown .. => none
  | .codeObjectLoad .. => none
  | .retranslationInstall .. => none
  | .tileCommandComplete .. => none
  | .counterSnapshotRequest .. => none
  | .confidentialContextRequest .. => none
  | .nop => some ⟨0#1, 0x00#6, 0#4, 0#6, 0#6, 0#6, 0#3⟩
  | .hint => some ⟨0#1, 0x38#6, 0#4, 0#6, 0#6, 0#6, 0#3⟩
  | .snop => some ⟨1#1, 0x00#6, 0#4, 0#6, 0#6, 0#6, 0#3⟩
  | .clockLowRead => none
  | .clauseFetch => none
  | .migrationWindowEnd => none
  | .thermalForcedGate => none
  | .thermalShutdown => none
  | .heartbeatWrite => none

/-- The word of an instruction; none for an event. -/
def encode (i : Instr) : Option Word := (encodeFields i).map Fields.join

/-- The major opcodes MMU and TRET, which only privileged code may run (R54, R55). -/
def privilegedWord (w : Word) : Bool :=
  (Fields.split w).s == 1#1 && ((Fields.split w).maj == 0x1A#6 || (Fields.split w).maj == 0x1B#6)

/-- The bytes of a word as memory holds them, the lowest address first (R4). -/
def bytesOfWord (w : Word) : List Byte :=
  [w.extractLsb' 0 8, w.extractLsb' 8 8, w.extractLsb' 16 8, w.extractLsb' 24 8]

/-- The instruction that the decoder reads from the bits w of an opcode-table row. Every word instruction is one 32-bit word, and rows without bits have none. -/
def decodeTableWord (nbits w : Nat) : Option Instr :=
  if nbits = 0 then none
  else match decodeBytes (bytesOfWord (BitVec.ofNat 32 w)) with
    | .ok (i, _) => some i
    | .error _ => none

end Sys2Proof
end

