-- ==== Sys2Proof/Machine/Umell.lean ====
section
/-!
DEFINITION. Umell: the layout of a module (R345), what a body may hold (R346), and its translation to Psium (R347, R348; log entry 79).
-/
namespace Sys2Proof.Machine

/-- A little-endian word of an image. -/
def imgWord (img : List Byte) (off : Nat) : Nat := gatherLE (fun i => img.getD (off + i) 0) 4

/-- A region of a module: the words of its body, its maximum call depth, whether it uses cross-thread operations, whether it holds unordered float accumulations (R345). -/
structure Region where
  words : List Word
  depth : Nat
  cross : Bool
  unordered : Bool
deriving DecidableEq, Repr

/-- An entry of a module: its name, its regions, the largest thread count that it accepts (R345). -/
structure UmellEntry where
  name : Nat
  first : Nat
  count : Nat
  threads : Nat
deriving DecidableEq, Repr

/-- The words of a Umell body. -/
def bodyWords (img : List Byte) (off len : Nat) : List Word := (List.range len).map (fun i => BitVec.ofNat 32 (imgWord img (off + 4 * i)))

/-- S and MAJ of a word. -/
def setOf (w : Word) : Bool := w.getLsbD 31
def majOf (w : Word) : Nat := (w.extractLsb' 25 6).toNat

/-- A word that a Umell body may hold (R346). cross: flag [0] of its region. tb7 belongs to the translator; a lane value written to a scalar register is refused, and SRD, which writes one from a special register, is taken as R346's list of words has it (log entry 58). -/
def umellWord (cross : Bool) (w : Word) : Bool :=
  let m := majOf w
  let ok := if m = 0x3F then true
    else if setOf w then decide (m ≤ 0x08) || (decide (0x0A ≤ m) && decide (m ≤ 0x0F))
    else decide (m ≤ 0x15) || (cross && decide (m ≤ 0x18)) || (decide (0x19 ≤ m) && decide (m ≤ 0x1E)) || m == 0x20 || m == 0x22 || m == 0x23 ||
      (decide (0x25 ≤ m) && decide (m ≤ 0x27))
  ok && (match decode w with
    | .ok (.ld _ _ _ b _ _) | .ok (.st _ _ _ b _ _) | .ok (.atom _ _ _ b _ _) | .ok (.red _ _ _ b _ _) | .ok (.sld _ _ _ b _ _)
    | .ok (.sst _ _ _ b _ _) | .ok (.tbset _ b _ _) => b != 7
    | .ok (.slane _ _ _ _) => false
    | _ => true)

/-- The words of a body that are the second of an EXT pair. -/
def pairSeconds (prev : Bool) (ws : List Word) : List Bool :=
  match ws with
  | [] => []
  | w :: r => prev :: pairSeconds (!prev && majOf w == 0x3F) r

/-- The target of the transfer at index i of a body, as an index (R50, R346). -/
def umellTarget (ws : List Word) (i : Nat) : Option Int :=
  let w := ws.getD i 0
  let m := majOf w
  let jumps := if setOf w then m == 0x08 else m == 0x20 || m == 0x22 || m == 0x23
  let prefixed := (pairSeconds false ws).getD i false && !(ws.getD (i - 1) 0).getLsbD 24
  if !jumps then none
  else if prefixed then some (i + (((ws.getD (i - 1) 0).extractLsb' 0 11) ++ (w.extractLsb' 0 21)).toInt)
  else some (i + (w.extractLsb' 0 21).toInt)

/-- A Umell body keeps R346. -/
def bodyOk (cross : Bool) (ws : List Word) : Bool :=
  let second := pairSeconds false ws
  ws.all (umellWord cross) && (List.range ws.length).all (fun i =>
    match umellTarget ws i with
    | none => true
    | some t => decide (0 ≤ t) && decide (t < ws.length) && !second.getD t.toNat false)

/-- A region read. -/
def regionAt (m : List Byte) (i : Nat) : Region :=
  let e := imgWord m 12 + 16 * i
  { words := bodyWords m (imgWord m e) (imgWord m (e + 4)), depth := imgWord m (e + 8) % 2 ^ 16,
    cross := (imgWord m (e + 12)).testBit 0, unordered := (imgWord m (e + 12)).testBit 1 }

/-- An entry read. -/
def entryAt (m : List Byte) (i : Nat) : UmellEntry :=
  let e := imgWord m 16 + 16 * i
  { name := imgWord m e, first := imgWord m (e + 4), count := imgWord m (e + 8), threads := imgWord m (e + 12) % 2 ^ 16 }

/-- The entries of a module, and the regions of one of them. -/
def entriesOf (m : List Byte) : List UmellEntry := (List.range (imgWord m 8)).map (entryAt m)
def UmellEntry.regions (e : UmellEntry) (m : List Byte) : List Region := (List.range e.count).map (fun i => regionAt m (e.first + i))

/-- A module keeps its layout (R345) and R346; strLen: the length of the object's string table. -/
def moduleOk (m : List Byte) (strLen : Nat) : Bool :=
  let nreg := imgWord m 4
  let regs := imgWord m 12
  let ents := imgWord m 16
  decide (32 ≤ m.length) && imgWord m 0 == 0x4C4D4D55 && decide (regs + 16 * nreg ≤ m.length) &&
    decide (ents + 16 * imgWord m 8 ≤ m.length) &&
    (List.range nreg).all (fun i =>
      let o := imgWord m (regs + 16 * i)
      let len := imgWord m (regs + 16 * i + 4)
      o % 4 == 0 && decide (1 ≤ len) && decide (len ≤ 65536) && decide (o + 4 * len ≤ m.length) &&
        bodyOk (regionAt m i).cross (regionAt m i).words) &&
    (entriesOf m).all (fun e => decide (e.name < strLen) && decide (e.first + e.count ≤ nreg) && decide (1 ≤ e.threads) &&
      decide (e.threads ≤ 32768))

/-- A lane word that transfers some of the threads, or ends them (R346). -/
def parts (w : Word) : Bool := !setOf w && (majOf w == 0x20 || majOf w == 0x22 || majOf w == 0x23 || majOf w == 0x25 || majOf w == 0x27)

/-- Whether a body reaches its uniform words with its threads together: none transfers apart, or every uniform word stands before the first word that does, and no transfer leads back among them. -/
def together (ws : List Word) : Bool :=
  let first := (ws.takeWhile (fun w => !parts w)).length
  first == ws.length ||
    ((ws.drop first).all (fun w => !setOf w || majOf w == 0x3F) &&
      (List.range (ws.length - first)).all (fun i => match umellTarget ws (first + i) with
        | some t => decide ((first : Int) ≤ t)
        | none => true))

/-- Whether the words of a region are its threads' code as they stand: nothing of the scalar state is reached by some of the threads alone, and the words that cross threads find them all in one group, as in an entry of at most 32 threads (R346). -/
def Region.plain (r : Region) (threads : Nat) : Bool :=
  (decide (threads ≤ 32) || r.words.all (fun w => setOf w || !(decide (0x16 ≤ majOf w) && decide (majOf w ≤ 0x18)))) && together r.words

/-- The clauses of a body: the index of a clause's first word and its one word, or its EXT pair. -/
def bodyClauses (i : Nat) (ws : List Word) : List (Nat × List Word) :=
  match ws with
  | [] => []
  | [w] => [(i, [w])]
  | w :: v :: r => if majOf w = 0x3F then (i, [w, v]) :: bodyClauses (i + 2) r else (i, [w]) :: bodyClauses (i + 1) (v :: r)

/-- A clause that waits for nothing and sets no flag (R44). -/
def plainClause (ws : List Word) : List Word := BitVec.ofNat 32 (ws.length * 2 ^ 28 + 0xFF00) :: ws

/-- The place, in words from the first clause's header, of the clause that holds the word at an index of the body. -/
def clauseAt (cs : List (Nat × List Word)) (i : Nat) : Nat := ((cs.filter (fun c => decide (c.1 < i))).map (fun c => 1 + c.2.length)).sum

/-- The clause of a body with its transfer, if it holds one, led to the target's clause (R48, R50). -/
def retargeted (ws : List Word) (cs : List (Nat × List Word)) (c : Nat × List Word) : List Word :=
  match umellTarget ws (c.1 + c.2.length - 1) with
  | none => c.2
  | some t =>
    let off : Word := BitVec.ofInt 32 ((clauseAt cs t.toNat : Int) - (clauseAt cs c.1 + c.2.length))
    let last : Word → Word := fun w => (w &&& 0xFFE00000) ||| (off &&& 0x1FFFFF)
    match c.2 with
    | [x, w] => if x.getLsbD 24 then [x, last w] else [(x &&& 0xFF000000) ||| (off >>> 21), last w]
    | [w] => [last w]
    | _ => c.2

/-- The code of a region: its words, one clause each (plain regions), or what the translator makes of it (R347). -/
def Region.code (r : Region) (threads : Nat) : List Word :=
  if r.plain threads then
    let cs := bodyClauses 0 r.words
    cs.flatMap (fun c => plainClause (retargeted r.words cs c))
  else Config.umellRegion r.words r.depth r.unordered

/-- The clause of one instruction of the translator's own. -/
def clauseOf (i : Instr) : List Word := plainClause ((encode i).getD 0 :: [])

/-- The template's code for an entry: the regions, each joined at its end, with BSYNC 0 between them, then EXIT (R347). Barrier 0 counts a core's lanes by BARINIT.AUTO from the unit's start (log entry 79). -/
def templateCode (rs : List Region) (threads : Nat) : List Word :=
  (List.range rs.length).flatMap (fun i =>
    let code := ((rs[i]?).map (·.code threads)).getD []
    (if i = 0 then [] else clauseOf (.bsync 0 0)) ++ clauseOf (.joinat 0 (BitVec.ofNat 21 (code.length + 1))) ++ code) ++
  clauseOf (.exit 0)

/-- Words as the bytes of a segment. -/
def bytesOfWords (ws : List Word) : List Byte := ws.flatMap (fun w => (List.range 4).map (byteOf w.toNat))

/-- The segments of the template translation of an entry: one where the code fits, else as the translator cuts it (R347, R348). -/
def UmellEntry.template (e : UmellEntry) (m : List Byte) : List (List Byte) :=
  let code := templateCode (e.regions m) e.threads
  if code.length ≤ 1024 then [bytesOfWords code] else (Config.umellCode m e.first e.count).map (fun g => bytesOfWords (g.take 1024))

/-- How many threads a mapping puts on a lane, where the region's flag [0] and T allow it, else 1 (R347). -/
def threadsPerLane (k : UmellMapping) (cross : Bool) (threads : Nat) : Nat :=
  match k with
  | .lanes => 1
  | .coarsened k => if cross then 1 else 2 ^ (k.toNat % 3 + 1)
  | .serial => if cross ∨ 64 < threads then 1 else threads

/-- What the retranslation of a template makes from its launches' counters and samples: how many threads a lane of its unit stands for, the least of its regions, since a lane idles in a region that packs more, and the segments (R347, R348). -/
def Template.retranslated (t : Template) : Nat × List (List Byte) :=
  let made := Config.umellRetranslate t.module t.index t.stalls t.samples
  let e := entryAt t.module t.index
  let each := (e.regions t.module).zipIdx.map (fun r => threadsPerLane (made.1.getD r.2 .lanes) r.1.cross e.threads)
  ((each.min?).getD 1, made.2.map (fun g => bytesOfWords (g.take 1024)))

end Sys2Proof.Machine
end

