-- ==== Sys2Proof/Machine/Loader.lean ====
section
/-!
DEFINITION. Code objects: the container (R338, R339), the loader's checks (R341, R342), relocations and placement (R339, R343), the template translations of its Umell module (R348), and the events CODE_OBJECT_LOAD and RETRANSLATION_INSTALL. Which addresses and frames the device OS gives an object comes from outside.
-/
namespace Sys2Proof.Machine

/-- A word of an image replaced. -/
def imgSet (img : List Byte) (off : Nat) (w : Word) : List Byte := (List.range 4).foldl (fun b i => b.set (off + i) (byteOf w.toNat i)) img

/-- The header of a code object (R338). -/
structure ObjHeader where
  hasUm : Bool
  patch : Bool
  nseg : Nat
  nbind : Nat
  nrel : Nat
  nsym : Nat
  segOff : Nat
  bindOff : Nat
  relOff : Nat
  symOff : Nat
  umOff : Nat
  umLen : Nat
  dataOff : Nat
  dataLen : Nat
  strOff : Nat
  strLen : Nat
  reqfeat : Nat
deriving DecidableEq, Repr

/-- The header read. -/
def ObjHeader.parse (img : List Byte) : ObjHeader :=
  let w : Nat → Nat := fun i => imgWord img (4 * i)
  { hasUm := (w 1).testBit 0, patch := (w 1).testBit 1, nseg := w 2, nbind := w 3, nrel := w 4, nsym := w 5, segOff := w 6,
    bindOff := w 7, relOff := w 8, symOff := w 9, umOff := w 10, umLen := w 11, dataOff := w 12, dataLen := w 13, strOff := w 14,
    strLen := w 15, reqfeat := gatherLE (fun i => img.getD (0x40 + i) 0) 64 }

/-- The file offset of a segment's image, and its name's offset. -/
def ObjHeader.seg (h : ObjHeader) (img : List Byte) (i : Nat) : Nat := imgWord img (h.segOff + 16 * i)
def ObjHeader.segName (h : ObjHeader) (img : List Byte) (i : Nat) : Nat := imgWord img (h.segOff + 16 * i + 4)

/-- The bytes of a name, up to its NUL. -/
def ObjHeader.name (h : ObjHeader) (img : List Byte) (off : Nat) : List Byte :=
  ((img.drop (h.strOff + off)).take (h.strLen - off)).takeWhile (· != 0)

/-- A symbol (R339). kind: 0 func, 1 data, 2 external. -/
structure ObjSym where
  name : List Byte
  kind : Nat
  global : Bool
  seg : Nat
  off : Nat
  unit : SymUnit
deriving DecidableEq, Repr

/-- A symbol read. -/
def ObjHeader.sym (h : ObjHeader) (img : List Byte) (i : Nat) : ObjSym :=
  let w : Nat → Nat := fun k => imgWord img (h.symOff + 32 * i + 4 * k)
  { name := h.name img (w 0), kind := w 1 % 4, global := (w 1).testBit 2, seg := w 2, off := w 3,
    unit := { widthc := w 4 % 8, ilpc := w 4 / 2 ^ 4 % 8, allotc := w 4 / 2 ^ 8 % 2 ^ 8, scratch := w 4 / 2 ^ 16 % 2 ^ 10, acc := w 4 / 2 ^ 26 % 2 ^ 5 } }

/-- A binding: feature bit and symbol. -/
def ObjHeader.binding (h : ObjHeader) (img : List Byte) (i : Nat) : Nat × Nat :=
  (imgWord img (h.bindOff + 8 * i) % 2 ^ 16, imgWord img (h.bindOff + 8 * i + 4))

/-- A relocation (R339). -/
structure ObjRel where
  seg : Nat
  word : Nat
  kind : Nat
  sym : Nat
  addend : Int
deriving DecidableEq, Repr

/-- A relocation read. -/
def ObjHeader.rel (h : ObjHeader) (img : List Byte) (i : Nat) : ObjRel :=
  let w : Nat → Nat := fun k => imgWord img (h.relOff + 16 * i + 4 * k)
  { seg := w 0, word := w 1, kind := w 2 % 16, sym := w 2 / 2 ^ 8, addend := (BitVec.ofNat 32 (w 3)).toInt }

/-- Every clause of a segment keeps R45: bs is what is left of it from an offset on. -/
def clausesOk (bs : List Byte) (fuel off : Nat) : Bool :=
  match fuel with
  | 0 => true
  | k + 1 =>
    if 4096 ≤ off then true
    else
      let n := hdrN (BitVec.ofNat 32 (imgWord bs 0))
      decide (off + 4 * n ≤ 0xFFC) && clausesOk (bs.drop (4 + 4 * n)) k (off + 4 + 4 * n)

/-- The address of a symbol in an object that lies at base (R339, R343); an external one is another object's global symbol. -/
def ObjSym.address (y : ObjSym) (c : Ctx) (base nseg : Nat) : Option Nat :=
  if y.kind = 2 then (c.symbols.find? (fun x => x.name == y.name)).map (·.address)
  else if y.seg = 0xFFFFFFFF then some (base + 4096 * nseg + y.off)
  else some (base + 4096 * y.seg + y.off)

/-- The word offset that a kind 0 relocation writes (R339). -/
def ObjRel.offset (r : ObjRel) (base s : Nat) : Int := ((s : Int) + r.addend - (base + 4096 * r.seg + 4 * r.word + 4 : Nat)) / 4

/-- The bits that an object requires and the part lacks (R342). -/
def ObjHeader.missing (h : ObjHeader) : List Nat := (List.range 512).filter (fun b => h.reqfeat.testBit b && !Config.feat0.toNat.testBit b)

/-- The bits whose absence a routine can stand in for (R342). -/
def emulable (b : Nat) : Bool := b == 2 || (decide (7 ≤ b) && decide (b ≤ 11))

/-- The code VA of a binding's routine. -/
def ObjHeader.routine (h : ObjHeader) (img : List Byte) (base : Nat) (b : Nat × Nat) : Nat :=
  base + 4096 * (h.sym img b.2).seg + (h.sym img b.2).off

/-- The bytes of an object's Umell module. -/
def ObjHeader.module (h : ObjHeader) (img : List Byte) : List Byte := (img.drop h.umOff).take h.umLen

/-- Every offset of the container is a multiple of 4, and every name stands in the string table (R339, log entry 80). -/
def ObjHeader.offsetsOk (h : ObjHeader) (img : List Byte) : Bool :=
  [h.segOff, h.bindOff, h.relOff, h.symOff, h.umOff, h.dataOff, h.strOff].all (fun o => o % 4 == 0) &&
    (List.range h.nsym).all (fun i => (h.sym img i).off % 4 == 0 && decide (imgWord img (h.symOff + 32 * i) < h.strLen)) &&
    (List.range h.nseg).all (fun i => decide (h.segName img i < h.strLen))

/-- The refusal code of an object, 0 where it is accepted (R341). -/
def ObjHeader.check (h : ObjHeader) (img : List Byte) (c : Ctx) (base : Nat) : Nat :=
  let fits : Nat → Nat → Bool := fun o n => decide (o + n ≤ img.length)
  let rels := (List.range h.nrel).map (h.rel img)
  let binds := (List.range h.nbind).map (h.binding img)
  let syms := (List.range h.nsym).map (h.sym img)
  if !(fits 0 0x80 && imgWord img 0 == 0x4A424F51 && imgWord img 4 / 4 == 0 && fits h.segOff (16 * h.nseg) && fits h.bindOff (8 * h.nbind) &&
      fits h.relOff (16 * h.nrel) && fits h.symOff (32 * h.nsym) && (!h.hasUm || fits h.umOff h.umLen) && fits h.dataOff h.dataLen &&
      fits h.strOff h.strLen && (List.range h.nseg).all (fun i => fits (h.seg img i) 4096) && h.offsetsOk img) then 1
  else if h.nseg = 0 ∨ 4096 < h.nseg ∨ (List.range h.nseg).any (fun i => h.seg img i % 4096 != 0 || !clausesOk (img.drop (h.seg img i)) 1024 0) ∨
      (h.hasUm && !moduleOk (h.module img) h.strLen) then 2
  else if rels.any (fun r => decide (3 < r.kind) || decide (h.nsym ≤ r.sym)) ∨ binds.any (fun b => decide (h.nsym ≤ b.2)) ∨ syms.any (fun y => (y.address c base h.nseg).isNone) then 3
  else if !(decide (binds.map (·.1)).Nodup) ∨ binds.any (fun b => (h.sym img b.2).kind != 0) then 4
  else if h.missing.any (fun b => !emulable b || !binds.any (fun x => x.1 == b)) then 5
  else if binds.any (fun b => c.bindings.any (fun x => x.1 == b.1 && x.2.toNat != h.routine img base b)) then 6
  else if rels.any (fun r => r.kind == 0 && (match (h.sym img r.sym).address c base h.nseg with
      | some s => decide (r.offset base s < -2 ^ 31) || decide (2 ^ 31 ≤ r.offset base s)
      | none => false)) then 7
  else 0

/-- A relocation written into an image (R339, R50). R341 checks the relocation's kind and its symbol's index alone: its segment index, its word offset and its symbol's segment index are taken as they are, a site past the image's end is not written, and a symbol of kind 3 has its address as one of kind 0 or 1 has (log entry 83). -/
def ObjHeader.relocate (h : ObjHeader) (c : Ctx) (base : Nat) (img : List Byte) (r : ObjRel) : List Byte :=
  match (h.sym img r.sym).address c base h.nseg with
  | none => img
  | some s =>
    let v : Int := (s : Int) + r.addend
    let pair : Nat → Word → List Byte := fun w x =>
      let at_ := h.seg img r.seg + 4 * r.word
      let lo : Word := BitVec.ofNat 32 (imgWord img (at_ + 4))
      let hi : Word := BitVec.ofNat 32 (imgWord img at_)
      let m : Word := BitVec.ofNat 32 (2 ^ w - 1)
      imgSet (imgSet img at_ ((hi &&& 0xFF000000) ||| (x >>> w))) (at_ + 4) ((lo &&& ~~~ m) ||| (x &&& m))
    match r.kind with
    | 0 => pair 21 (BitVec.ofInt 32 (r.offset base s))
    | 1 => pair 15 (BitVec.ofInt 32 v)
    | 2 => pair 15 (((BitVec.ofInt 64 v).extractLsb' 32 25).setWidth 32)
    | _ => imgSet (imgSet img (h.dataOff + 4 * r.word) (BitVec.ofInt 32 v)) (h.dataOff + 4 * r.word + 4) ((BitVec.ofInt 64 v).extractLsb' 32 32)

/-- An entry put into the tables of R177 for a page, with zeroed frames for the tables that are not there yet. None: the frames run out, or a larger page lies there. -/
def mapPage (m : Memory) (frames : List Nat) (level table va entry : Nat) : Option (Memory × List Nat) :=
  let slot := table + 8 * (va / 2 ^ (12 + 9 * level) % 512)
  match level with
  | 0 => some (m.putN slot entry 8, frames)
  | k + 1 =>
    let e := m.getN slot 8
    if e.testBit 0 then (if e.testBit 1 then none else mapPage m frames k (pteFrame e) va entry)
    else
      match frames with
      | [] => none
      | f :: r => mapPage (m.putN slot (f / 4096 * 4096 + 1) 8) r k (f / 4096 * 4096) va entry

/-- The cells of the bytes of a frame from byte 4096 - n on; a byte that is 0 has none. -/
def frameCells (a n : Nat) (bs : List Byte) : Memory :=
  match n, bs with
  | 0, _ => []
  | _, [] => []
  | k + 1, b :: r => if b = unlisted then frameCells a k r else (a + (4095 - k), b) :: frameCells a k r

/-- A frame that holds bytes, and zeros after them. -/
def Memory.setFrame (m : Memory) (a : Nat) (bs : List Byte) : Memory :=
  m.filter (fun c => decide (c.1 < a)) ++ frameCells a 4096 bs ++ m.filter (fun c => decide (a + 4096 ≤ c.1))

/-- A page of an object: its frame, the bytes that it holds, its permission bits. -/
def placePage (x : Memory × List Nat) (root va perms : Nat) (bs : List Byte) : Option (Memory × List Nat) :=
  match x.2 with
  | [] => none
  | f :: r => mapPage (Memory.setFrame x.1 (f / 4096 * 4096) bs) r 4 root va (f / 4096 * 4096 + perms)

/-- The pages of an object placed one after the other, from a VA on. -/
def placePages (x : Memory × List Nat) (root va perms : Nat) (ps : List (List Byte)) : Option (Memory × List Nat) :=
  match ps with
  | [] => some x
  | p :: r => (placePage x root va perms p).bind (fun y => placePages y root (va + 4096) perms r)

/-- The code that an object maps after its data section: the template translations of its Umell module, entry after entry (R348). -/
def ObjHeader.templates (h : ObjHeader) (img : List Byte) : List (List (List Byte)) :=
  if h.hasUm then (entriesOf (h.module img)).map (fun e => e.template (h.module img)) else []

/-- The pages of an object's data section. -/
def ObjHeader.dataPages (h : ObjHeader) : Nat := (h.dataLen + 4095) / 4096

/-- Where the template translation of entry i of the module lies. -/
def ObjHeader.entryVa (h : ObjHeader) (img : List Byte) (base i : Nat) : Nat :=
  base + 4096 * (h.nseg + h.dataPages + (((h.templates img).take i).map List.length).sum)

/-- The templates that an object brings a context, and their symbols (R345, R347, R348). -/
def ObjHeader.bringTemplates (h : ObjHeader) (img : List Byte) (base : Nat) (c : Ctx) : Ctx :=
  let es := if h.hasUm then (entriesOf (h.module img)).zipIdx else []
  { c with
    templates := c.templates ++ es.map (fun e =>
      { module := h.module img, index := e.2, threads := e.1.threads, entry := h.entryVa img base e.2, stalls := List.replicate 8 0, samples := 0 }),
    symbols := c.symbols ++ es.map (fun e =>
      { name := h.name img e.1.name, address := h.entryVa img base e.2,
        unit := { widthc := if e.1.threads ≤ 16 then 1 else 2, ilpc := 1, allotc := 0, scratch := 0, acc := 0 } }) }

/-- An accepted object placed and installed (R343): its segments writable with PATCH, the template translations, which are no segments of it, never (log entry 84); none where the frames do not suffice. -/
def State.install (s : State) (c : Ctx) (base : Nat) (frames : List Nat) (h : ObjHeader) (img : List Byte) : Option State :=
  let done := ((List.range h.nrel).map (h.rel img)).foldl (h.relocate c base) img
  let segs := (List.range h.nseg).map (fun i => (done.drop (h.seg img i)).take 4096)
  let data := (List.range h.dataPages).map (fun i => ((done.drop (h.dataOff + 4096 * i)).take (min 4096 (h.dataLen - 4096 * i))))
  let code := 0x15 + (if h.patch then 8 else 0)
  match (placePages (s.mem, frames) c.root base code segs).bind (fun x => placePages x c.root (base + 4096 * h.nseg) 0x0D data) |>.bind
      (fun x => placePages x c.root (base + 4096 * (h.nseg + h.dataPages)) 0x15 (h.templates img).flatten) with
  | none => none
  | some (m, _) =>
    let syms := (List.range h.nsym).map (h.sym img)
    let names := syms.filterMap (fun y => if y.global && y.kind != 2 then (y.address c base h.nseg).map (fun a => ({ name := y.name, address := a, unit := y.unit } : GlobalSym)) else none)
    let binds := ((List.range h.nbind).map (h.binding img)).filter (fun b => h.missing.contains b.1 && !c.bindings.any (fun x => x.1 == b.1))
    some (({ s with mem := m } : State).modCtx c.ctx (fun x =>
      h.bringTemplates img base
        { x with
          bindings := x.bindings ++ binds.map (fun b => (b.1, BitVec.ofNat 57 (h.routine img base b))), symbols := x.symbols ++ names,
          measured := x.measured ++ img }))

/-- CODE_OBJECT_LOAD (R341 to R343): into a context, at a code VA and into zeroed frames that the device OS gives. -/
def execCodeObjectLoad (ctx base : Nat) (frames : List Nat) (image : List Byte) (s : State) : Host.Outcome State Fault Refusal :=
  .next (
    match s.ctxRec ctx with
    | none => s
    | some c =>
      let h := ObjHeader.parse image
      let at_ := base / 4096 * 4096
      let code := h.check image c at_
      if code ≠ 0 then s.say (.loaded ctx code)
      else
        match s.install c at_ frames h image with
        | none => s
        | some t => t.say (.loaded ctx 0))

/-- RETRANSLATION_INSTALL: the retranslation of a template is placed in zeroed frames that the device OS gives, and launches that fire from now on take it, by one write of the table (R348). -/
def execRetranslationInstall (ctx entry : Nat) (r : Retranslation) (s : State) : Host.Outcome State Fault Refusal :=
  .next (
    let write : State → Nat → State := fun t k => t.modCtx ctx (fun c =>
      { c with translations := c.translations.filter (fun x => x.entry != entry) ++ [{ entry := entry, target := r.entry, share := k }] })
    match s.ctxRec ctx with
    | none => s
    | some c =>
      match c.template entry with
      | none => write s 1
      | some t =>
        match placePages (s.mem, r.frames) c.root (r.entry / 4096 * 4096) 0x15 t.retranslated.2 with
        | none => s
        | some x => write { s with mem := x.1 } t.retranslated.1)

end Sys2Proof.Machine
end

