-- ==== Sys2Proof/Machine/Matrix.lean ====
section
/-!
DEFINITION. The matrix unit: kinds and slices (R28 to R38), MMA, MMAG, MMAF, ACCZ, ACCRD, ACCRS, MMV and CP.MMA (R231 to R241, R268, R271 to R278), and the events MATRIX_OPERATION, JOINT_MMA_START, MMAG_ENTRY, CP_MMA_HANDOFF, MMV_COMPLETE and TILE_COMMAND_COMPLETE.
-/
namespace Sys2Proof.Machine

/-- Kn of a kind pair that the matrix unit accepts (R32). -/
def nativeK (ak bk : Nat) : Option Nat :=
  if ak = 0 ∧ bk = 0 then some 128
  else if (ak = 1 ∨ ak = 2) ∧ (bk = 1 ∨ bk = 2) then some 64
  else if (ak = 5 ∨ ak = 6) ∧ (bk = 5 ∨ bk = 6) then some 64
  else if ak = bk ∧ (ak = 3 ∨ ak = 4) then some 32
  else none

/-- Bits of an element of a kind (R232). -/
def kindBits (k : Nat) : Nat := if k = 0 then 4 else if k = 3 ∨ k = 4 then 16 else 8

/-- The class that a command of an A kind gives its tiles (R38). -/
def kindClass (ak : Nat) : TileClass := if ak = 5 ∨ ak = 6 then .integer else .float

/-- AK, BK and DRAINK of a snapshot (R30). -/
def fmtA (f : Word) : Nat := f.toNat % 16
def fmtB (f : Word) : Nat := f.toNat / 16 % 16
def fmtDrain (f : Word) : Nat := f.toNat / 256 % 16

/-- One matrix product (R231, R238). -/
structure MatDesc where
  m : Nat
  n : Nat
  k : Nat
  tile : Nat
  acc : Bool
  areg : Bool
  joint : Bool
  aoff : Nat
  astr : Nat
  boff : Nat
  bstr : Nat
  asoff : Nat
  bsoff : Nat
  ascnt : Nat
  bscnt : Nat
deriving DecidableEq, Repr

/-- The descriptor of MMA (R231). -/
def mmaDesc (w : List Word) : MatDesc :=
  let r : Nat → Nat := fun i => (w.getD i 0).toNat
  { m := 64 * (r 0 % 4 + 1), n := 64 * (r 0 / 4 % 4 + 1), k := 32 * (r 0 / 16 % 2 ^ 12), tile := r 0 / 2 ^ 16 % 16,
    acc := (r 0).testBit 20, areg := (r 0).testBit 21, joint := (r 0).testBit 22, aoff := r 1, astr := r 2, boff := r 3, bstr := r 4,
    asoff := r 5, bsoff := r 6, ascnt := r 7 % 2 ^ 16, bscnt := r 7 / 2 ^ 16 }

/-- An entry of an MMAG table (R238). -/
def mmagDesc (e : List Word) : MatDesc :=
  let r : Nat → Nat := fun i => (e.getD i 0).toNat
  { m := r 0 % 2 ^ 9, n := 64 * (r 1 % 4 + 1), k := r 1 / 2 ^ 16, tile := r 0 / 2 ^ 16 % 16, acc := (r 0).testBit 20,
    areg := false, joint := false, aoff := r 2, astr := r 3 % 2 ^ 16, boff := r 4, bstr := r 3 / 2 ^ 16, asoff := r 5, bsoff := r 6,
    ascnt := r 7 % 2 ^ 16, bscnt := r 7 / 2 ^ 16 }

/-- The tiles of a product, row blocks by column blocks (R233, R239). -/
def MatDesc.tiles (d : MatDesc) : Nat := (d.m + 63) / 64 * (d.n / 64)

/-- Whether tile t is one of them. -/
def MatDesc.covers (d : MatDesc) (t : Nat) : Bool := decide (d.tile ≤ t) && decide (t < d.tile + d.tiles)

/-- Whether a command loads tile t of a group by CP.ACC (R225). -/
def State.loadsTile (s : State) (c : Cmd) (g : Group) (t : Nat) : Bool :=
  c.kind = .copy 5 && !(c.w 2).getLsbD 4 && (c.w 2).toNat % 16 == t && (s.cpGroup c).any (fun x => x.gid == g.gid)

/-- The class of tile t after every older command of its group in program order, CP.ACC loads among them; none while an older MMAG leaves it open (R225, R278). A command that stands before the one from which the tile has its class changes nothing. -/
def State.classAhead (s : State) (g : Group) (t : Nat) : Option TileClass :=
  (s.cmds.filter (fun c => c.gid == g.gid && (c.onMatrixUnit || s.loadsTile c g t) && !c.isOver && decide (sparseGet 0 g.classBy t ≤ c.id))).foldl (fun cls c =>
    match c.kind with
    | .copy _ => some (if (c.w 2).getLsbD 5 then .integer else .float)
    | .mmag => none
    | .mma =>
      let d := mmaDesc c.regs
      if d.covers t ∧ !(d.acc && cls.isNone) ∧ !(d.joint && c.joint.isEmpty) then some (kindClass (fmtA c.fmt)) else cls
    | .accz => if (c.w 0).toNat ≤ t ∧ t < (c.w 0).toNat + (c.w 1).toNat then some .empty else cls
    | _ => cls) (some (g.tiles.getD t ⟨.empty, []⟩).cls)

/-- The class of tile t before a matrix command that runs: the loads that stand before it in program order and have still to end count (R278). What a younger load has covered already is not known. -/
def State.classAt (s : State) (g : Group) (c : Cmd) (t : Nat) : Option TileClass :=
  let b := sparseGet 0 g.classBy t
  if c.id < b then none
  else some ((s.cmds.filter (fun x => x.gid == g.gid && s.loadsTile x g t && !x.isOver && decide (b ≤ x.id) && decide (x.id < c.id))).foldl
    (fun _ x => if (x.w 2).getLsbD 5 then .integer else .float) (g.tiles.getD t ⟨.empty, []⟩).cls)

/-- Whether accumulating into a tile of this class is refused (R38). -/
def clash (want : TileClass) (cls : Option TileClass) : Bool :=
  match cls with
  | none => false
  | some c => decide (c ≠ .empty) && decide (c ≠ want)

/-- Whether a window holds n rows of some bytes at a stride (R232). -/
def UnitRec.holds (u : UnitRec) (ci off rows stride bytes : Nat) : Bool :=
  decide (rows = 0) || decide (bytes = 0) || (u.locate ci off ((rows - 1) * stride + bytes)).isSome

/-- The checks of R232 in order, for a group with its unit; cls: the classes that the check of ACC goes by. -/
def MatDesc.check (d : MatDesc) (fmt : Word) (acc : Nat) (u : UnitRec) (ci : Nat) (cls : Nat → Option TileClass) : Option Cause :=
  let ak := fmtA fmt
  let bk := fmtB fmt
  let kn := nativeK ak bk
  let need := if ak = 0 then d.k / 32 else 0
  if d.k = 0 ∨ 256 < d.m ∨ (ak = 0 ∧ d.k % 32 ≠ 0) ∨ acc < d.tile + d.tiles then some .mshape
  else if (d.areg ∧ (d.m ≠ 64 ∨ kn.any (fun n => decide (n < d.k)))) ∨ (d.joint ∧ !d.areg) then some .mshape
  else if kn.isNone then some .mkind
  else if d.ascnt ≠ need ∨ d.bscnt ≠ need then some .mscale
  else if d.acc ∧ (List.range d.tiles).any (fun i => clash (kindClass ak) (cls (d.tile + i))) then some .mkind
  else if (!d.areg && (d.aoff % 4 != 0 || d.astr % 4 != 0)) || d.boff % 4 != 0 || d.bstr % 4 != 0 || d.asoff % 2 != 0 || d.bsoff % 2 != 0 then
    some .misalign
  else if (!d.areg && !u.holds ci d.aoff d.m d.astr (d.k * kindBits ak / 8)) || !u.holds ci d.boff d.n d.bstr (d.k * kindBits bk / 8) ||
      !u.holds ci d.asoff d.m (2 * need) (2 * need) || !u.holds ci d.bsoff d.n (2 * need) (2 * need) then some .prot
  else none

/-- The value of an element code of a float kind; sw is its block's scale word (R28, R30). -/
def elemValue (k code sw : Nat) : FVal :=
  match k with
  | 0 => blockValue code sw
  | 1 => kE4m3.value code
  | 2 => kE5m2.value code
  | 3 => kBf16.value code
  | _ => kF16.value code

/-- The value of an element code of an integer kind (R37). -/
def elemInt (k code : Nat) : Int := if k = 5 then (BitVec.ofNat 8 code).toInt else code

/-- A byte of an operand in a group's scratchpad; free where another command is still writing it (R226, R240). -/
def State.opByte (s : State) (c : Cmd) (g : Group) (u : UnitRec) (o : Nat) : Byte :=
  match u.scr g.coreIndex o 1 with
  | some l =>
    let a := l.num
    if s.cmds.any (fun x => !(x.gid == c.gid && x.seq == c.seq) && x.unsettled && covers x.destPa a) then Config.freeByte (s.free + o)
    else s.byteAt l
  | none => 0

/-- Whether rows of a window, bytes long and a stride apart, meet a poisoned line (R391). -/
def State.rowsHurt (s : State) (g : Group) (u : UnitRec) (off n stride bytes : Nat) : Bool :=
  !s.poison.isEmpty && decide (0 < bytes) && (List.range n).any (fun r => match u.scr g.coreIndex (off + r * stride) bytes with
    | some l => s.poisoned true l bytes
    | none => false)

/-- Whether an operand of a product lies in a poisoned line (R391). -/
def State.operandHurt (s : State) (c : Cmd) (g : Group) (u : UnitRec) (d : MatDesc) : Bool :=
  (!d.areg && s.rowsHurt g u d.aoff d.m d.astr (d.k * kindBits (fmtA c.fmt) / 8)) || s.rowsHurt g u d.boff d.n d.bstr (d.k * kindBits (fmtB c.fmt) / 8) ||
    s.rowsHurt g u d.asoff d.m (2 * d.ascnt) (2 * d.ascnt) || s.rowsHurt g u d.bsoff d.n (2 * d.bscnt) (2 * d.bscnt)

/-- n bytes of an operand. -/
def State.opBytes (s : State) (c : Cmd) (g : Group) (u : UnitRec) (o n : Nat) : Nat := gatherLE (fun i => s.opByte c g u (o + i)) n

/-- Element code k of a packed row that starts at an offset (R29, R232). -/
def State.elemAt (s : State) (c : Cmd) (g : Group) (u : UnitRec) (kind row k : Nat) : Nat :=
  if kindBits kind = 4 then (s.opByte c g u (row + k / 2)).toNat / 16 ^ (k % 2) % 16
  else if kindBits kind = 8 then (s.opByte c g u (row + k)).toNat
  else s.opBytes c g u (row + 2 * k) 2

/-- Element code k of a row of registers (R234). -/
def elemOfWords (ws : List Word) (kind k : Nat) : Nat :=
  (ws.getD (k * kindBits kind / 32) 0).toNat / 2 ^ (k * kindBits kind % 32) % 2 ^ kindBits kind

/-- The scale word of element k of row r (R29, R232). -/
def State.scaleAt (s : State) (c : Cmd) (g : Group) (u : UnitRec) (off cnt r k : Nat) : Nat :=
  if cnt = 0 then 0 else s.opBytes c g u (off + 2 * (r * cnt + k / 32)) 2

/-- Element A[m][k] as its code and scale. -/
def State.elemA (s : State) (c : Cmd) (g : Group) (u : UnitRec) (d : MatDesc) (m k : Nat) : Nat × Nat :=
  (if d.areg then elemOfWords (c.rows.getD m []) (fmtA c.fmt) k else s.elemAt c g u (fmtA c.fmt) (d.aoff + m * d.astr) k,
    s.scaleAt c g u d.asoff d.ascnt m k)

/-- Element B[n][k]. -/
def State.elemB (s : State) (c : Cmd) (g : Group) (u : UnitRec) (d : MatDesc) (n k : Nat) : Nat × Nat :=
  (s.elemAt c g u (fmtB c.fmt) (d.boff + n * d.bstr) k, s.scaleAt c g u d.bsoff d.bscnt n k)

/-- The sum of a slice of products by the tree of R36. -/
def sliceSum (kn : Nat) (p : Nat → Word) : Word :=
  (treeSum fAdd kn.log2 ((List.range kn).map (fun i => some (p i)))).getD 0

/-- Element m, n of slice j of A × Bᵀ (R36, R37). -/
def State.sliceAt (s : State) (c : Cmd) (g : Group) (u : UnitRec) (d : MatDesc) (kn m n j : Nat) : Word :=
  let ak := fmtA c.fmt
  let bk := fmtB c.fmt
  if kindClass ak = .integer then
    BitVec.ofInt 32 ((List.range kn).foldl (fun t i =>
      let k := j * kn + i
      if k < d.k then t + elemInt ak (s.elemA c g u d m k).1 * elemInt bk (s.elemB c g u d n k).1 else t) 0)
  else
    sliceSum kn (fun i =>
      let k := j * kn + i
      if k < d.k then
        let x := s.elemA c g u d m k
        let y := s.elemB c g u d n k
        rne32 ((elemValue ak x.1 x.2).mul (elemValue bk y.1 y.2))
      else 0)

/-- One native operation: slice j of block mi, ni (R233). Rows at or above M keep their values (R239). -/
def State.nativeOp (s : State) (c : Cmd) (d : MatDesc) (mi ni j : Nat) : State :=
  let g := s.groupOf c.gid
  let u := s.unitOf g.uid
  let int := kindClass (fmtA c.fmt) = .integer
  let kn := (nativeK (fmtA c.fmt) (fmtB c.fmt)).getD 64
  let t := d.tile + mi * (d.n / 64) + ni
  let old := g.tiles.getD t ⟨.empty, []⟩
  let cells := (List.range 4096).filter (fun i => decide (64 * mi + i / 64 < d.m))
  let new := cells.foldl (fun (x : Tile) i =>
    let v := s.sliceAt c g u d kn (64 * mi + i / 64) (64 * ni + i % 64) j
    let w := if j = 0 ∧ !d.acc then v else if int then old.get (i / 64) (i % 64) + v else fAdd (old.get (i / 64) (i % 64)) v
    x.put (i / 64) (i % 64) w) old
  (s.modGroup c.gid (fun h => ({ h with tiles := h.tiles.set t { new with cls := old.cls } } : Group).setClass c.id t (kindClass (fmtA c.fmt)))).useFree (2 ^ 22)

/-- The slices of a product. -/
def MatDesc.slices (d : MatDesc) (fmt : Word) : Nat :=
  let kn := (nativeK (fmtA fmt) (fmtB fmt)).getD 64
  (d.k + kn - 1) / kn

/-- A product's native operations from number p on, n of them. -/
def State.runOps (s : State) (c : Cmd) (d : MatDesc) (p n : Nat) : State :=
  (List.range n).foldl (fun t i =>
    let q := p + i
    let b := q / d.slices c.fmt
    t.nativeOp c d (b / (d.n / 64)) (b % (d.n / 64)) (q % d.slices c.fmt)) s

/-- Whether the classes refuse a product's accumulation, where its issue could not tell (R278). -/
def State.clashNow (s : State) (c : Cmd) (d : MatDesc) : Bool :=
  c.late && d.acc && (List.range d.tiles).any (fun i => clash (kindClass (fmtA c.fmt)) (s.classAt (s.groupOf c.gid) c (d.tile + i)))

/-- Whether a drain kind suits a class (R38); an open class is checked later (R278). -/
def drainSuits (cls : Option TileClass) (k : Nat) : Bool :=
  match cls with
  | none => true
  | some .empty => decide (1 ≤ k ∧ k ≤ 7)
  | some .float => decide (k = 7 ∨ (1 ≤ k ∧ k ≤ 4))
  | some .integer => decide (5 ≤ k ∧ k ≤ 7)

/-- An element drained (R35, R38). -/
def drain (cls : TileClass) (k : Nat) (w : Word) : Word :=
  let fl : FKind → Word := fun x => BitVec.ofNat 32 (x.code .rz false (f32 w))
  let clamp : Int → Int → Word := fun lo hi => BitVec.ofNat 32 ((max lo (min hi w.toInt)) % 256).toNat
  match k with
  | 1 => fl kE4m3
  | 2 => fl kE5m2
  | 3 => fl kBf16
  | 4 => fl kF16
  | 5 => clamp (-128) 127
  | 6 => clamp 0 255
  | _ => if cls = .float then fl kF32 else w

/-- Bytes of a drained element (R237). -/
def drainSize (k : Nat) : Nat := if k = 7 then 4 else if k = 3 ∨ k = 4 then 2 else 1

/-- The members of a joint command end with it (R234). -/
def State.endJoint (s : State) (c : Cmd) : State := (c.joint.filter (· != c.id)).foldl State.endCmd (s.endCmd c.id)

/-- They fail with it. -/
def State.failJoint (s : State) (c : Cmd) (cause : Cause) : State :=
  (c.joint.filter (· != c.id)).foldl (fun t i => t.failCmd i cause 0) (s.failCmd c.id cause 0)

/-- A tile command runs (R237, R274 to R276): tiles emptied, or the values of a drain computed; an ACCRD's land at the covering WAITM (R275). -/
def State.tileRun (s : State) (c : Cmd) : State :=
  let g := s.groupOf c.gid
  let u := s.unitOf g.uid
  let dk := fmtDrain c.fmt
  match c.kind with
  | .accz =>
    (s.modGroup c.gid (fun h => (List.range (c.w 1).toNat).foldl (fun k i => k.setClass c.id ((c.w 0).toNat + i) .empty)
      { h with tiles := h.tiles.mapIdx (fun i x =>
          if (c.w 0).toNat ≤ i ∧ i < (c.w 0).toNat + (c.w 1).toNat then { x with data := [] } else x) })).endCmd c.id
  | .accrd =>
    let t := g.tiles.getD (c.w 1).toNat ⟨.empty, []⟩
    if c.late && !drainSuits (s.classAt g c (c.w 1).toNat) dk then s.failCmd c.id .mkind 0
    else
      (s.modCmd c.id (fun x => { x with dests := x.dests.map (fun d =>
        (d.1, d.2.map (fun w => (w.1, drain t.cls dk (t.get d.1 (8 * (c.w 2).toNat + w.2.toNat)))))) })).endCmd c.id
  | .accrs =>
    let t := g.tiles.getD (c.w 0).toNat ⟨.empty, []⟩
    let z := drainSize dk
    if c.late && !drainSuits (s.classAt g c (c.w 0).toNat) dk then s.failCmd c.id .mkind 0
    else if s.rowsHurt g u (c.w 1).toNat 64 (c.w 2).toNat (64 * z) then s.failCmd c.id .prot 0
    else
      ((List.range 4096).foldl (fun v i =>
        match u.scr g.coreIndex ((c.w 1).toNat + i / 64 * (c.w 2).toNat + i % 64 * z) z with
        | some l => v.putN l (drain t.cls dk (t.get (i / 64) (i % 64))).toNat z
        | none => v) s).endCmd c.id
  | _ => s

/-- MATRIX_OPERATION: the next native operation of the group's oldest command (R233, R236). -/
def execMatrixOperation (gid : Nat) (s : State) : Host.Outcome State Fault Refusal :=
  .next (
    match s.matrixHead gid with
    | none => s
    | some c =>
      if c.state ≠ .accepted then s
      else if c.kind = .mma then
        let d := mmaDesc c.regs
        if c.progress = 0 ∧ s.clashNow c d then s.failJoint c .mkind
        else if s.operandHurt c (s.groupOf c.gid) (s.unitOf (s.groupOf c.gid).uid) d then s.failJoint c .prot
        else
          let s1 := (s.runOps c d c.progress 1).modCmd c.id (fun x => { x with progress := x.progress + 1 })
          if d.tiles * d.slices c.fmt ≤ c.progress + 1 then s1.endJoint c else s1.post (.matrixOperation gid)
      else s.tileRun c)

/-- TILE_COMMAND_COMPLETE (R237). -/
def execTileCommandComplete (gid : Nat) (s : State) : Host.Outcome State Fault Refusal :=
  .next (
    match s.matrixHead gid with
    | none => s
    | some c => if c.state = .accepted then s.tileRun c else s)

/-- JOINT_MMA_START: the rows of every member stand at their partition lanes, and the command runs once (R234). -/
def execJointMmaStart (id : Nat) (s : State) : Host.Outcome State Fault Refusal :=
  .next (
    match s.cmd? id with
    | none => s
    | some c =>
      if c.state ≠ .waiting ∨ !s.jointReady c then s
      else
        let row : Nat → List Word := fun p =>
          (c.joint.findSome? (fun i => match s.cmd? i with
            | none => none
            | some m =>
              let g := s.groupOf m.gid
              if 8 * g.seg ≤ p ∧ p < 8 * g.seg + g.width then m.rows[p - 8 * g.seg]? else none)).getD (List.replicate 16 0)
        (s.modCmd id (fun x => { x with state := .accepted, rows := (List.range 64).map row })).kick c.gid)

/-- The words of an MMAG entry read one by one (R239). -/
def State.entryWords (s : State) (id va fuel : Nat) : State × Option (List Word) :=
  match fuel with
  | 0 => (s, none)
  | k + 1 =>
    match s.cmd? id with
    | none => (s, none)
    | some c =>
      if 8 ≤ c.buf.length then (s, some c.buf)
      else
        match s.engWord c (va + 4 * c.buf.length) with
        | (s1, some w) => (s1.modCmd id (fun x => { x with buf := x.buf ++ [w] })).entryWords id va k
        | (s1, none) => (s1, none)

/-- MMAG_ENTRY: the next table entry is read, checked and run (R238, R239). -/
def execMmagEntry (id : Nat) (s : State) : Host.Outcome State Fault Refusal :=
  .next (
    match s.cmd? id with
    | none => s
    | some c =>
      if c.kind ≠ .mmag ∨ c.state ≠ .accepted then s
      else if (c.w 2).toNat ≤ c.progress then s.endCmd id
      else
        match s.entryWords id (vaPair (c.w 0) (c.w 1) + 32 * c.progress) 9 with
        | (s1, none) => s1
        | (s1, some e) =>
          let d := mmagDesc e
          let next : State → State := fun t => (t.modCmd id (fun x => { x with progress := x.progress + 1, buf := [] })).post (.mmagEntry id)
          if d.m = 0 then next s1
          else
            let g := s1.groupOf c.gid
            match d.check c.fmt g.tiles.length (s1.unitOf g.uid) g.coreIndex (s1.classAt g c) with
            | some cause => s1.failCmd id cause c.progress
            | none => if s1.operandHurt c g (s1.unitOf g.uid) d then s1.failCmd id .prot c.progress else next (s1.runOps c d 0 (d.tiles * d.slices c.fmt)))

/-- The matrix part of a CP.MMA that waits for its copy, and that copy is done (R240). -/
def State.copyDone (s : State) (c : Cmd) : Bool :=
  decide (c.state = .waiting) && decide (c.kind = .mma) && !(c.w 0).getLsbD 22 && s.cmds.all (fun k => k.id != c.arg || decide (k.state = .done))

/-- CP_MMA_HANDOFF: the matrix part goes to the partition (R240). -/
def execCpMmaHandoff (id : Nat) (s : State) : Host.Outcome State Fault Refusal :=
  .next (
    match s.cmd? id with
    | none => s
    | some c => if s.copyDone c then (s.modCmd id (fun x => { x with state := .accepted })).kick c.gid else s)

/-- The first member of the joint command that an MMA of the issuing group would join (R234). A group that issues twice under one tag before the command runs counts as two members (log entry 72). -/
def State.jointOf (s : State) (w : List Word) : Option Cmd :=
  let w0 := (w.getD 0 0).toNat
  if !w0.testBit 22 then none
  else s.cmds.find? (fun c => c.kind = .mma && (c.w 0).getLsbD 22 && !c.isOver && c.joint.length != 0 &&
    decide (c.joint.length < (c.w 0).toNat / 2 ^ 26 % 4 + 1) && (c.w 0).toNat / 2 ^ 23 % 8 == w0 / 2 ^ 23 % 8 &&
    s.allGroups.any (fun g => g.live && g.gid == c.gid && g.die == s.gr.die && g.core == s.gr.core && g.part == s.gr.part))

/-- The register bases that AREG allows (R234). -/
def aregBase (w1 : Word) : Bool := [8, 12, 16, 20, 24, 28, 32].contains (w1.toNat % 64)

/-- The checks of MMA at issue (R232, R234, R278); ILLEGAL for a bad AREG base, which R234 gives no place among them, stands first, and the MSHAPE of a later joint issue with another descriptor last (DESIGN CHOICE, log entry 33). -/
def State.mmaCheck (s : State) (w : List Word) : Option Cause :=
  let d := mmaDesc w
  let first := s.jointOf w
  let g := match first with
    | some c => s.groupOf c.gid
    | none => s.gr
  if d.areg ∧ !aregBase (w.getD 1 0) then some .illegal
  else
    match d.check s.st.fmt s.gr.tiles.length s.un s.gr.coreIndex (s.classAhead g) with
    | some c => some c
    | none =>
      match first with
      | some c => if c.w 0 = w.getD 0 0 ∧ c.regs.drop 2 = w.drop 2 then none else some .mshape
      | none => none

/-- An MMA joins the joint command it belongs to, or starts it (R234). -/
def State.enterJoint (s : State) (w : List Word) (id : Nat) : State :=
  if !(w.getD 0 0).getLsbD 22 then s
  else
    match s.jointOf w with
    | some c => s.modCmd c.id (fun x => { x with joint := x.joint ++ [id] })
    | none => s

/-- Whether the class of some tile of a product is open at issue (R278). -/
def State.classOpen (s : State) (g : Group) (lo n : Nat) : Bool := (List.range n).any (fun i => (s.classAhead g (lo + i)).isNone)

/-- MMA (R271); R310 names it with ACC. -/
def execMma (g : BitVec 4) (d a : BitVec 6) (s : State) : Host.Outcome State Fault Refusal :=
  let w := s.descr a.toNat 8
  let x := mmaDesc w
  let own := match s.jointOf w with
    | some c => s.groupOf c.gid
    | none => s.gr
  let alone := (w.getD 0 0).getLsbD 22 && (s.jointOf w).isNone
  let v := s.engine g (decide (a.toNat % 8 = 0)) (s.mmaCheck w)
    ((((s.enterJoint w s.nextId).issueCmd .mma w false true (fun c =>
      { c with joint := if alone then [c.id] else [], late := s.classOpen own x.tile x.tiles })).putSeq d s))
  if x.acc then s.runN v else s.run v

/-- MMAG (R272), which R310 names whatever its guard. -/
def execMmag (g : BitVec 4) (d a b : BitVec 6) (s : State) : Host.Outcome State Fault Refusal :=
  let va := (s.sregPair a.toNat).toNat
  let cnt := s.sreg b.toNat
  let check : Option Cause :=
    if 4096 < cnt.toNat then some .mshape
    else if va % 32 ≠ 0 then some .misalign
    else if 2 ^ 57 ≤ va then some .prot
    else if (nativeK (fmtA s.st.fmt) (fmtB s.st.fmt)).isNone then some .mkind
    else none
  s.runN (s.engine g (isPair a.toNat) check
    ((s.issueCmd .mmag [s.sreg a.toNat, s.sreg (a.toNat + 1), cnt] false true id).putSeq d s))

/-- MMAF: younger matrix commands read after the group's older writes (R235, R273); the model's commands read when they run, later than those writes. -/
def execMmaf (g : BitVec 4) (s : State) : Host.Outcome State Fault Refusal := s.run (s.once g true (fun x => x))

/-- ACCZ (R274). -/
def execAccz (g t n : BitVec 4) (s : State) : Host.Outcome State Fault Refusal :=
  s.run (s.engine g true (if s.gr.tiles.length < t.toNat + n.toNat + 1 then some .mshape else none)
    (s.issueCmd .accz [t.setWidth 32, BitVec.ofNat 32 (n.toNat + 1)] false true id))

/-- ACCRD (R275). -/
def execAccrd (g : BitVec 4) (d : BitVec 6) (t : BitVec 4) (c : BitVec 3) (s : State) : Host.Outcome State Fault Refusal :=
  s.run (
    let base := d.toNat % 8 = 0 && decide (d.toNat ≤ 48)
    let bound := s.beyondIn s.st.exm ((List.range 8).map (d.toNat + ·))
    if !base || s.isWave then .trap .illegal s.st.exm s
    else if !s.uniGuard g then .next s
    else if bound ≠ 0 then .trap .regBound bound s
    else s.engine g true
      (if s.gr.tiles.length ≤ t.toNat then some .mshape
       else if !drainSuits (s.classAhead s.gr t.toNat) (fmtDrain s.st.fmt) then some .mkind else none)
      (s.issueCmd .accrd [d.setWidth 32, t.setWidth 32, c.setWidth 32] false true (fun x => { x with late := s.classOpen s.gr t.toNat 1 })))

/-- ACCRS (R276). -/
def execAccrs (g t : BitVec 4) (a : BitVec 6) (s : State) : Host.Outcome State Fault Refusal :=
  let off := (s.sreg a.toNat).toNat
  let str := (s.sreg (a.toNat + 1)).toNat
  let z := drainSize (fmtDrain s.st.fmt)
  let rows := (List.range 64).filterMap (fun r => (s.un.scr s.gr.coreIndex (off + r * str) (64 * z)).map (fun l => (l.num, 64 * z)))
  s.run (s.engine g (isPair a.toNat)
    (if s.gr.tiles.length ≤ t.toNat then some .mshape
     else if off % 4 ≠ 0 ∨ str % 4 ≠ 0 then some .misalign
     else if (s.un.locate s.gr.coreIndex off (63 * str + 64 * z)).isNone then some .prot
     else if !drainSuits (s.classAhead s.gr t.toNat) (fmtDrain s.st.fmt) then some .mkind else none)
    (s.issueCmd .accrs [t.setWidth 32, s.sreg a.toNat, s.sreg (a.toNat + 1)] false true (fun c => { c with destPa := rows, late := s.classOpen s.gr t.toNat 1 })))

/-- CP.MMA: a copy and then a matrix command under one sequence number (R240, R268). -/
def execCpMma (g : BitVec 4) (d a : BitVec 6) (s : State) : Host.Outcome State Fault Refusal :=
  let w := s.descr a.toNat 8
  let m := s.descr (a.toNat + 8) 8
  let ds := s.cpDests 6 w
  let check : Option Cause :=
    match s.cpCheck 6 w with
    | some c => some c
    | none =>
      let x := mmaDesc m
      if x.areg ∧ !aregBase (m.getD 1 0) then some .illegal
      else if x.joint then some .mshape
      else x.check s.st.fmt s.gr.tiles.length s.un s.gr.coreIndex (s.classAhead s.gr)
  let both : State :=
    let s1 := s.issueCmd (.copy 6) w true false (fun c => { c with destVa := ds.1, destPa := ds.2 })
    let mat : Cmd :=
      { id := s1.nextId, seq := s.gr.cmdseq, pc := s.instrPc, gid := s.gr.gid, sid := s.st.sid, core := s.gr.coreId, ctx := s.gr.ctx, kind := .mma, regs := m,
        fmt := s.st.fmt, exm := s.st.exm, flag := none, cbatch := none, mbatch := some (s.gr.mbatch + 1), state := .retired, progress := 0,
        arg := s.nextId, dests := [], rows := [], joint := [], destVa := [], destPa := [], fenced := false, buf := [], peer := none, frag := fragId s.gr s.st.kind, priv := s.st.isPriv,
        late := s.classOpen s.gr (mmaDesc m).tile (mmaDesc m).tiles }
    ({ s1 with cmds := s1.cmds ++ [mat], nextId := s1.nextId + 1 } : State).putSeq d s
  let v := s.engine g (decide (a.toNat % 16 = 0)) check both
  if (mmaDesc m).acc then s.runN v else s.run v

/-- The descriptor of MMV (R241). -/
structure MmvDesc where
  v : Nat
  k : Nat
  n : Nat
  aoff : Nat
  astr : Nat
  b : Nat
  yoff : Nat
  ystr : Nat
deriving DecidableEq, Repr

/-- The fields of an MMV descriptor. -/
def mmvDesc (w : List Word) : MmvDesc :=
  let r : Nat → Nat := fun i => (w.getD i 0).toNat
  { v := r 0 % 8 + 1, k := 32 * (r 0 / 16 % 2 ^ 12), n := 64 * (r 0 / 2 ^ 16), aoff := r 1, astr := r 2,
    b := vaPair (w.getD 3 0) (w.getD 4 0), yoff := r 5, ystr := r 6 }

/-- RB: the bytes from one row of B to the next (R241). -/
def MmvDesc.rowBytes (d : MmvDesc) (bk : Nat) : Nat :=
  (d.k * kindBits bk / 8 + (if bk = 0 then 2 * (d.k / 32) else 0) + 255) / 256 * 256

/-- MMV (R277). -/
def execMmv (g : BitVec 4) (d a : BitVec 6) (s : State) : Host.Outcome State Fault Refusal :=
  let w := s.descr a.toNat 8
  let x := mmvDesc w
  let bk := fmtB s.st.fmt
  let check : Option Cause :=
    if fmtA s.st.fmt ≠ 3 ∨ !(bk = 0 || bk = 1 || bk = 3) then some .mkind
    else if x.aoff % 4 ≠ 0 ∨ x.astr % 4 ≠ 0 ∨ x.yoff % 4 ≠ 0 ∨ x.ystr % 4 ≠ 0 ∨ x.b % 4 ≠ 0 then some .misalign
    else if !s.un.holds s.gr.coreIndex x.aoff x.v x.astr (2 * x.k) || !s.un.holds s.gr.coreIndex x.yoff x.v x.ystr (4 * x.n) then some .prot
    else if 2 ^ 57 ≤ x.b then some .prot
    else none
  let rows := (List.range x.v).filterMap (fun r => (s.un.scr s.gr.coreIndex (x.yoff + r * x.ystr) (4 * x.n)).map (fun l => (l.num, 4 * x.n)))
  s.run (s.engine g (decide (a.toNat % 8 = 0)) check
    ((s.issueCmd .mmv w false true (fun c => { c with destPa := rows })).putSeq d s))

/-- The bytes of B that an MMV has still to read, page by page, and whether it has them all: a page whose home is another die or the host's, or one in a window, fails it with PROT (R241, R353), a walk and a fault hold it up (R227, R324). -/
def State.mmvRead (s : State) (id b bytes fuel : Nat) : State × Bool :=
  match fuel with
  | 0 => (s, false)
  | k + 1 =>
    match s.cmd? id with
    | none => (s, false)
    | some c =>
      let va := b + 4 * c.buf.length
      let n := min (b + bytes) (va / 4096 * 4096 + 4096) - va
      let t := s.engWalk c.die c.ctx va
      if b + bytes ≤ va then (s, true)
      else
        match (s.engAsk c.die c.ctx va needR c.id c.seesChip).struck s true n with
        | .ok l =>
          if l.pa.isSome && Loc.homeDie l == c.die then
            (t.modCmd id (fun x => { x with buf := x.buf ++ (List.range (n / 4)).map (fun i => BitVec.ofNat 32 (s.getN (l.plus (4 * i)) 4)) })).mmvRead id b bytes k
          else (t.failCmd id .prot 0, false)
        | .absent h => (t.parkCmd c va false h, false)
        | .refused h => (t.refuseCmd c va false h, false)
        | .walk ats => (s.waitCmdWalk c va needR ats, false)
        | _ => (t.failCmd id .prot 0, false)

/-- Element n, k of B as its code and scale, from the words read. -/
def mmvElem (ws : Array Word) (fmt : Word) (d : MmvDesc) (n k : Nat) : Nat × Nat :=
  let bk := fmtB fmt
  let get : Nat → Nat → Nat := fun o m => gatherLE (fun i =>
    let p := n * d.rowBytes bk + o + i
    byteOf (ws.getD (p / 4) 0).toNat (p % 4)) m
  (if bk = 0 then get (k / 2) 1 / 16 ^ (k % 2) % 16 else if bk = 1 then get k 1 else get (2 * k) 2,
    if bk = 0 then get (d.k / 2 + 2 * (k / 32)) 2 else 0)

/-- y[v][n] (R36, R241); the sum over no element is +0. -/
def State.mmvAt (s : State) (c : Cmd) (g : Group) (u : UnitRec) (d : MmvDesc) (ws : Array Word) (v n : Nat) : Word :=
  let bk := fmtB c.fmt
  let kn := if bk = 0 then 128 else if bk = 3 then 32 else 64
  let part : Nat → Word := fun j => sliceSum kn (fun i =>
    let k := j * kn + i
    if k < d.k then
      let y := mmvElem ws c.fmt d n k
      rne32 ((kBf16.value (s.opBytes c g u (d.aoff + v * d.astr + 2 * k) 2)).mul (elemValue bk y.1 y.2))
    else 0)
  match (d.k + kn - 1) / kn with
  | 0 => 0
  | q + 1 => (List.range q).foldl (fun t j => fAdd t (part (j + 1))) (part 0)

/-- MMV_COMPLETE (R241). -/
def execMmvComplete (id : Nat) (s : State) : Host.Outcome State Fault Refusal :=
  .next (
    match s.cmd? id with
    | none => s
    | some c =>
      if c.kind ≠ .mmv ∨ c.state ≠ .accepted then s
      else
        let g := s.groupOf c.gid
        let u := s.unitOf g.uid
        let d := mmvDesc c.regs
        let bytes := d.n * d.rowBytes (fmtB c.fmt)
        if s.rowsHurt g u d.aoff d.v d.astr (2 * d.k) || s.rowsHurt g u d.yoff d.v d.ystr (4 * d.n) then s.failCmd id .prot 0
        else
          match s.mmvRead id d.b bytes (bytes / 4096 + 3) with
          | (t, false) => t
          | (t, true) =>
            let ws := (((t.cmd? id).map (·.buf)).getD []).toArray
            (((List.range (d.v * d.n)).foldl (fun (w : State) i =>
              match u.scr g.coreIndex (d.yoff + i / d.n * d.ystr + 4 * (i % d.n)) 4 with
              | some l => w.putN l (t.mmvAt c g u d ws (i / d.n) (i % d.n)).toNat 4
              | none => w) t).useFree (2 ^ 22)).endCmd id)

/-- Undefined values in n tiles of a group (R235). -/
def State.spoilTiles (s : State) (gid lo n : Nat) : State :=
  (s.modGroup gid (fun g => { g with tiles := g.tiles.mapIdx (fun i x =>
    if lo ≤ i ∧ i < lo + n ∧ x.cls ≠ .empty then { x with data := (List.range 4096).foldr (fun p d =>
      sparsePut 0#32 d p (Config.freeWord (s.free + 4096 * (i - lo) + p))) [] } else x) })).useFree (4096 * n)

/-- What a later command took from tiles that have become undefined is undefined (R235). -/
def State.spoilTaken (s : State) (lo n : Nat) (c : Cmd) : State :=
  match c.kind with
  | .accrd => if lo ≤ (c.w 1).toNat ∧ (c.w 1).toNat < lo + n then
      (s.modCmd c.id (fun x => { x with dests := x.dests.map (fun d =>
        (d.1, d.2.mapIdx (fun i w => (w.1, Config.freeWord (s.free + 8 * d.1 + i))))) })).useFree 512
    else s
  | .accrs => if lo ≤ (c.w 0).toNat ∧ (c.w 0).toNat < lo + n then s.scramble c else s
  | _ => s

/-- An operand register of an MMA that named no flag has been written before the WAITM: its operands are undefined (R235). -/
def State.taintOperand (s : State) (c : Cmd) : State :=
  let g := s.groupOf c.gid
  let written := c.dests.any (fun d =>
    let x := g.lanes.getD d.1 Lane.start
    d.2.any (fun w => decide (x.lowres ≤ w.1) && (decide (w.1 < x.fb + 58) && x.word g.allot w.1 != w.2)))
  if !written then s
  else
    let f := (s.cmds.find? (fun x => x.joint.contains c.id)).getD c
    let m := mmaDesc f.regs
    let rows := (List.range 64).map (fun r => (List.range 16).map (fun i => Config.freeWord (s.free + 16 * r + i)))
    let s1 := ((s.modCmd c.id (fun x => { x with dests := [], rows := rows })).modCmd f.id (fun x => { x with rows := rows })).useFree 1024
    if f.isOver || decide (0 < f.progress) then
      (s1.cmds.filter (fun x => x.gid == f.gid && decide (x.state = .done))).foldl (fun t x => t.spoilTaken m.tile m.tiles x)
        (s1.spoilTiles f.gid m.tile m.tiles)
    else s1

/-- The registers that open matrix commands name, after an activity (R235). -/
def State.watchRegisters (s : State) : State :=
  (s.cmds.filter (fun c => c.kind = .mma && !c.dests.isEmpty)).foldl State.taintOperand s.taintDrains

end Sys2Proof.Machine
end

