-- ==== Sys2Proof/Machine/Scalar.lean ====
section
/-!
DEFINITION. The uniform instructions that compute: SIAR, SLOG, SADDI, SMOVI, SMOV, SMOV64, SLANE, SSET, QLOG, SETIX, ADDIX, FMTSET, YIELD and SNOP (R76, R91 to R98, R108, R119, R215).
-/
namespace Sys2Proof.Machine

/-- SADD (R91). -/
def execSadd (g : BitVec 4) (d a b : BitVec 6) (s : State) : Host.Outcome State Fault Refusal :=
  s.run (s.salu2x g d a b (· + ·) (· + ·))

/-- SSUB (R91). -/
def execSsub (g : BitVec 4) (d a b : BitVec 6) (s : State) : Host.Outcome State Fault Refusal :=
  s.run (s.salu2x g d a b (· - ·) (· - ·))

/-- SMIN (R91). -/
def execSmin (g : BitVec 4) (d a b : BitVec 6) (s : State) : Host.Outcome State Fault Refusal :=
  s.run (s.salu2x g d a b sMin sMin)

/-- SMAX (R91). -/
def execSmax (g : BitVec 4) (d a b : BitVec 6) (s : State) : Host.Outcome State Fault Refusal :=
  s.run (s.salu2x g d a b sMax sMax)

/-- SMINN (R91). -/
def execSminn (g : BitVec 4) (d a b : BitVec 6) (s : State) : Host.Outcome State Fault Refusal :=
  s.run (s.salu2x g d a b uMin uMin)

/-- SMAXN (R91). -/
def execSmaxn (g : BitVec 4) (d a b : BitVec 6) (s : State) : Host.Outcome State Fault Refusal :=
  s.run (s.salu2x g d a b uMax uMax)

/-- SMUL (R91). -/
def execSmul (g : BitVec 4) (d a b : BitVec 6) (s : State) : Host.Outcome State Fault Refusal :=
  s.run (s.salu2 g d a b (· * ·))

/-- SMULH (R91). -/
def execSmulh (g : BitVec 4) (d a b : BitVec 6) (s : State) : Host.Outcome State Fault Refusal :=
  s.run (s.salu2 g d a b mulHigh)

/-- SAND (R92). -/
def execSand (g : BitVec 4) (d a b : BitVec 6) (s : State) : Host.Outcome State Fault Refusal :=
  s.run (s.salu2 g d a b (· &&& ·))

/-- SOR (R92). -/
def execSor (g : BitVec 4) (d a b : BitVec 6) (s : State) : Host.Outcome State Fault Refusal :=
  s.run (s.salu2 g d a b (· ||| ·))

/-- SXOR (R92). -/
def execSxor (g : BitVec 4) (d a b : BitVec 6) (s : State) : Host.Outcome State Fault Refusal :=
  s.run (s.salu2 g d a b (· ^^^ ·))

/-- SANDN (R92). -/
def execSandn (g : BitVec 4) (d a b : BitVec 6) (s : State) : Host.Outcome State Fault Refusal :=
  s.run (s.salu2 g d a b (fun x y => x &&& ~~~ y))

/-- SSHL (R92). -/
def execSshl (g : BitVec 4) (d a b : BitVec 6) (s : State) : Host.Outcome State Fault Refusal :=
  s.run (s.salu2 g d a b shl)

/-- SSHR (R92). -/
def execSshr (g : BitVec 4) (d a b : BitVec 6) (s : State) : Host.Outcome State Fault Refusal :=
  s.run (s.salu2 g d a b shr)

/-- SSHRA (R92). -/
def execSshra (g : BitVec 4) (d a b : BitVec 6) (s : State) : Host.Outcome State Fault Refusal :=
  s.run (s.salu2 g d a b shra)

/-- SPOPC (R92). -/
def execSpopc (g : BitVec 4) (d a : BitVec 6) (s : State) : Host.Outcome State Fault Refusal :=
  s.run (s.once g true (fun x => x.setSreg d.toNat (popCount (x.sreg a.toNat))))

/-- SADDI (R93). -/
def execSaddi (g : BitVec 4) (d a : BitVec 6) (i : BitVec 9) (s : State) : Host.Outcome State Fault Refusal :=
  s.run (s.once g true (fun x => x.setSreg d.toNat (x.sreg a.toNat + s.immS i)))

/-- SMOVI (R93). -/
def execSmovi (g : BitVec 4) (d : BitVec 6) (i : BitVec 15) (s : State) : Host.Outcome State Fault Refusal :=
  s.run (s.once g true (fun x => x.setSreg d.toNat (s.immS i)))

/-- SMOV (R94). -/
def execSmov (g : BitVec 4) (d a : BitVec 6) (s : State) : Host.Outcome State Fault Refusal :=
  s.run (s.once g true (fun x => x.setSreg d.toNat (x.sreg a.toNat)))

/-- SMOV64 (R94). -/
def execSmov64 (g : BitVec 4) (d a : BitVec 6) (s : State) : Host.Outcome State Fault Refusal :=
  s.run (s.once g (isPair d.toNat && isPair a.toNat) (fun x => x.setSpair d.toNat (x.sregPair a.toNat)))

/-- SLANE (R94, R96). Its REG_BOUND counts as a cause that the word's uniform operands raise: T is EXM (R301, log entry 8). -/
def execSlane (g : BitVec 4) (d a b : BitVec 6) (s : State) : Host.Outcome State Fault Refusal :=
  s.run (
    let j := (s.sreg b.toNat).toNat % 64
    if !s.uniGuard g then .next s
    else if s.gr.width ≤ j ∨ !(s.st.membership.has j) then .next (s.setSreg d.toNat 0)
    else if (s.lane j).beyond a.toNat then .trap .regBound s.st.exm s
    else .next (s.setSreg d.toNat (s.reg j a.toNat)))

/-- SSET (R97). -/
def execSset (g : BitVec 4) (c : BitVec 2) (p : BitVec 4) (a b : BitVec 6) (f : BitVec 3) (s : State) : Host.Outcome State Fault Refusal :=
  s.run (if s.wide then
      s.once g (decide (p.toNat < 8) && isPair a.toNat && isPair b.toNat)
        (fun x => x.setUpred p.toNat (combine c (x.upred p.toNat) (intCond f (x.sregPair a.toNat) (x.sregPair b.toNat))))
    else
      s.once g (decide (p.toNat < 8))
        (fun x => x.setUpred p.toNat (combine c (x.upred p.toNat) (intCond f (x.sreg a.toNat) (x.sreg b.toNat)))))

/-- QAND (R97). -/
def execQand (g d a b : BitVec 4) (s : State) : Host.Outcome State Fault Refusal :=
  s.run (s.once g (decide (d.toNat < 8) && decide (a.toNat < 9) && decide (b.toNat < 9))
    (fun x => x.setUpred d.toNat (x.upred a.toNat && x.upred b.toNat)))

/-- QOR (R97). -/
def execQor (g d a b : BitVec 4) (s : State) : Host.Outcome State Fault Refusal :=
  s.run (s.once g (decide (d.toNat < 8) && decide (a.toNat < 9) && decide (b.toNat < 9))
    (fun x => x.setUpred d.toNat (x.upred a.toNat || x.upred b.toNat)))

/-- QXOR (R97). -/
def execQxor (g d a b : BitVec 4) (s : State) : Host.Outcome State Fault Refusal :=
  s.run (s.once g (decide (d.toNat < 8) && decide (a.toNat < 9) && decide (b.toNat < 9))
    (fun x => x.setUpred d.toNat (xor (x.upred a.toNat) (x.upred b.toNat))))

/-- QANDN (R97). -/
def execQandn (g d a b : BitVec 4) (s : State) : Host.Outcome State Fault Refusal :=
  s.run (s.once g (decide (d.toNat < 8) && decide (a.toNat < 9) && decide (b.toNat < 9))
    (fun x => x.setUpred d.toNat (x.upred a.toNat && !x.upred b.toNat)))

/-- QNOT (R97). -/
def execQnot (g d a : BitVec 4) (s : State) : Host.Outcome State Fault Refusal :=
  s.run (s.once g (decide (d.toNat < 8) && decide (a.toNat < 9)) (fun x => x.setUpred d.toNat (!x.upred a.toNat)))

/-- QSET (R97). -/
def execQset (g d : BitVec 4) (s : State) : Host.Outcome State Fault Refusal :=
  s.run (s.once g (decide (d.toNat < 8)) (fun x => x.setUpred d.toNat true))

/-- QCLR (R97). -/
def execQclr (g d : BitVec 4) (s : State) : Host.Outcome State Fault Refusal :=
  s.run (s.once g (decide (d.toNat < 8)) (fun x => x.setUpred d.toNat false))

/-- SETIX (R98). -/
def execSetix (g : BitVec 4) (i : BitVec 2) (a : BitVec 6) (s : State) : Host.Outcome State Fault Refusal :=
  s.run (s.once g true (fun x => x.modSt (fun t => { t with ix := t.ix.set i.toNat (x.sreg a.toNat) })))

/-- ADDIX (R98). -/
def execAddix (g : BitVec 4) (i : BitVec 2) (a : BitVec 6) (s : State) : Host.Outcome State Fault Refusal :=
  s.run (s.once g true (fun x => x.modSt (fun t =>
    { t with ix := t.ix.set i.toNat (t.ix.getD i.toNat 0 + x.sreg a.toNat) })))

/-- FMTSET: bits 31:16 read 0 (R30, R108). -/
def execFmtset (g : BitVec 4) (i : BitVec 15) (s : State) : Host.Outcome State Fault Refusal :=
  s.run (s.once g true (fun x => x.modSt (fun t => { t with fmt := s.immZ i &&& 0xFFFF })))

/-- SNOP (R119). -/
def execSnop (s : State) : Host.Outcome State Fault Refusal :=
  s.run (.next s)

/-- YIELD: the stream is the most recently served of its partition and loses its promotion (R215). -/
def execYield (g : BitVec 4) (s : State) : Host.Outcome State Fault Refusal :=
  s.run (s.once g true (fun x => x.modSt (fun t => { t with served := x.dev.clock.toNat, promoted := none })))

end Sys2Proof.Machine
end

