-- ==== Sys2Proof/Machine/Dispatch.lean ====
section
/-!
DEFINITION. The meaning of every constructor of Instr: one direct call each.
-/
namespace Sys2Proof.Machine

def exec (i : Instr) (s : State) : Host.Outcome State Fault Refusal :=
  match i with
  | .iadd g d a b => Sys2Proof.Machine.execIadd g d a b s
  | .isub g d a b => Sys2Proof.Machine.execIsub g d a b s
  | .imin g d a b => Sys2Proof.Machine.execImin g d a b s
  | .imax g d a b => Sys2Proof.Machine.execImax g d a b s
  | .iminn g d a b => Sys2Proof.Machine.execIminn g d a b s
  | .imaxn g d a b => Sys2Proof.Machine.execImaxn g d a b s
  | .iaddmn g d a b => Sys2Proof.Machine.execIaddmn g d a b s
  | .iabsd g d a b => Sys2Proof.Machine.execIabsd g d a b s
  | .imul g d a b => Sys2Proof.Machine.execImul g d a b s
  | .imulh g d a b => Sys2Proof.Machine.execImulh g d a b s
  | .imulhn g d a b => Sys2Proof.Machine.execImulhn g d a b s
  | .imac g d a b => Sys2Proof.Machine.execImac g d a b s
  | .idiv g d a b => Sys2Proof.Machine.execIdiv g d a b s
  | .idivn g d a b => Sys2Proof.Machine.execIdivn g d a b s
  | .irem g d a b => Sys2Proof.Machine.execIrem g d a b s
  | .iremn g d a b => Sys2Proof.Machine.execIremn g d a b s
  | .shl g d a b => Sys2Proof.Machine.execShl g d a b s
  | .shr g d a b => Sys2Proof.Machine.execShr g d a b s
  | .shra g d a b => Sys2Proof.Machine.execShra g d a b s
  | .rotl g d a b => Sys2Proof.Machine.execRotl g d a b s
  | .and g d a b => Sys2Proof.Machine.execAnd g d a b s
  | .or g d a b => Sys2Proof.Machine.execOr g d a b s
  | .xor g d a b => Sys2Proof.Machine.execXor g d a b s
  | .andn g d a b => Sys2Proof.Machine.execAndn g d a b s
  | .orn g d a b => Sys2Proof.Machine.execOrn g d a b s
  | .xnor g d a b => Sys2Proof.Machine.execXnor g d a b s
  | .popc g d a => Sys2Proof.Machine.execPopc g d a s
  | .clz g d a => Sys2Proof.Machine.execClz g d a s
  | .brev g d a => Sys2Proof.Machine.execBrev g d a s
  | .bfe g d a b => Sys2Proof.Machine.execBfe g d a b s
  | .bfen g d a b => Sys2Proof.Machine.execBfen g d a b s
  | .bfi g d a b => Sys2Proof.Machine.execBfi g d a b s
  | .iaddi g d a i_i => Sys2Proof.Machine.execIaddi g d a i_i s
  | .imuli g d a i_i => Sys2Proof.Machine.execImuli g d a i_i s
  | .andi g d a i_i => Sys2Proof.Machine.execAndi g d a i_i s
  | .ori g d a i_i => Sys2Proof.Machine.execOri g d a i_i s
  | .xori g d a i_i => Sys2Proof.Machine.execXori g d a i_i s
  | .shli g d a n => Sys2Proof.Machine.execShli g d a n s
  | .shri g d a n => Sys2Proof.Machine.execShri g d a n s
  | .shrai g d a n => Sys2Proof.Machine.execShrai g d a n s
  | .rotli g d a n => Sys2Proof.Machine.execRotli g d a n s
  | .movi g d i_i => Sys2Proof.Machine.execMovi g d i_i s
  | .mov g d a => Sys2Proof.Machine.execMov g d a s
  | .movs g d a => Sys2Proof.Machine.execMovs g d a s
  | .movp g d => Sys2Proof.Machine.execMovp g d s
  | .pmov g a b => Sys2Proof.Machine.execPmov g a b s
  | .lsr g d b => Sys2Proof.Machine.execLsr g d b s
  | .iset g c p a b f => Sys2Proof.Machine.execIset g c p a b f s
  | .pand g d a b => Sys2Proof.Machine.execPand g d a b s
  | .por g d a b => Sys2Proof.Machine.execPor g d a b s
  | .pxor g d a b => Sys2Proof.Machine.execPxor g d a b s
  | .pandn g d a b => Sys2Proof.Machine.execPandn g d a b s
  | .pnot g d a => Sys2Proof.Machine.execPnot g d a s
  | .pset g d => Sys2Proof.Machine.execPset g d s
  | .pclr g d => Sys2Proof.Machine.execPclr g d s
  | .fadd g d a b => Sys2Proof.Machine.execFadd g d a b s
  | .fsub g d a b => Sys2Proof.Machine.execFsub g d a b s
  | .fmul g d a b => Sys2Proof.Machine.execFmul g d a b s
  | .ffma g d a b => Sys2Proof.Machine.execFfma g d a b s
  | .fmin g d a b => Sys2Proof.Machine.execFmin g d a b s
  | .fmax g d a b => Sys2Proof.Machine.execFmax g d a b s
  | .faddmn g d a b => Sys2Proof.Machine.execFaddmn g d a b s
  | .fnfma g d a b => Sys2Proof.Machine.execFnfma g d a b s
  | .fset g c p a b f => Sys2Proof.Machine.execFset g c p a b f s
  | .hpadd g d a b => Sys2Proof.Machine.execHpadd g d a b s
  | .hpsub g d a b => Sys2Proof.Machine.execHpsub g d a b s
  | .hpmul g d a b => Sys2Proof.Machine.execHpmul g d a b s
  | .hpfma g d a b => Sys2Proof.Machine.execHpfma g d a b s
  | .hpmin g d a b => Sys2Proof.Machine.execHpmin g d a b s
  | .hpmax g d a b => Sys2Proof.Machine.execHpmax g d a b s
  | .frcp g d a => Sys2Proof.Machine.execFrcp g d a s
  | .frsq g d a => Sys2Proof.Machine.execFrsq g d a s
  | .fsqrt g d a => Sys2Proof.Machine.execFsqrt g d a s
  | .fex2 g d a => Sys2Proof.Machine.execFex2 g d a s
  | .flg2 g d a => Sys2Proof.Machine.execFlg2 g d a s
  | .fsin g d a => Sys2Proof.Machine.execFsin g d a s
  | .fcos g d a => Sys2Proof.Machine.execFcos g d a s
  | .ftanh g d a => Sys2Proof.Machine.execFtanh g d a s
  | .cvt g d a u v r => Sys2Proof.Machine.execCvt g d a u v r s
  | .pkh g d a b => Sys2Proof.Machine.execPkh g d a b s
  | .upkl g d a => Sys2Proof.Machine.execUpkl g d a s
  | .upkh g d a => Sys2Proof.Machine.execUpkh g d a s
  | .pkb g d a b => Sys2Proof.Machine.execPkb g d a b s
  | .upkb g d a b => Sys2Proof.Machine.execUpkb g d a b s
  | .pkn g d a b => Sys2Proof.Machine.execPkn g d a b s
  | .upkn g d a b => Sys2Proof.Machine.execUpkn g d a b s
  | .lpermAbs g d a b => Sys2Proof.Machine.execLpermAbs g d a b s
  | .lpermBack g d a b => Sys2Proof.Machine.execLpermBack g d a b s
  | .lpermFwd g d a b => Sys2Proof.Machine.execLpermFwd g d a b s
  | .lpermFlip g d a b => Sys2Proof.Machine.execLpermFlip g d a b s
  | .lany g d a => Sys2Proof.Machine.execLany g d a s
  | .lall g d a => Sys2Proof.Machine.execLall g d a s
  | .lmask g d a => Sys2Proof.Machine.execLmask g d a s
  | .lsame g d a => Sys2Proof.Machine.execLsame g d a s
  | .rdxadd g d a => Sys2Proof.Machine.execRdxadd g d a s
  | .rdxmin g d a => Sys2Proof.Machine.execRdxmin g d a s
  | .rdxmax g d a => Sys2Proof.Machine.execRdxmax g d a s
  | .scanadd g d a => Sys2Proof.Machine.execScanadd g d a s
  | .scanaddx g d a => Sys2Proof.Machine.execScanaddx g d a s
  | .rank g d a => Sys2Proof.Machine.execRank g d a s
  | .count g d a b => Sys2Proof.Machine.execCount g d a b s
  | .frdxadd g d a => Sys2Proof.Machine.execFrdxadd g d a s
  | .ld g t a b z m => Sys2Proof.Machine.execLd g t a b z m s
  | .st g t a b z m => Sys2Proof.Machine.execSt g t a b z m s
  | .lds g t a z m => Sys2Proof.Machine.execLds g t a z m s
  | .sts g t a z m => Sys2Proof.Machine.execSts g t a z m s
  | .atom g t a b o u => Sys2Proof.Machine.execAtom g t a b o u s
  | .red g t a b o u => Sys2Proof.Machine.execRed g t a b o u s
  | .satom g t a o u => Sys2Proof.Machine.execSatom g t a o u s
  | .objcall g d a h m => Sys2Proof.Machine.execObjcall g d a h m s
  | .bra g o => Sys2Proof.Machine.execBra g o s
  | .brau g o => Sys2Proof.Machine.execBrau g o s
  | .joinat g o => Sys2Proof.Machine.execJoinat g o s
  | .call g o => Sys2Proof.Machine.execCall g o s
  | .callr g a => Sys2Proof.Machine.execCallr g a s
  | .callrU a => Sys2Proof.Machine.execCallrU a s
  | .ret g => Sys2Proof.Machine.execRet g s
  | .frame n => Sys2Proof.Machine.execFrame n s
  | .exit g => Sys2Proof.Machine.execExit g s
  | .bsync g n => Sys2Proof.Machine.execBsync g n s
  | .barv g n => Sys2Proof.Machine.execBarv g n s
  | .bwait g n => Sys2Proof.Machine.execBwait g n s
  | .xld g d i_i k => Sys2Proof.Machine.execXld g d i_i k s
  | .xst g d i_i k => Sys2Proof.Machine.execXst g d i_i k s
  | .trap g n => Sys2Proof.Machine.execTrap g n s
  | .bkpt g c => Sys2Proof.Machine.execBkpt g c s
  | .objret g a => Sys2Proof.Machine.execObjret g a s
  | .objretErr g a => Sys2Proof.Machine.execObjretErr g a s
  | .extImmediate i_i => Sys2Proof.Machine.execExtImmediate i_i s
  | .extOperand c i_s w n f m => Sys2Proof.Machine.execExtOperand c i_s w n f m s
  | .sadd g d a b => Sys2Proof.Machine.execSadd g d a b s
  | .ssub g d a b => Sys2Proof.Machine.execSsub g d a b s
  | .smin g d a b => Sys2Proof.Machine.execSmin g d a b s
  | .smax g d a b => Sys2Proof.Machine.execSmax g d a b s
  | .sminn g d a b => Sys2Proof.Machine.execSminn g d a b s
  | .smaxn g d a b => Sys2Proof.Machine.execSmaxn g d a b s
  | .smul g d a b => Sys2Proof.Machine.execSmul g d a b s
  | .smulh g d a b => Sys2Proof.Machine.execSmulh g d a b s
  | .sand g d a b => Sys2Proof.Machine.execSand g d a b s
  | .sor g d a b => Sys2Proof.Machine.execSor g d a b s
  | .sxor g d a b => Sys2Proof.Machine.execSxor g d a b s
  | .sandn g d a b => Sys2Proof.Machine.execSandn g d a b s
  | .sshl g d a b => Sys2Proof.Machine.execSshl g d a b s
  | .sshr g d a b => Sys2Proof.Machine.execSshr g d a b s
  | .sshra g d a b => Sys2Proof.Machine.execSshra g d a b s
  | .spopc g d a => Sys2Proof.Machine.execSpopc g d a s
  | .saddi g d a i_i => Sys2Proof.Machine.execSaddi g d a i_i s
  | .smovi g d i_i => Sys2Proof.Machine.execSmovi g d i_i s
  | .smov g d a => Sys2Proof.Machine.execSmov g d a s
  | .smov64 g d a => Sys2Proof.Machine.execSmov64 g d a s
  | .srd g d r => Sys2Proof.Machine.execSrd g d r s
  | .swr g d r => Sys2Proof.Machine.execSwr g d r s
  | .slane g d a b => Sys2Proof.Machine.execSlane g d a b s
  | .sset g c p a b f => Sys2Proof.Machine.execSset g c p a b f s
  | .qand g d a b => Sys2Proof.Machine.execQand g d a b s
  | .qor g d a b => Sys2Proof.Machine.execQor g d a b s
  | .qxor g d a b => Sys2Proof.Machine.execQxor g d a b s
  | .qandn g d a b => Sys2Proof.Machine.execQandn g d a b s
  | .qnot g d a => Sys2Proof.Machine.execQnot g d a s
  | .qset g d => Sys2Proof.Machine.execQset g d s
  | .qclr g d => Sys2Proof.Machine.execQclr g d s
  | .sbra g o => Sys2Proof.Machine.execSbra g o s
  | .jseg g o => Sys2Proof.Machine.execJseg g o s
  | .sld g t a b z m => Sys2Proof.Machine.execSld g t a b z m s
  | .sst g t a b z m => Sys2Proof.Machine.execSst g t a b z m s
  | .tbset g n a b => Sys2Proof.Machine.execTbset g n a b s
  | .fence g i_s k y => Sys2Proof.Machine.execFence g i_s k y s
  | .fmtset g i_i => Sys2Proof.Machine.execFmtset g i_i s
  | .setix g i_i a => Sys2Proof.Machine.execSetix g i_i a s
  | .addix g i_i a => Sys2Proof.Machine.execAddix g i_i a s
  | .barinit g n u b => Sys2Proof.Machine.execBarinit g n u b s
  | .cpG2s g d a => Sys2Proof.Machine.execCpG2s g d a s
  | .cpS2g g d a => Sys2Proof.Machine.execCpS2g g d a s
  | .cpG2g g d a => Sys2Proof.Machine.execCpG2g g d a s
  | .cpGath g d a => Sys2Proof.Machine.execCpGath g d a s
  | .cpReg g d a => Sys2Proof.Machine.execCpReg g d a s
  | .cpAcc g d a => Sys2Proof.Machine.execCpAcc g d a s
  | .cpMma g d a => Sys2Proof.Machine.execCpMma g d a s
  | .bfc g d => Sys2Proof.Machine.execBfc g d s
  | .bfm g d => Sys2Proof.Machine.execBfm g d s
  | .waitc g a => Sys2Proof.Machine.execWaitc g a s
  | .waitm g a => Sys2Proof.Machine.execWaitm g a s
  | .mma g d a => Sys2Proof.Machine.execMma g d a s
  | .mmag g d a b => Sys2Proof.Machine.execMmag g d a b s
  | .mmaf g => Sys2Proof.Machine.execMmaf g s
  | .accz g t n => Sys2Proof.Machine.execAccz g t n s
  | .accrd g d t c => Sys2Proof.Machine.execAccrd g d t c s
  | .accrs g t a => Sys2Proof.Machine.execAccrs g t a s
  | .mmv g d a => Sys2Proof.Machine.execMmv g d a s
  | .cfetch g a => Sys2Proof.Machine.execCfetch g a s
  | .cinv g i_s a => Sys2Proof.Machine.execCinv g i_s a s
  | .objdef g d a => Sys2Proof.Machine.execObjdef g d a s
  | .objdel g a => Sys2Proof.Machine.execObjdel g a s
  | .objend g => Sys2Proof.Machine.execObjend g s
  | .launch g d a => Sys2Proof.Machine.execLaunch g d a s
  | .cntinc g d a l => Sys2Proof.Machine.execCntinc g d a l s
  | .cntwait g a l => Sys2Proof.Machine.execCntwait g a l s
  | .cancel g a l => Sys2Proof.Machine.execCancel g a l s
  | .cntrd g d a l => Sys2Proof.Machine.execCntrd g d a l s
  | .credSum g d a => Sys2Proof.Machine.execCredSum g d a s
  | .credMax g d a => Sys2Proof.Machine.execCredMax g d a s
  | .credMin g d a => Sys2Proof.Machine.execCredMin g d a s
  | .syscall g i_i => Sys2Proof.Machine.execSyscall g i_i s
  | .walknext g d a => Sys2Proof.Machine.execWalknext g d a s
  | .tlbfill g a b => Sys2Proof.Machine.execTlbfill g a b s
  | .tlbdone g a b => Sys2Proof.Machine.execTlbdone g a b s
  | .tlbinv g a b => Sys2Proof.Machine.execTlbinv g a b s
  | .atsreq g a b => Sys2Proof.Machine.execAtsreq g a b s
  | .prireq g a => Sys2Proof.Machine.execPrireq g a s
  | .rft g => Sys2Proof.Machine.execRft g s
  | .tkill g => Sys2Proof.Machine.execTkill g s
  | .tend g => Sys2Proof.Machine.execTend g s
  | .yield g => Sys2Proof.Machine.execYield g s
  | .jsegr g a => Sys2Proof.Machine.execJsegr g a s
  | .loadSectorReturn sid => Sys2Proof.Machine.execLoadSectorReturn sid s
  | .storePerform id => Sys2Proof.Machine.execStorePerform id s
  | .atomicPerform id => Sys2Proof.Machine.execAtomicPerform id s
  | .quantumRedFlush sid => Sys2Proof.Machine.execQuantumRedFlush sid s
  | .invalidationCompletion id => Sys2Proof.Machine.execInvalidationCompletion id s
  | .fragmentResume sid => Sys2Proof.Machine.execFragmentResume sid s
  | .handlerEntryResume sid => Sys2Proof.Machine.execHandlerEntryResume sid s
  | .demandSpillDone sid => Sys2Proof.Machine.execDemandSpillDone sid s
  | .commandAccept id => Sys2Proof.Machine.execCommandAccept id s
  | .copyComplete id => Sys2Proof.Machine.execCopyComplete id s
  | .matrixOperation gid => Sys2Proof.Machine.execMatrixOperation gid s
  | .jointMmaStart id => Sys2Proof.Machine.execJointMmaStart id s
  | .mmagEntry id => Sys2Proof.Machine.execMmagEntry id s
  | .cpMmaHandoff id => Sys2Proof.Machine.execCpMmaHandoff id s
  | .mmvComplete id => Sys2Proof.Machine.execMmvComplete id s
  | .overlayFetchComplete core ctx va => Sys2Proof.Machine.execOverlayFetchComplete core ctx va s
  | .entrySegmentFetch uid => Sys2Proof.Machine.execEntrySegmentFetch uid s
  | .objcallSend sid => Sys2Proof.Machine.execObjcallSend sid s
  | .objectRequestArrival id => Sys2Proof.Machine.execObjectRequestArrival id s
  | .conjugatorBatchStart die => Sys2Proof.Machine.execConjugatorBatchStart die s
  | .methodFaultRerun sid => Sys2Proof.Machine.execMethodFaultRerun sid s
  | .objectReplyArrival id => Sys2Proof.Machine.execObjectReplyArrival id s
  | .objdelAtHome ctx handle => Sys2Proof.Machine.execObjdelAtHome ctx handle s
  | .recordValidation ctx queue => Sys2Proof.Machine.execRecordValidation ctx queue s
  | .launchRecordRead id => Sys2Proof.Machine.execLaunchRecordRead id s
  | .launchFire ctx => Sys2Proof.Machine.execLaunchFire ctx s
  | .unitPlacement lid => Sys2Proof.Machine.execUnitPlacement lid s
  | .groupEnd gid => Sys2Proof.Machine.execGroupEnd gid s
  | .launchComplete lid => Sys2Proof.Machine.execLaunchComplete lid s
  | .credContributionArrival id => Sys2Proof.Machine.execCredContributionArrival id s
  | .exmWrite hi v => Sys2Proof.Machine.execExmWrite hi v s
  | .unifstkClear v => Sys2Proof.Machine.execUnifstkClear v s
  | .ecntLowRead n => Sys2Proof.Machine.execEcntLowRead n s
  | .streamPromotion sid => Sys2Proof.Machine.execStreamPromotion sid s
  | .atsCompletion sid lane addr status => Sys2Proof.Machine.execAtsCompletion sid lane addr status s
  | .priResponse ctx va success => Sys2Proof.Machine.execPriResponse ctx va success s
  | .atsInvalidationRequest pasid va pages => Sys2Proof.Machine.execAtsInvalidationRequest pasid va pages s
  | .pageFaultRepair ctx va answer => Sys2Proof.Machine.execPageFaultRepair ctx va answer s
  | .pageMigration ctx va frame => Sys2Proof.Machine.execPageMigration ctx va frame s
  | .backgroundSpill gid lane => Sys2Proof.Machine.execBackgroundSpill gid lane s
  | .backgroundRefill gid lane => Sys2Proof.Machine.execBackgroundRefill gid lane s
  | .copyPageFault id va => Sys2Proof.Machine.execCopyPageFault id va s
  | .copyResume id => Sys2Proof.Machine.execCopyResume id s
  | .cinvDeferredDrop core => Sys2Proof.Machine.execCinvDeferredDrop core s
  | .objectBatchWatchdog sid => Sys2Proof.Machine.execObjectBatchWatchdog sid s
  | .doorbellDmwr page off pasid data => Sys2Proof.Machine.execDoorbellDmwr page off pasid data s
  | .doorbellPostedWrite page off => Sys2Proof.Machine.execDoorbellPostedWrite page off s
  | .stealMessage lid die => Sys2Proof.Machine.execStealMessage lid die s
  | .syscallReply uid status value => Sys2Proof.Machine.execSyscallReply uid status value s
  | .peerAccess dev num m => Sys2Proof.Machine.execPeerAccess dev num m s
  | .linkFlitFailure port passed => Sys2Proof.Machine.execLinkFlitFailure port passed s
  | .preemptRequest uid area => Sys2Proof.Machine.execPreemptRequest uid area s
  | .unitRestart uid die core => Sys2Proof.Machine.execUnitRestart uid die core s
  | .contextSwitch ctx areas => Sys2Proof.Machine.execContextSwitch ctx areas s
  | .cancelTimeout sid => Sys2Proof.Machine.execCancelTimeout sid s
  | .preciseStop uid area => Sys2Proof.Machine.execPreciseStop uid area s
  | .singleStep uid die core => Sys2Proof.Machine.execSingleStep uid die core s
  | .traceDrain cluster => Sys2Proof.Machine.execTraceDrain cluster s
  | .gateDrainTimeout cluster => Sys2Proof.Machine.execGateDrainTimeout cluster s
  | .clusterIdleGate cluster => Sys2Proof.Machine.execClusterIdleGate cluster s
  | .clusterWake cluster => Sys2Proof.Machine.execClusterWake cluster s
  | .powerMeasurement watts => Sys2Proof.Machine.execPowerMeasurement watts s
  | .coldStart report => Sys2Proof.Machine.execColdStart report s
  | .warmStart report => Sys2Proof.Machine.execWarmStart report s
  | .attestationRequest nonce ctx => Sys2Proof.Machine.execAttestationRequest nonce ctx s
  | .leaderTakeover die => Sys2Proof.Machine.execLeaderTakeover die s
  | .lockstepMismatch die => Sys2Proof.Machine.execLockstepMismatch die s
  | .uncorrectableError site => Sys2Proof.Machine.execUncorrectableError site s
  | .patrolScrub die corrected => Sys2Proof.Machine.execPatrolScrub die corrected s
  | .watchdogExpiry sid => Sys2Proof.Machine.execWatchdogExpiry sid s
  | .contextTeardown ctx => Sys2Proof.Machine.execContextTeardown ctx s
  | .codeObjectLoad ctx base frames image => Sys2Proof.Machine.execCodeObjectLoad ctx base frames image s
  | .retranslationInstall ctx entry r => Sys2Proof.Machine.execRetranslationInstall ctx entry r s
  | .tileCommandComplete gid => Sys2Proof.Machine.execTileCommandComplete gid s
  | .counterSnapshotRequest r => Sys2Proof.Machine.execCounterSnapshotRequest r s
  | .confidentialContextRequest ctx => Sys2Proof.Machine.execConfidentialContextRequest ctx s
  | .nop => Sys2Proof.Machine.execNop s
  | .hint => Sys2Proof.Machine.execHint s
  | .snop => Sys2Proof.Machine.execSnop s
  | .clockLowRead => Sys2Proof.Machine.execClockLowRead s
  | .clauseFetch => Sys2Proof.Machine.execClauseFetch s
  | .migrationWindowEnd => Sys2Proof.Machine.execMigrationWindowEnd s
  | .thermalForcedGate => Sys2Proof.Machine.execThermalForcedGate s
  | .thermalShutdown => Sys2Proof.Machine.execThermalShutdown s
  | .heartbeatWrite => Sys2Proof.Machine.execHeartbeatWrite s

end Sys2Proof.Machine
end

