-- ==== Sys2Proof/Machine/Schedule.lean ====
section
/-!
DEFINITION. Which activity comes next (R132, R141, R294; log entry 1), breakpoints (R373), the fetch of a word of the running clause, and what each cycle counts (R376).
-/
namespace Sys2Proof.Machine

/-- A stream that may issue: runnable, or waiting to complete a handler entry whose faults are settled; single steps used up hold it (R374). -/
def Stream.ready (x : Stream) : Bool :=
  x.sid != 0 && x.step != some 0 && (x.status = .runnable || (x.status = .entryParked && x.faults.isEmpty))

/-- Whether a stream is runnable: it can issue, or its next instruction is held at issue (R376, log entry 78). -/
def Stream.mayRun (x : Stream) : Bool := x.ready || x.heldAtIssue

/-- Whether a stream is a fragment's. -/
def Stream.isFragment (x : Stream) : Bool :=
  match x.kind with
  | .fragment _ => true
  | _ => false

/-- Whether a stream may run beside its group's fragments: up to 8 of these are runnable at once, and one that finds 8 running waits; those that wait start as their faults were repaired (R132, R294). -/
def State.inWindow (s : State) (x : Stream) : Bool :=
  !x.isFragment || x.admitted ||
    decide ((s.allStreams.filter (fun y => y.gid == x.gid && y.isFragment && y.mayRun &&
      (y.admitted || decide (y.repair < x.repair) || (y.repair == x.repair && decide (y.sid < x.sid))))).length < 8)

/-- Whether a stream may issue where it stands: a gated cluster issues nothing (R393), nor does a unit that is being saved (R312) or a batch of a suspended context at rest (R254, R317). -/
def State.awake (s : State) (x : Stream) : Bool :=
  match s.allGroups.find? (fun g => g.gid == x.gid) with
  | none => true
  | some g =>
    !(g.uid != 0 && s.clusters.any (fun c => c.cluster == clusterOf g.coreId && c.gated)) &&
      !(s.allUnits.any (fun u => u.live && u.uid == g.uid && u.saving.isSome)) &&
      (x.wave.isNone || !s.batchesRest g.ctx)

/-- The order of R141: promoted streams first, as they were promoted; then the least recently served; then the oldest. -/
def Stream.before (x y : Stream) : Bool :=
  match x.promoted, y.promoted with
  | some a, some b => decide (a ≤ b)
  | some _, .none => true
  | .none, some _ => false
  | .none, .none => decide (x.served < y.served) || (x.served == y.served && decide (x.sid ≤ y.sid))

/-- The stream that issues next. A prefix and its word issue as one instruction (R138), so a stream inside a pair goes on. -/
def State.chosen (s : State) : Option Stream :=
  match s.allStreams.find? (fun x => x.ext.isSome && x.ready && s.awake x) with
  | some x => some x
  | none =>
    match s.allStreams.filter (fun x => x.ready && s.inWindow x && s.awake x) with
    | [] => none
    | x :: r => some (r.foldl (fun a b => if a.before b then a else b) x)

/-- The breakpoints that match the instruction at which the issuing stream stands, bit n for breakpoint n (R373, R381). -/
def State.breakpoints (s : State) : BitVec 8 :=
  let live : Bool := !s.st.isPriv && (match s.st.kind with
    | .wave _ => false
    | _ => true)
  if !live || s.st.ext.isSome || !s.debuggable s.gr.ctx then 0
  else
    match s.coreRec s.gr.coreId with
    | none => 0
    | some c => (List.range 8).foldl (fun b n =>
        let p := c.breaks.getD n ⟨0, false, 0⟩
        if p.en && p.va == s.st.pc && p.ctx.toNat == s.gr.ctx then b ||| ((1#8) <<< n) else b) 0

/-- TINSTR of a breakpoint match: the word of the instruction, which for a pair is the prefixed word (R304, R373). -/
def State.matchedWord (s : State) : Word :=
  let w := (s.codeWord s.st.pc).getD 0
  if w.extractLsb' 25 6 = 0x3F then (s.codeWord (s.st.pc + 4)).getD 0 else w

/-- What the issuing stream does next, as a trap taken at issue, a wait, or the instruction word it runs. -/
inductive Issue where
  | done (s : State)
  | run (i : Instr) (s : State)
deriving DecidableEq, Repr

/-- Whether an instruction word names a scalar register: one of a few from its D or B field on, of the 16 of a descriptor from its A field on, or the source of MOVS (R86); or, in the lane set, the pair that LMASK writes (R145). -/
def namesScalar (w : Word) (n : Nat) : Bool :=
  let from_ : Nat → Nat → Bool := fun lo k =>
    let f := (w.extractLsb' lo 6).toNat
    decide (f ≤ n) && decide (n < f + k)
  if w.getLsbD 31 then from_ 15 4 || from_ 9 16 || from_ 3 4 else (w.extractLsb' 25 6 == 0x0D && w.extractLsb' 0 3 == 1 && from_ 9 1) || (w.extractLsb' 25 6 == 0x17 && w.extractLsb' 0 3 == 2 && from_ 15 2)

/-- The LAUNCH that has still to write a scalar register which the next instruction names (R286). -/
def State.owedTo (s : State) (w : Word) : Option Nat := (s.st.owed.find? (fun o => namesScalar w o.1)).map (·.2)

/-- Whether a word may not stand in the issuing stream at all, and the cause that it raises: a privileged one in a stream that is not privileged (R321), or in a method (R250), and one of the lane set in a service pair (R387). -/
def State.barred (s : State) (w : Word) : Option Cause :=
  if privilegedWord w && !s.st.isPriv then some (if s.isWave then .illegal else .priv)
  else if s.st.kind = .pair ∧ !w.getLsbD 31 ∧ w.extractLsb' 25 6 ≠ 0x3F then some .illegal
  else none

/-- The issuing stream finds the segment of its next word absent: a method's is fetched (R248), one that is on its way is waited for (R242), a handler's is fetched (R306), and another stream traps (R244). -/
def State.codeAbsent (s : State) : State :=
  if s.isWave then State.finish s false (s.fetchMethod (segOf s.st.pc))
  else if s.fetching s.st.pc then s.modSt (fun x => { x with status := .waitFetch (segOf x.pc) })
  else if s.st.privileged then s.handlerFetch s.st.pc
  else s.takeTrap .segAbsent s.st.exm [] { TrapInfo.plain with cmdPc := BitVec.ofNat 57 (segOf s.st.pc), instr := some 0 }

/-- A breakpoint that matches: BKPT for EXM, recorded (R373, R377), once nothing holds the entry back (R286). -/
def State.breakHere (s : State) : State :=
  let t := if s.owedBank.isSome then s else s.trace s.gr.coreId s.gr.ctx 3 s.traceName [s.breakpoints.setWidth 32]
  t.takeTrap .bkpt t.st.exm [] { TrapInfo.plain with dbgst := s.breakpoints, instr := some s.matchedWord }

/-- The fetch of a word of the running clause, with the checks that come before the instruction's own: the segment (R244), breakpoints (R373), privilege (R321) and an assigned encoding (R47). An instruction that names what a LAUNCH has still to write waits (R286). -/
def State.fetchWord (s : State) : Issue :=
  if s.st.fresh && !s.segPresent s.st.pc then .done s.codeAbsent
  else
    let s := s.enterSlot
    if s.breakpoints ≠ 0 then .done s.breakHere
    else
      match s.codeWord s.st.pc with
      | none => .done s.codeAbsent
      | some w =>
        match s.barred w with
        | some c => .done (s.takeTrap c s.st.exm [] TrapInfo.plain)
        | none =>
          match decode w, s.owedTo w with
          | .error _, _ => .done (s.takeTrap .illegal s.st.exm [] TrapInfo.plain)
          | .ok _, some id => .done (s.modSt (fun x => { x with status := .waitAccept id }))
          | .ok i, none => .run i s

/-- The chosen stream brought up to its next instruction (R141). -/
def State.issue (s : State) (x : Stream) : Issue :=
  let s1 := s.focus x.sid
  let waits : Bool := match s1.st.wave with
    | some w => !w.started
    | none => false
  if waits then .done s1.startBatch
  else if s1.st.edged then .done (s1.takeTrap .segEdge s1.st.exm [] { TrapInfo.plain with instr := some 0 })
  else if s1.st.status = .entryParked then .done s1.completeEntry
  else if s1.st.pos = 0 then .done s1.fetchClause
  else s1.fetchWord

/-- Whether some stream of a group has a property. -/
def State.someStream (s : State) (g : Group) (p : Stream → Bool) : Bool := s.allStreams.any (fun x => x.gid == g.gid && p x)

/-- Whether a flag of a stream counts a load, a store or an atomic that has not completed. -/
def State.countsMemory (s : State) (x : Stream) (f : Nat) : Bool :=
  x.loads.any (fun r => r.flag == some f) || x.heldFlags.contains f || s.stores.any (fun p => x.owns p.sid p.id && p.flag == some f) ||
    s.atomics.any (fun p => x.owns p.sid p.id && p.flags.contains f)

/-- The flags that a stream waits for at a clause WAIT, or before it arrives (R18, R293). -/
def State.awaited (s : State) (g : Group) (x : Stream) : List Nat :=
  let h : Word := ((s.slotOf x g.coreId g.ctx (segOf x.pc)).map (fun o => sparseGet 0#32 o.words (x.pc.toNat % 4096 / 4 * 4))).getD 0
  (List.range 12).filter (fun f => x.pending.getLsbD f && (x.exm == 0 || (hdrWait h).getLsbD f))

/-- The stall class of a cycle for a resident group (R376), counted from 0. -/
def State.stallClass (s : State) (issued : Nat) (g : Group) : Nat :=
  let runs := s.someStream g Stream.mayRun
  if g.gid = issued then 1
  else if !runs && s.someStream g (fun x => decide (x.status = .parked ∨ x.status = .entryParked ∨ x.status = .waitJoin)) then 2
  else if s.someStream g (fun x => decide (x.status = .waitSpill)) then 3
  else if !runs && s.someStream g (fun x => match x.status with
      | .waitBarrier _ | .waitSyscall => true
      | _ => false) then 4
  else if s.someStream g (fun x => match x.status with
      | .waitCopy _ | .waitMatrix _ | .waitCounter _ _ | .waitReplies => true
      | .waitFlags => (s.awaited g x).any (fun f => !s.countsMemory x f)
      | _ => false) then 5
  else if s.someStream g (fun x => x.atLimit || !x.loads.isEmpty || (match x.status with
      | .waitFlags | .waitWalk | .waitPeer | .waitOrder => true
      | _ => false)) then 6
  else 7

/-- The clusters after a cycle: one with a resident group is not idle (R393). -/
def State.tickClusters (s : State) (now : Nat) : List Cluster :=
  s.clusters.map (fun c =>
    if s.allGroups.any (fun g => g.live && g.uid != 0 && clusterOf g.coreId == c.cluster) then { c with idleSince := now } else c)

/-- What a clock value makes due: the power measurement each 60,000 cycles (R394), the leader's heartbeat each 600,000 (R389), and the end of a migration window each 65,536 (R171). -/
def State.onClock (s : State) : State :=
  let n := s.dev.clock.toNat
  let s0 := if n % 60000 = 0 ∧ s.dev.phase = .running then (s.measurePower (Config.power s.free)).useFree 1 else s
  let s1 := if n % 600000 = 0 ∧ s.dev.phase = .running then s0.post .heartbeatWrite else s0
  if n % 65536 = 0 ∧ s1.pageCounts ≠ [] then s1.post .migrationWindowEnd else s1

/-- One cycle: what it has done to the registers of open matrix commands (R235) and to pages that were to become undefined (R229), how long each stream has been runnable without issuing (R141), which fragments run (R294), CLOCK and what it makes due, the stall counters of every placed group (R376), the cycle event (R379), and quantum REDs held for 256 cycles (R196). issued: the group whose stream issued, 0 if none did. -/
def State.tick (s : State) (issued : Nat) : State :=
  let s0 := s.settleSpoils.watchRegisters.mapStreams (fun x =>
    { x with idle := if x.status = .runnable ∧ x.served ≠ s.dev.clock.toNat then x.idle + 1 else 0,
             admitted := x.isFragment && x.mayRun && s.inWindow x })
  let s1 := s0.mapGroups (fun g =>
    if g.live && g.uid != 0 then { g with stalls := g.stalls.modify (s0.stallClass issued g) (· + 1) } else g)
  let s2 : State := { s1 with
    cores := s1.cores.map (fun c => { c with ecnt := bump 1 1 c.ecsel c.ecnt }),
    clusters := s1.tickClusters (s1.dev.clock + 1).toNat,
    dev := { s1.dev with clock := s1.dev.clock + 1 } }
  let late := (s2.allStreams.filter (fun x =>
    x.held.any (fun h => decide (h.since + 256 ≤ s2.dev.clock.toNat)) &&
      !s2.events.any (fun e => match e with
        | .quantumRedFlush n => n == x.sid
        | _ => false))).map (·.sid)
  (late.foldl (fun t n => t.post (.quantumRedFlush n)) s2.onClock).dropMarked

end Sys2Proof.Machine
end

