-- ==== Sys2Proof/Machine/Due.lean ====
section
/-!
DEFINITION. The work that the passing of time or the state of the machine makes due with no event of its own (log entry 1): starts, CANCELs, saves, entry fetches and peers' accesses that can go on, watchdogs, clusters, leadership and promotions.
-/
namespace Sys2Proof.Machine

/-- A unit that a save waits for and that can be saved, or that has stepped (R312, R374). -/
def State.savable (s : State) (u : UnitRec) : Bool := s.stepped u || (u.live && u.saving.isSome && u.saveWait.isNone && s.settled u.uid)

/-- A wave that has run for 2^20 cycles (R252); the time of one that rests does not pass, since its batch runs again from its start (R254, R317). -/
def State.lateWave (s : State) : Option Stream :=
  s.allStreams.find? (fun x => match x.wave with
    | some w => w.started && decide (w.start + 2 ^ 20 ≤ s.dev.clock.toNat) && s.awake x
    | none => false)

/-- A stream that is due to be promoted (R141). DESIGN CHOICE, log entry 82: of several that reach 256 cycles together the first of the list of streams comes first, the one in focus before the others. -/
def State.unserved (s : State) : Option Stream :=
  s.allStreams.find? (fun x => x.sid != 0 && decide (x.status = .runnable) && x.promoted.isNone && decide (256 ≤ x.idle) &&
    s.awake x)

/-- What is due for a cluster: its wake, a record to drain, its gating (R377, R380, R393). -/
def State.clusterWork (s : State) (c : Cluster) : Option (Host.Outcome State Fault Refusal) :=
  if c.gated then (if c.wakeAt ≠ 0 ∧ c.wakeAt ≤ s.dev.clock.toNat then some (execClusterWake c.cluster s) else none)
  else if !c.trace.isEmpty && c.ringCap != 0 then some (execTraceDrain c.cluster s)
  else if s.idle c 6000 && c.trace.isEmpty then some (execClusterIdleGate c.cluster s)
  else if s.idle c 36000 then some (execGateDrainTimeout c.cluster s)
  else none

/-- The work that is due, the first that the list finds. -/
def State.dueWork (s : State) : Option (Host.Outcome State Fault Refusal) :=
  if s.dev.phase = .reset then some (execColdStart (Config.starts (s.dev.boots + s.dev.failures)) s)
  else
    match s.cancelsDue with
    | n :: _ => some (execCancelTimeout n s)
    | [] =>
      if s.allUnits.any s.allStopped then some (.next s.dropStopped)
      else if s.allUnits.any s.savable || s.saved.any s.restartable then some (.next s.savesDue)
      else
        match s.lateWave, s.heldFetch, s.askDue with
        | some x, _, _ => some (execObjectBatchWatchdog x.sid s)
        | none, some u, _ => some (execEntrySegmentFetch u.uid s)
        | none, none, some a => some (.next (s.serveAsk a))
        | none, none, none =>
          match s.clusters.findSome? s.clusterWork with
          | some o => some o
          | none =>
            match (List.range Config.dies).find? s.claims with
            | some d => some (execLeaderTakeover d s)
            | none => s.unserved.map (fun x => execStreamPromotion x.sid s)

end Sys2Proof.Machine
end

