-- ==== Sys2Proof/Machine/Step.lean ====
section
/-!
DEFINITION. One step of the machine (log entry 1): the first due event, else the work that time has made due (the cold start at reset), else the next instruction of the chosen stream; and the cycle it takes.
-/
namespace Sys2Proof.Machine

/-- The cycle that an event or due work takes. -/
def cycle (o : Host.Outcome State Fault Refusal) : Host.Outcome State Fault Refusal :=
  match o with
  | .next s => .next (s.tick 0)
  | .fault f => .fault f
  | .refused r => .refused r

/-- The cycle of an instruction of a group's stream, which it serves and whose promotion is used up (R141); one that is held at issue has not issued (R181, R376). -/
def issueCycle (sid gid : Nat) (o : Host.Outcome State Fault Refusal) : Host.Outcome State Fault Refusal :=
  match o with
  | .next s =>
    if s.st.sid = sid ∧ (s.st.atLimit ∨ s.st.heldAtIssue = true) then .next (s.tick 0)
    else .next ((s.modStream sid (fun x => { x with served := s.dev.clock.toNat, promoted := none })).tick gid)
  | .fault f => .fault f
  | .refused r => .refused r

/-- Whether the power throttle lets partitions issue in this cycle: always, while the measured power is not above the cap; else in the first cycles of every 64 (R394, log entry 55). -/
def State.mayIssue (s : State) : Bool := decide (s.dev.power ≤ s.dev.cap) || decide (s.dev.clock.toNat % 64 < s.dev.throttle)

/-- The instruction of the chosen stream, or an idle cycle. -/
def State.issueStep (s : State) : Host.Outcome State Fault Refusal :=
  match (if s.mayIssue then s.chosen else none) with
  | none => .next (s.tick 0)
  | some x =>
    match s.issue x with
    | .done t => .next (t.tick 0)
    | .run i t => issueCycle x.sid x.gid (exec i t)

/-- One step. -/
def step (s : State) : Host.Outcome State Fault Refusal :=
  match s.dev.phase with
  | .stopped => .fault .moduleStopped
  | _ =>
    match s.events with
    | i :: r => cycle (exec i { s with events := r })
    | [] =>
      match s.dueWork with
      | some o => cycle o
      | none => s.issueStep

/-- The group that withFetchWord places: one lane of width 8 on core 0 of die 0. -/
def fetchGroup : Group :=
  { Group.none with gid := 1, uid := 1, ctx := 1, alive := 1, live := true }

/-- The unit that withFetchWord places. -/
def fetchUnit : UnitRec :=
  { UnitRec.none with uid := 1, ctx := 1, threads := 1, cores := [⟨0, 0, 0, [], [], []⟩], live := true }

/-- s with the instruction word w in the overlay slot of a running group, the next word of a clause that a program's launch has brought there (log entry 3). A lone prefix word has a word of zeros after it. -/
def State.withFetchWord (s : State) (nbits w : Nat) : State :=
  if nbits = 0 then s
  else
    let x : Word := BitVec.ofNat 32 w
    let n := if x.extractLsb' 25 6 = 0x3F then 2 else 1
    let h : Word := BitVec.ofNat 32 (n * 2 ^ 28 + 0xFF00)
    { s with
      dev := { s.dev with phase := .running }
      events := []
      st := { Stream.start 1 1 .home 4 1 with hdr := h, pos := 1 }
      nextId := max s.nextId 2
      gr := fetchGroup
      un := fetchUnit
      streams := []
      overlays := [{ core := 0, ctx := 1, va := 0, words := (0, h) :: (if x = 0 then [] else [(4, x)]), marked := false, used := 0 }] }

end Sys2Proof.Machine
end

