-- ==== Sys2Proof/Safety.lean ====
section
/-!
DEFINITION. The terms of the claims: what it is for an instruction to retire with an effect, and what every step keeps.
-/
namespace Sys2Proof.Machine

/-- The state in which the issuing stream has retired its instruction with the effect that u holds; before is the state in which it issued. n: R310 names the instruction, so a restart point follows it (R309). Beside u, only the issuing stream's place and the event counters change. -/
def State.retired (u before : State) (n : Bool) : State :=
  let t := { u with st := u.st.retire.onward, cores := (u.countRetired before).cores }
  if n then t.markRestart else t

/-- The issuing stream has lanes and no load or atomic outstanding whose values its registers get, which the next instruction would wait for (R21, R203; log entry 2), and the word after its instruction is not past the end of its segment (R45, R127). -/
def State.goesOn (s : State) : Bool :=
  decide (s.st.exm ≠ 0) && s.landed && !(decide (hdrN s.st.hdr ≤ s.st.pos) && decide ((s.st.pc + 4).toNat % 4096 = 0))

/-- The instruction retires with the effect u. -/
def Retires (i : Instr) (s u : State) (n : Bool) : Prop := exec i s = .next (u.retired s n)

/-- The lanes of a set with registers written, in the order of the lists; fields 56 to 63 discard (R7). -/
def State.writeLanes (s : State) (m : Mask) (v : Nat → List (Nat × Word)) : State :=
  s.mapLanes m (fun l x => (v l).foldl (fun y w => y.setReg s.gr.allot w.1 w.2) x)

/-- A lane instruction with guard g that names the registers of a list writes, in each lane of its guard, the registers that v gives (R74). -/
def LaneWrites (i : Instr) (s : State) (g : BitVec 4) (fields : List Nat) (v : Nat → List (Nat × Word)) : Prop :=
  s.goesOn = true → s.beyondIn (s.active g) fields = 0 → Retires i s (s.writeLanes (s.active g) v) false

/-- A pair's two words, the low one in the first register (R4, R9). -/
def pairWords (d : BitVec 6) (v : Pair) : List (Nat × Word) := [(d.toNat, v.extractLsb' 0 32), (d.toNat + 1, v.extractLsb' 32 32)]

/-- The registers of two pairs. -/
def pairFields (d a b : BitVec 6) : List Nat := [d.toNat, d.toNat + 1, a.toNat, a.toNat + 1, b.toNat, b.toNat + 1]

/-- A lane instruction with guard g changes predicates alone: in each lane of its guard predicate p becomes v (R89, R90). -/
def LaneTests (i : Instr) (s : State) (g : BitVec 4) (fields : List Nat) (p : BitVec 4) (v : Nat → Bool) : Prop :=
  s.goesOn = true → p.toNat < 12 → s.beyondIn (s.active g) fields = 0 →
    Retires i s (s.mapLanes (s.active g) (fun l x => x.setPred p.toNat (v l))) false

/-- A uniform instruction with guard g retires with effect u under a true guard and with none under a false one (R76). -/
def Once (i : Instr) (s : State) (g : BitVec 4) (u : State) : Prop :=
  s.goesOn = true → Retires i s (if s.uniGuard g then u else s) false

/-- The precise trap of an instruction at issue, for the lanes t (R22, R301), once nothing is outstanding that its registers get (log entry 2) and no LAUNCH owes a register that the entry banks (R286). -/
def Traps (i : Instr) (s : State) (c : Cause) (t : Mask) : Prop := s.landed = true → s.owedBank = none → exec i s = .next (s.takeTrap c t [] TrapInfo.plain)

/-- The instruction retires and the issuing stream stands where u says (R18, R109). -/
def MovesTo (i : Instr) (s u : State) (n : Bool) : Prop :=
  exec i s = .next (let t : State := { u with st := u.st.retire, cores := (u.countRetired s).cores }; if n then t.markRestart else t)

/-- An access of size bytes at an offset of translation register n lies, aligned, in the run that the register records, whose page allows it (R172, R200), at an address that the stream may reach (R158 to R160), and meets no byte that an error has struck (R391). -/
def State.reachesAt (s : State) (n : Nat) (off : Int) (size : Nat) (need : BitVec 3) : Prop :=
  s.st.physical = false ∧ (s.tbReg n).bound = true ∧ (s.tbReg n).stale = false ∧ (s.tbReg n).perms.allow need = true ∧
    s.offsetOk n off size = true ∧ off.toNat + size ≤ (s.tbReg n).limit ∧ ((s.tbReg n).va + off.toNat) % size = 0 ∧
    (Trans.ok (devLoc (s.tbReg n).key ((s.tbReg n).run + off.toNat))).seen s.st.isPriv = .ok (devLoc (s.tbReg n).key ((s.tbReg n).run + off.toNat)) ∧
    s.poisoned false (devLoc (s.tbReg n).key ((s.tbReg n).run + off.toNat)) size = false ∧
    s.poisoned true (devLoc (s.tbReg n).key ((s.tbReg n).run + off.toNat)) size = false

/-- Every lane of a set so reaches its bytes. -/
def State.reaches (s : State) (p : Mask) (n : Nat) (a : BitVec 6) (size : Nat) (need : BitVec 3) : Prop :=
  ∀ l ∈ p.lanes, s.reachesAt n (s.laneOff a l) size need

/-- The VA and the place of lane l's access through translation register n. -/
def State.accessVa (s : State) (n : Nat) (a : BitVec 6) (l : Nat) : Nat := (s.tbReg n).va + (s.laneOff a l).toNat
def State.accessLoc (s : State) (n : Nat) (a : BitVec 6) (l : Nat) : Loc := devLoc (s.tbReg n).key ((s.tbReg n).run + (s.laneOff a l).toNat)

/-- Nothing of the issuing stream is still on its way to memory (R192). -/
def State.quiet (s : State) : Prop := s.owing = false ∧ s.st.held = []

/-- The lanes, the scalar registers and both memories of u are those of s, and the stream stands one word on. -/
def State.sameRegs (u s : State) : Prop :=
  u.gr.lanes = s.gr.lanes ∧ u.st.sregs = s.st.sregs ∧ u.st.q = s.st.q ∧ u.st.exm = s.st.exm ∧ u.st.pc = s.st.pc + 4

/-- Both memories of u are those of s. -/
def State.sameMem (u s : State) : Prop := u.mem = s.mem ∧ u.host = s.host

/-- A location in HBM or in host memory for n bytes; the others are the on-chip windows (R158, R159). -/
def Loc.plain (l : Loc) (n : Nat) : Prop :=
  match l with
  | .dev a => a + n ≤ Config.hbmBytes
  | .host _ => True
  | .enc _ _ => False

/-- A location is one of the n bytes at another. -/
def Loc.among (x l : Loc) (n : Nat) : Prop := ∃ i, i < n ∧ x = l.plus i

/-- Words put into a lane at the absolute words that a list names (R203). -/
def Lane.land (x : Lane) (allot : Nat) (ws : List (Option Nat × Word)) : Lane :=
  ws.foldl (fun y w => match w.1 with
    | some k => y.putWord allot k w.2
    | none => y) x

/-- The reads of a load sent, one request for each sector in the order of the lanes; the flag is given with the last (R203). Its number and its sample are the model's own (log entry 2, R378). -/
def State.loadSent (u s : State) (scalar : Bool) (reads : List LoadLane) (m : BitVec 3) : Prop :=
  let secs := sectorsOf (reads.map (·.loc))
  (∃ k y, u.st.loads = secs.map (fun sec =>
      ({ id := k, scalar := scalar, sector := sec, reads := reads.filter (fun r => decide (r.loc.sector = sec)), useL1 := loadL1 m,
         flag := if secs.getLast? = some sec then s.setA else none, sample := y } : LoadSector))) ∧
    u.st.flags = (match s.setA with
      | some f => if reads.isEmpty then s.st.flags else s.st.flags.modify f (· + 1)
      | none => s.st.flags)

/-- A memory instruction without a lane that requests anything retires: nothing changes but the stream's place and what counts it (R200, R378). -/
def Idles (i : Instr) (s : State) : Prop :=
  ∃ u, exec i s = .next u ∧ u.sameMem s ∧ u.sameRegs s ∧ u.gr = s.gr ∧ u.un = s.un ∧ u.st.loads = s.st.loads ∧ u.st.flags = s.st.flags ∧
    u.stores = s.stores ∧ u.atomics = s.atomics

/-- n bytes of a value put into the window of a unit's core k (R161). -/
def UnitRec.putWindow (u : UnitRec) (k off v n : Nat) : UnitRec :=
  { u with cores := u.cores.modify k (fun c => { c with window := c.window.putN off v n }) }

/-- The push of an entry fits on chip (R125, R292). -/
def State.roomOnChip (s : State) : Prop := s.st.stack.length < (stackSizes s.st.kind).1 ∧ s.st.pathd < (stackSizes s.st.kind).2.2

/-- What a stream does at a barrier has a barrier to act on: its unit's core holds barrier n (R134, R135). -/
def State.hasBarrier (s : State) (n : Nat) : Prop :=
  s.isWave = false ∧ n < s.un.nb ∧ ∃ c, s.un.cores[s.gr.coreIndex]? = some c ∧ n < c.bars.length

/-- An engine command retires: its number and its batches are taken, its snapshot stands as a command to be accepted, its sequence number is in the register that dest names, and nothing else of the group changes (R219, R228, R266). -/
def Commands (i : Instr) (s : State) (kind : CmdKind) (regs : List Word) (copy matrix : Bool) (dest : Option (BitVec 6)) : Prop :=
  ∃ u c, exec i s = .next u ∧ u.sameMem s ∧ u.gr.lanes = s.gr.lanes ∧ u.gr.tiles = s.gr.tiles ∧ u.gr.cmdseq = s.gr.cmdseq + 1 ∧
    u.gr.cbatch = s.gr.cbatch ∧ u.gr.mbatch = s.gr.mbatch ∧ u.st.pc = s.st.pc + 4 ∧
    u.st.sregs = (match dest with
      | some d => (s.setSreg d.toNat s.gr.cmdseq).st.sregs
      | none => s.st.sregs) ∧
    c ∈ u.cmds ∧ .commandAccept c.id ∈ u.events ∧ c.id = s.nextId ∧ c.kind = kind ∧ c.regs = regs ∧ c.seq = s.gr.cmdseq ∧ c.fmt = s.st.fmt ∧
    c.exm = s.st.exm ∧ c.flag = s.setB ∧ c.state = .retired ∧ c.cbatch = (if copy then some (s.gr.cbatch + 1) else none) ∧
    c.mbatch = (if matrix then some (s.gr.mbatch + 1) else none)

/-- n bytes from an offset lie in the scratchpad window of a unit that is not cooperative, on the core of a group of its (R161). -/
def State.ownWindow (s : State) (g : Group) (o n : Nat) : Prop :=
  (s.unitOf g.uid).coop = false ∧ o + n ≤ (s.unitOf g.uid).scratch ∧
    ∃ c, (s.unitOf g.uid).cores[g.coreIndex]? = some c ∧ c.die < 4 ∧ c.core < 36 ∧ 0x400 ≤ c.base ∧ c.base + (s.unitOf g.uid).scratch ≤ 0x80000

/-- What that window holds there. -/
def State.windowN (s : State) (g : Group) (o n : Nat) : Nat := (((s.unitOf g.uid).cores[g.coreIndex]?).map (fun c => c.window.getN o n)).getD 0

/-- A command has ended: it is done, or gone because no batch will cover it (R228). -/
def State.ended (s : State) (id : Nat) : Prop := ∀ c ∈ s.cmds, c.id = id → c.state = .done

/-- A batch with the replies that the lanes of a set give it: a lane's first one stands (R250, R285). -/
def State.answering (s : State) (v : Wave) (p : Mask) (a : BitVec 6) (err : Bool) : Wave :=
  { v with replies := v.replies ++ (p.lanes.filter (fun l => !v.replies.any (fun r => r.1 == l))).map (fun l => (l, s.reg l a.toNat, err)) }

/-- The page of the issuing batch's method that names its code is there, its code is, and so is every page of its object's state, with both read and write (R245, R248, R252). -/
def State.methodReady (s : State) (w : Wave) (entry : CodeVa) : Prop :=
  let table := (((s.ctxRec s.gr.ctx).bind (fun c => c.objects.find? (fun o => o.idx == w.obj))).map (·.table)).getD 0 +
    8 * ((w.reqs[0]?).map (fun (r : ObjRequest) => r.method.toNat)).getD 0
  (∃ l, s.translate s.gr.coreId s.gr.ctx table needR = .ok l ∧ entry = BitVec.ofNat 57 (s.getN l 8)) ∧ entry ≠ 0 ∧ s.segPresent entry = true ∧
    ∀ va, w.stateVa ≤ va → va < w.stateVa + w.stateSize → ∃ l, s.translate s.gr.coreId s.gr.ctx va needRW = .ok l

/-- t is s with the issuing batch at its beginning: request i in lane i with its arguments, the state's VA, the number of requests and the method in s0 to s3, nothing written and nothing replied (R248, R249). -/
def State.waveStarted (t s : State) (w : Wave) (entry : CodeVa) : Prop :=
  t.sameMem s ∧ t.st.wave = some { w with started := true, buf := [], replies := [], start := s.dev.clock.toNat } ∧ t.st.kind = s.st.kind ∧
    t.st.pc = entry ∧ t.st.pos = 0 ∧ t.st.dep = 0 ∧ t.st.status = .runnable ∧ t.st.exm = Mask.below w.reqs.length ∧
    t.st.sregs = ((((List.replicate 60 0).set 0 (BitVec.ofNat 32 w.stateVa)).set 1 (BitVec.ofNat 32 (w.stateVa / 2 ^ 32))).set 2
      (BitVec.ofNat 32 w.reqs.length)).set 3 (BitVec.ofNat 32 (((w.reqs[0]?).map (fun (r : ObjRequest) => r.method.toNat)).getD 0)) ∧
    ∀ i r, w.reqs[i]? = some r → i < 64 → (t.lane i).word 256 0 = r.a0 ∧ (t.lane i).word 256 1 = r.a1

/-- The commands of the issuing group that a wait on batch b covers (R229). -/
def State.covered (s : State) (copy : Bool) (b : Word) : List Cmd :=
  s.cmds.filter (fun c => c.gid == s.gr.gid && (match if copy then c.cbatch else c.mbatch with
    | some n => atOrBefore n b
    | none => false))

/-- A marked overlay slot is pinned (R243). -/
def State.marksPinned (s : State) : Prop := ∀ o ∈ s.overlays, o.marked = true → s.pinned o = true

/-- The memories are in their canonical form. -/
def State.memWf (s : State) : Prop := s.mem.wf = true ∧ s.host.wf = true

end Sys2Proof.Machine
end

