-- ==== Sys2Proof/Certificates/Slice0/Obligations.lean ====
section
/-!
DEFINITION. The statements for the provers, family by family in the order of the spec. A state is any state, reachable or not; each statement's docstring names the rules it formalises.
-/
open Sys2Proof Sys2Proof.Machine

/-! ## Encoding and the step -/

/-- R42, R47, R53, R54: every instruction that has a word decodes from it, with every field at every value (a CALLR under guard 13 is the word of CALLR.U, R133); and every word that decodes differs from the word of what it decodes to in ignored bits alone: both decode alike. -/
def Obligations.RoundTrip : Prop :=
  (∀ (i : Instr) (w : Word), encode i = some w → decode w = .ok (match i with
    | .callr g a => if g = 13 then .callrU a else .callr g a
    | j => j)) ∧
  (∀ (w : Word) (i : Instr), decode w = .ok i → ∃ v, encode i = some v ∧ decode v = .ok i)

/-- R53, R54: words written out from the encoding tables: the examples of R52, BKPT 1 (R375), the IDIV of R344, SRD DBGST (R372). -/
def Obligations.WrittenWords : Prop :=
  decode 0x7E000040#32 = .ok (.extImmediate 0x40) ∧
  decode 0x32059450#32 = .ok (.ld 0 11 10 1 2 0) ∧
  decode 0x7F2A0000#32 = .ok (.extOperand 10 4 0 0 0 0) ∧
  decode 0x2006104B#32 = .ok (.ffma 0 12 8 9) ∧
  decode 0x04059254#32 = .ok (.idiv 0 11 9 10) ∧
  decode 0x56000001#32 = .ok (.bkpt 0 1) ∧
  decode 0x8A0018C2#32 = .ok (.srd 0 0 0x318)

/-- R47, R55: a reserved major opcode, of the lane set or of the uniform set, is refused by name, whatever the other bits. -/
def Obligations.ReservedMajors : Prop :=
  ∀ w : Word,
    let m := (w.extractLsb' 25 6).toNat
    ((w.getLsbD 31 = false ∧ ((0x2D ≤ m ∧ m ≤ 0x37) ∨ (0x3C ≤ m ∧ m ≤ 0x3E))) ∨
      (w.getLsbD 31 = true ∧ ((0x1E ≤ m ∧ m ≤ 0x37) ∨ (0x3C ≤ m ∧ m ≤ 0x3E)))) →
    decode w = .error .reservedMajor

/-- R132, R141, R286, R321, R387: the instruction of a step. With no event and no work due, in a cycle that may issue (R394; which cycles of 64 those are above the power cap is log entry 55), the step runs the meaning of the decoded word at the place of the chosen stream, and one cycle passes (that a step takes one is log entry 1): CLOCK is one more, as are the counters of the cycle, and the stream has been served. An instruction held at issue has not issued in it (R181, R376; log entry 78). A word that may not stand there traps instead, and one that names a register which a LAUNCH has still to write waits. -/
def Obligations.StepRunsDecoded : Prop :=
  ∀ (s : State) (x : Stream) (w : Word) (i : Instr),
    s.dev.phase = .running → s.events = [] → s.dueWork = none → s.mayIssue = true → s.chosen = some x →
    (∀ t, t = (s.focus x.sid).enterSlot →
      t.st.wave = none → t.st.edged = false → t.st.status = .runnable → t.st.pos ≠ 0 → t.st.fresh = false → t.breakpoints = 0 → t.codeWord t.st.pc = some w →
      (t.barred w = none → t.owedTo w = none → decode w = .ok i →
        step s = match exec i t with
          | .next u => .next (if u.st.sid = x.sid ∧ (u.st.atLimit ∨ u.st.heldAtIssue = true) then u.tick 0
              else (u.modStream x.sid (fun y => { y with served := u.dev.clock.toNat, promoted := none })).tick x.gid)
          | .fault f => .fault f
          | .refused r => .refused r) ∧
      (∀ c, t.barred w = some c → step s = .next ((t.takeTrap c t.st.exm [] TrapInfo.plain).tick 0)) ∧
      (∀ id, t.barred w = none → t.owedTo w = some id → decode w = .ok i → step s = .next ((t.modSt (fun y => { y with status := .waitAccept id })).tick 0)))

/-- Log entry 1: the first due event is what a step runs, before any stream issues, and it leaves the list. R394: a module that has stopped does nothing more. -/
def Obligations.StepOrder : Prop :=
  (∀ (s : State) (i : Instr) (r : List Instr), s.dev.phase ≠ .stopped → s.events = i :: r →
    step s = match exec i { s with events := r } with
      | .next u => .next (u.tick 0)
      | .fault f => .fault f
      | .refused f => .refused f) ∧
  (∀ s : State, s.dev.phase = .stopped → step s = .fault .moduleStopped)

/-- R243: after every step a marked overlay slot is one that some stream pins; the others are gone. -/
def Obligations.MarkedSlotsPinned : Prop := ∀ s s' : State, s.marksPinned → step s = .next s' → s'.marksPinned

/-- R382 and log entries 3 to 5: the state after reset meets what the steps keep; no group, no context, no memory, CLOCK 0. R12: how a stream and a lane stand as their group starts: registers 0, predicates false, flags clear, translation registers unbound, the stack empty. -/
def Obligations.StartStates : Prop :=
  (State.reset.marksPinned ∧ State.reset.memWf ∧ State.reset.mem = [] ∧ State.reset.streams = [] ∧ State.reset.groups = [] ∧ State.reset.ctxs = [] ∧
    State.reset.dev.phase = .reset ∧ State.reset.dev.clock = 0 ∧ State.reset.st.sid = 0) ∧
  (∀ (sid gid : Nat) (pc : CodeVa) (m : Mask),
    (Stream.start sid gid .home pc m).pc = pc ∧ (Stream.start sid gid .home pc m).exm = m ∧ (Stream.start sid gid .home pc m).dep = 0 ∧
    (Stream.start sid gid .home pc m).fmt = 0 ∧ (Stream.start sid gid .home pc m).q = 0 ∧ (Stream.start sid gid .home pc m).pathd = 0 ∧
    (Stream.start sid gid .home pc m).unifstk = 0 ∧ (Stream.start sid gid .home pc m).pending = 0 ∧
    (∀ n, n < 60 → (Stream.start sid gid .home pc m).sregs.getD n 1 = 0) ∧ (∀ n, n < 4 → (Stream.start sid gid .home pc m).ix.getD n 1 = 0) ∧
    (∀ n, n < 8 → (Stream.start sid gid .home pc m).tb[n]? = some TransReg.unbound) ∧ TransReg.unbound.bound = false ∧
    Lane.start.fb = 0 ∧ Lane.start.locals = 0 ∧ Lane.start.preds = 0 ∧ (∀ allot n, Lane.start.word allot n = 0))

/-! ## Registers and memory -/

/-- R7: a lane register written (a local, a linkage, an argument field) reads back, fields 56 to 63 discard, and every other word of the column, the window and the predicates stay. R13: a scalar register written reads back, no other changes, and fields 60 to 63 discard. -/
def Obligations.RegisterWrites : Prop :=
  (∀ (x : Lane) (allot n : Nat) (v : Word),
    (∀ w, x.winWord n = some w → (x.setReg allot n v).word allot w = v ∧
      ∀ pos, pos ≠ w % allot → (x.setReg allot n v).atPos pos = x.atPos pos) ∧
    (56 ≤ n → x.setReg allot n v = x) ∧
    { x.setReg allot n v with col := x.col } = x) ∧
  (∀ (s : State) (n m : Nat) (v : Word), s.st.sregs.length = 60 →
    (n < 60 → (s.setSreg n v).sreg n = v) ∧ (m ≠ n → (s.setSreg n v).sreg m = s.sreg m) ∧ (60 ≤ n → s.setSreg n v = s))

/-! ## Lane instructions -/

/-- R74, R7: the frame of a lane instruction that retires with registers of some lanes written: both memories, every stream and scalar register, predicate, flag and special register, every other group and unit, and in the lanes every word that is not written are as they were; the stream stands one word on. -/
def Obligations.LaneFrame : Prop :=
  ∀ (s : State) (m : Mask) (v : Nat → List (Nat × Word)),
    let t := (s.writeLanes m v).retired s false
    t.mem = s.mem ∧ t.host = s.host ∧ t.streams = s.streams ∧ t.groups = s.groups ∧ t.un = s.un ∧ t.units = s.units ∧ t.dev = s.dev ∧
    t.st.sregs = s.st.sregs ∧ t.st.q = s.st.q ∧ t.st.ix = s.st.ix ∧ t.st.tb = s.st.tb ∧ t.st.flags = s.st.flags ∧ t.st.exm = s.st.exm ∧
    t.st.fmt = s.st.fmt ∧ t.st.stack = s.st.stack ∧ t.st.dep = s.st.dep ∧ t.st.trap = s.st.trap ∧ t.st.pc = s.st.pc + 4 ∧
    t.gr.lanes.length = s.gr.lanes.length ∧ { t.gr with lanes := s.gr.lanes } = s.gr ∧
    (∀ l, { t.lane l with col := (s.lane l).col } = s.lane l) ∧
    (∀ l pos, (m.has l = false ∨ ∀ w ∈ v l, ∀ k, (s.lane l).winWord w.1 = some k → k % s.gr.allot ≠ pos) → (t.lane l).atPos pos = (s.lane l).atPos pos)

/-- R78: the integer arithmetic of two lane registers, 32-bit, and with W64 on pairs; modulo 2^32 or 2^64; IADDMN and IABSD ignore W64; a misaligned pair is ILLEGAL, a local beyond L traps REG_BOUND, and nothing else traps. -/
def Obligations.IntegerArithmetic : Prop :=
  ∀ (s : State) (g : BitVec 4) (d a b : BitVec 6),
    (s.wide = false →
      LaneWrites (.iadd g d a b) s g [d.toNat, a.toNat, b.toNat] (fun l => [(d.toNat, s.reg l a.toNat + s.reg l b.toNat)]) ∧
      LaneWrites (.isub g d a b) s g [d.toNat, a.toNat, b.toNat] (fun l => [(d.toNat, s.reg l a.toNat - s.reg l b.toNat)]) ∧
      LaneWrites (.imin g d a b) s g [d.toNat, a.toNat, b.toNat] (fun l =>
        [(d.toNat, if (s.reg l a.toNat).toInt ≤ (s.reg l b.toNat).toInt then s.reg l a.toNat else s.reg l b.toNat)]) ∧
      LaneWrites (.imax g d a b) s g [d.toNat, a.toNat, b.toNat] (fun l =>
        [(d.toNat, if (s.reg l a.toNat).toInt ≤ (s.reg l b.toNat).toInt then s.reg l b.toNat else s.reg l a.toNat)]) ∧
      LaneWrites (.iminn g d a b) s g [d.toNat, a.toNat, b.toNat] (fun l =>
        [(d.toNat, if (s.reg l a.toNat).toNat ≤ (s.reg l b.toNat).toNat then s.reg l a.toNat else s.reg l b.toNat)]) ∧
      LaneWrites (.imaxn g d a b) s g [d.toNat, a.toNat, b.toNat] (fun l =>
        [(d.toNat, if (s.reg l a.toNat).toNat ≤ (s.reg l b.toNat).toNat then s.reg l b.toNat else s.reg l a.toNat)])) ∧
    (s.wide = true → isPair d.toNat = true → isPair a.toNat = true → isPair b.toNat = true →
      LaneWrites (.iadd g d a b) s g (pairFields d a b) (fun l => pairWords d (s.regPair l a.toNat + s.regPair l b.toNat)) ∧
      LaneWrites (.isub g d a b) s g (pairFields d a b) (fun l => pairWords d (s.regPair l a.toNat - s.regPair l b.toNat)) ∧
      LaneWrites (.imin g d a b) s g (pairFields d a b) (fun l => pairWords d (sMin (s.regPair l a.toNat) (s.regPair l b.toNat))) ∧
      LaneWrites (.imax g d a b) s g (pairFields d a b) (fun l => pairWords d (sMax (s.regPair l a.toNat) (s.regPair l b.toNat))) ∧
      LaneWrites (.iminn g d a b) s g (pairFields d a b) (fun l => pairWords d (uMin (s.regPair l a.toNat) (s.regPair l b.toNat))) ∧
      LaneWrites (.imaxn g d a b) s g (pairFields d a b) (fun l => pairWords d (uMax (s.regPair l a.toNat) (s.regPair l b.toNat)))) ∧
    LaneWrites (.iaddmn g d a b) s g [d.toNat, a.toNat, b.toNat] (fun l =>
      [(d.toNat, sMin (s.reg l d.toNat) (s.reg l a.toNat + s.reg l b.toNat))]) ∧
    LaneWrites (.iabsd g d a b) s g [d.toNat, a.toNat, b.toNat] (fun l =>
      [(d.toNat, BitVec.ofNat 32 ((s.reg l a.toNat).toInt - (s.reg l b.toNat).toInt).natAbs)]) ∧
    (∀ i : Instr, (i = .iadd g d a b ∨ i = .isub g d a b ∨ i = .imin g d a b ∨ i = .imax g d a b ∨ i = .iminn g d a b ∨ i = .imaxn g d a b) →
      (s.wide = true → (isPair d.toNat && isPair a.toNat && isPair b.toNat) = false → Traps i s .illegal s.st.exm) ∧
      (s.wide = true → (isPair d.toNat && isPair a.toNat && isPair b.toNat) = true → s.beyondIn (s.active g) (pairFields d a b) ≠ 0 →
        Traps i s .regBound (s.beyondIn (s.active g) (pairFields d a b))) ∧
      (s.wide = false → s.beyondIn (s.active g) [d.toNat, a.toNat, b.toNat] ≠ 0 → Traps i s .regBound (s.beyondIn (s.active g) [d.toNat, a.toNat, b.toNat]))) ∧
    (s.beyondIn (s.active g) [d.toNat, a.toNat, b.toNat] ≠ 0 →
      Traps (.iaddmn g d a b) s .regBound (s.beyondIn (s.active g) [d.toNat, a.toNat, b.toNat]) ∧
      Traps (.iabsd g d a b) s .regBound (s.beyondIn (s.active g) [d.toNat, a.toNat, b.toNat]))

/-- R79: multiplication: the low word, the high words of the signed and the unsigned product, and the sum with d or with the register that C of a prefix names. -/
def Obligations.IntegerMultiply : Prop :=
  ∀ (s : State) (g : BitVec 4) (d a b : BitVec 6),
    LaneWrites (.imul g d a b) s g [d.toNat, a.toNat, b.toNat] (fun l => [(d.toNat, s.reg l a.toNat * s.reg l b.toNat)]) ∧
    LaneWrites (.imulh g d a b) s g [d.toNat, a.toNat, b.toNat] (fun l =>
      [(d.toNat, BitVec.ofInt 32 ((s.reg l a.toNat).toInt * (s.reg l b.toNat).toInt / 2 ^ 32))]) ∧
    LaneWrites (.imulhn g d a b) s g [d.toNat, a.toNat, b.toNat] (fun l =>
      [(d.toNat, BitVec.ofNat 32 ((s.reg l a.toNat).toNat * (s.reg l b.toNat).toNat / 2 ^ 32))]) ∧
    (s.extC = none → LaneWrites (.imac g d a b) s g [d.toNat, a.toNat, b.toNat] (fun l =>
      [(d.toNat, s.reg l d.toNat + s.reg l a.toNat * s.reg l b.toNat)])) ∧
    (∀ c, s.extC = some c → LaneWrites (.imac g d a b) s g [d.toNat, a.toNat, b.toNat, c.toNat] (fun l =>
      [(d.toNat, s.reg l c.toNat + s.reg l a.toNat * s.reg l b.toNat)]))

/-- R81, R82, R83: shifts by b[4:0], logic, counts and bit fields; with p = b[7:0] and n = min(b[15:8], 32 - p), POPC counts the 1 bits, CLZ the 0 bits above the highest of them, bit i of BREV is a[31 - i], bit i of BFEN is a[p + i] below n and 0 above, BFE extends bit n - 1, and BFI replaces bits p to p + n - 1 of d. -/
def Obligations.ShiftsAndLogic : Prop :=
  (∀ (s : State) (g : BitVec 4) (d a b : BitVec 6),
    LaneWrites (.shl g d a b) s g [d.toNat, a.toNat, b.toNat] (fun l => [(d.toNat, s.reg l a.toNat <<< ((s.reg l b.toNat).toNat % 32))]) ∧
    LaneWrites (.shr g d a b) s g [d.toNat, a.toNat, b.toNat] (fun l => [(d.toNat, s.reg l a.toNat >>> ((s.reg l b.toNat).toNat % 32))]) ∧
    LaneWrites (.shra g d a b) s g [d.toNat, a.toNat, b.toNat] (fun l =>
      [(d.toNat, BitVec.ofInt 32 ((s.reg l a.toNat).toInt / 2 ^ ((s.reg l b.toNat).toNat % 32)))]) ∧
    LaneWrites (.rotl g d a b) s g [d.toNat, a.toNat, b.toNat] (fun l => [(d.toNat, (s.reg l a.toNat).rotateLeft ((s.reg l b.toNat).toNat % 32))]) ∧
    LaneWrites (.and g d a b) s g [d.toNat, a.toNat, b.toNat] (fun l => [(d.toNat, s.reg l a.toNat &&& s.reg l b.toNat)]) ∧
    LaneWrites (.or g d a b) s g [d.toNat, a.toNat, b.toNat] (fun l => [(d.toNat, s.reg l a.toNat ||| s.reg l b.toNat)]) ∧
    LaneWrites (.xor g d a b) s g [d.toNat, a.toNat, b.toNat] (fun l => [(d.toNat, s.reg l a.toNat ^^^ s.reg l b.toNat)]) ∧
    LaneWrites (.andn g d a b) s g [d.toNat, a.toNat, b.toNat] (fun l => [(d.toNat, s.reg l a.toNat &&& ~~~ s.reg l b.toNat)]) ∧
    LaneWrites (.orn g d a b) s g [d.toNat, a.toNat, b.toNat] (fun l => [(d.toNat, s.reg l a.toNat ||| ~~~ s.reg l b.toNat)]) ∧
    LaneWrites (.xnor g d a b) s g [d.toNat, a.toNat, b.toNat] (fun l => [(d.toNat, ~~~ (s.reg l a.toNat ^^^ s.reg l b.toNat))]) ∧
    LaneWrites (.popc g d a) s g [d.toNat, a.toNat] (fun l => [(d.toNat, popCount (s.reg l a.toNat))]) ∧
    LaneWrites (.clz g d a) s g [d.toNat, a.toNat] (fun l => [(d.toNat, leadingZeros (s.reg l a.toNat))]) ∧
    LaneWrites (.brev g d a) s g [d.toNat, a.toNat] (fun l => [(d.toNat, bitReverse (s.reg l a.toNat))]) ∧
    LaneWrites (.bfe g d a b) s g [d.toNat, a.toNat, b.toNat] (fun l => [(d.toNat, bfeS (s.reg l a.toNat) (s.reg l b.toNat))]) ∧
    LaneWrites (.bfen g d a b) s g [d.toNat, a.toNat, b.toNat] (fun l => [(d.toNat, bfeU (s.reg l a.toNat) (s.reg l b.toNat))]) ∧
    LaneWrites (.bfi g d a b) s g [d.toNat, a.toNat, b.toNat] (fun l =>
      [(d.toNat, bfi (s.reg l d.toNat) (s.reg l a.toNat) (s.reg l b.toNat))])) ∧
  (∀ (d a b : Word) (i : Nat), i < 32 →
    let p := b.toNat % 256
    let n := min (b.toNat / 256 % 256) (32 - p)
    (popCount a).toNat = (List.range 32).countP (fun k => a.getLsbD k) ∧
    (leadingZeros a).toNat ≤ 32 ∧ (32 - (leadingZeros a).toNat ≤ i → a.getLsbD i = false) ∧ (i + 1 + (leadingZeros a).toNat = 32 → a.getLsbD i = true) ∧
    (bitReverse a).getLsbD i = a.getLsbD (31 - i) ∧
    (bfeS a b).getLsbD i = (decide (n ≠ 0) && a.getLsbD (p + min i (n - 1))) ∧
    (bfeU a b).getLsbD i = (decide (i < n) && a.getLsbD (p + i)) ∧
    (bfi d a b).getLsbD i = (if p ≤ i ∧ i < p + n then a.getLsbD (i - p) else d.getLsbD i))

/-- R81, R84: the immediate forms: the shift count is the low 5 bits; IMM9 is sign-extended in IADDI and IMULI and zero-extended in the logic forms, or extended by a prefix (R48, R50). -/
def Obligations.Immediates : Prop :=
  ∀ (s : State) (g : BitVec 4) (d a : BitVec 6) (i : BitVec 9) (n : BitVec 5),
    LaneWrites (.iaddi g d a i) s g [d.toNat, a.toNat] (fun l => [(d.toNat, s.reg l a.toNat + s.immS i)]) ∧
    LaneWrites (.imuli g d a i) s g [d.toNat, a.toNat] (fun l => [(d.toNat, s.reg l a.toNat * s.immS i)]) ∧
    LaneWrites (.andi g d a i) s g [d.toNat, a.toNat] (fun l => [(d.toNat, s.reg l a.toNat &&& s.immZ i)]) ∧
    LaneWrites (.ori g d a i) s g [d.toNat, a.toNat] (fun l => [(d.toNat, s.reg l a.toNat ||| s.immZ i)]) ∧
    LaneWrites (.xori g d a i) s g [d.toNat, a.toNat] (fun l => [(d.toNat, s.reg l a.toNat ^^^ s.immZ i)]) ∧
    LaneWrites (.shli g d a n) s g [d.toNat, a.toNat] (fun l => [(d.toNat, s.reg l a.toNat <<< n.toNat)]) ∧
    LaneWrites (.shri g d a n) s g [d.toNat, a.toNat] (fun l => [(d.toNat, s.reg l a.toNat >>> n.toNat)]) ∧
    LaneWrites (.shrai g d a n) s g [d.toNat, a.toNat] (fun l => [(d.toNat, (s.reg l a.toNat).sshiftRight n.toNat)]) ∧
    LaneWrites (.rotli g d a n) s g [d.toNat, a.toNat] (fun l => [(d.toNat, (s.reg l a.toNat).rotateLeft n.toNat)]) ∧
    (s.st.ext = none → s.immS i = i.signExtend 32 ∧ s.immZ i = i.setWidth 32) ∧
    (∀ x, s.st.ext = some (.imm x) → (s.immS i).toNat = (x.toNat * 512 + i.toNat) % 2 ^ 32 ∧ s.immZ i = s.immS i)

/-- R85, R86: moves: an immediate, a register, a scalar register, the predicates as a word and under a mask, and the lane specials: the frame area, FB, LOWRES and the lane's fault record. -/
def Obligations.Moves : Prop :=
  ∀ (s : State) (g : BitVec 4) (d a b : BitVec 6) (i : BitVec 15),
    LaneWrites (.movi g d i) s g [d.toNat] (fun _ => [(d.toNat, s.immS i)]) ∧
    LaneWrites (.mov g d a) s g [d.toNat, a.toNat] (fun l => [(d.toNat, s.reg l a.toNat)]) ∧
    LaneWrites (.movs g d a) s g [d.toNat] (fun _ => [(d.toNat, s.sreg a.toNat)]) ∧
    (s.goesOn = true → s.beyondIn (s.active g) [d.toNat] = 0 → Retires (.movp g d) s
      (s.mapLanes (s.active g) (fun _ x => x.setReg s.gr.allot d.toNat (x.preds.setWidth 32))) false) ∧
    (s.goesOn = true → s.beyondIn (s.active g) [a.toNat, b.toNat] = 0 → Retires (.pmov g a b) s
      (s.mapLanes (s.active g) (fun l x => { x with preds :=
        (((s.reg l a.toNat).setWidth 12 &&& (s.reg l b.toNat).setWidth 12) ||| (x.preds &&& ~~~ (s.reg l b.toNat).setWidth 12) : BitVec 12) })) false) ∧
    (s.goesOn = true → b.toNat < 5 → s.beyondIn (s.active g) [d.toNat] = 0 → Retires (.lsr g d b) s
      (s.mapLanes (s.active g) (fun _ x => x.setReg s.gr.allot d.toNat (match b.toNat with
        | 0 => BitVec.ofNat 32 s.gr.fa
        | 1 => BitVec.ofNat 32 (s.gr.fa / 2 ^ 32 % 2 ^ 25)
        | 2 => BitVec.ofNat 32 x.fb
        | 3 => BitVec.ofNat 32 x.lowres
        | _ => x.lanefault))) false)

/-- R89, R90, R102: compares and predicate logic write one predicate in the lanes of the guard and nothing else; predicate 12 reads true; the condition of an integer and of a float compare by its code, where a NaN meets NE and NAN alone, and how it combines with the old predicate. -/
def Obligations.LanePredicates : Prop :=
  (∀ (s : State) (g : BitVec 4) (c : BitVec 2) (p q r : BitVec 4) (a b : BitVec 6) (f : BitVec 3),
    (s.wide = false → LaneTests (.iset g c p a b f) s g [a.toNat, b.toNat] p (fun l =>
      combine c ((s.lane l).pred p.toNat) (intCond f (s.reg l a.toNat) (s.reg l b.toNat)))) ∧
    (s.wide = true → isPair a.toNat = true → isPair b.toNat = true →
      LaneTests (.iset g c p a b f) s g [a.toNat, a.toNat + 1, b.toNat, b.toNat + 1] p (fun l =>
        combine c ((s.lane l).pred p.toNat) (intCond f (s.regPair l a.toNat) (s.regPair l b.toNat)))) ∧
    LaneTests (.fset g c p a b f) s g [a.toNat, b.toNat] p (fun l =>
      combine c ((s.lane l).pred p.toNat) (floatCond f (s.reg l a.toNat) (s.reg l b.toNat))) ∧
    (q.toNat < 13 → r.toNat < 13 →
      LaneTests (.pand g p q r) s g [] p (fun l => (s.lane l).pred q.toNat && (s.lane l).pred r.toNat) ∧
      LaneTests (.por g p q r) s g [] p (fun l => (s.lane l).pred q.toNat || (s.lane l).pred r.toNat) ∧
      LaneTests (.pxor g p q r) s g [] p (fun l => xor ((s.lane l).pred q.toNat) ((s.lane l).pred r.toNat)) ∧
      LaneTests (.pandn g p q r) s g [] p (fun l => (s.lane l).pred q.toNat && !(s.lane l).pred r.toNat) ∧
      LaneTests (.pnot g p q) s g [] p (fun l => !(s.lane l).pred q.toNat)) ∧
    LaneTests (.pset g p) s g [] p (fun _ => true) ∧
    LaneTests (.pclr g p) s g [] p (fun _ => false)) ∧
  (∀ (a b : Word),
    intCond 0 a b = decide (a = b) ∧ intCond 1 a b = decide (a ≠ b) ∧ intCond 2 a b = decide (a.toInt < b.toInt) ∧
    intCond 3 a b = decide (a.toInt ≤ b.toInt) ∧ intCond 4 a b = decide (a.toInt > b.toInt) ∧ intCond 5 a b = decide (a.toInt ≥ b.toInt) ∧
    intCond 6 a b = decide (a.toNat < b.toNat) ∧ intCond 7 a b = decide (a.toNat ≤ b.toNat)) ∧
  (∀ (a b : Word),
    ((f32 a = .nan ∨ f32 b = .nan) → (∀ f : BitVec 3, floatCond f a b = decide (f = 1 ∨ f = 7))) ∧
    (f32 a ≠ .nan → f32 b ≠ .nan →
      floatCond 0 a b = (f32 a).eqv (f32 b) ∧ floatCond 1 a b = !(f32 a).eqv (f32 b) ∧ floatCond 2 a b = (f32 a).lt (f32 b) ∧
      floatCond 3 a b = ((f32 a).lt (f32 b) || (f32 a).eqv (f32 b)) ∧ floatCond 4 a b = (f32 b).lt (f32 a) ∧
      floatCond 5 a b = ((f32 b).lt (f32 a) || (f32 a).eqv (f32 b)) ∧ floatCond 6 a b = true ∧ floatCond 7 a b = false)) ∧
  (∀ (x : Lane) (old new : Bool),
    x.pred 12 = true ∧ combine 0 old new = new ∧ combine 1 old new = (old && new) ∧ combine 2 old new = (old || new) ∧ combine 3 old new = xor old new)

/-- R100, R101, R104: f32 arithmetic and the SFU; a fused form takes its addend from d or from the register that C of a prefix names. R27: a sum, a product and a fused form with a NaN operand give the canonical NaN, 0x7FC00000; R101: FMIN and FMAX give the other operand, and the canonical NaN where both are NaN. -/
def Obligations.FloatArithmetic : Prop :=
  (∀ (s : State) (g : BitVec 4) (d a b : BitVec 6),
    LaneWrites (.fadd g d a b) s g [d.toNat, a.toNat, b.toNat] (fun l => [(d.toNat, fAdd (s.reg l a.toNat) (s.reg l b.toNat))]) ∧
    LaneWrites (.fsub g d a b) s g [d.toNat, a.toNat, b.toNat] (fun l => [(d.toNat, fSub (s.reg l a.toNat) (s.reg l b.toNat))]) ∧
    LaneWrites (.fmul g d a b) s g [d.toNat, a.toNat, b.toNat] (fun l => [(d.toNat, fMul (s.reg l a.toNat) (s.reg l b.toNat))]) ∧
    LaneWrites (.fmin g d a b) s g [d.toNat, a.toNat, b.toNat] (fun l => [(d.toNat, fMin (s.reg l a.toNat) (s.reg l b.toNat))]) ∧
    LaneWrites (.fmax g d a b) s g [d.toNat, a.toNat, b.toNat] (fun l => [(d.toNat, fMax (s.reg l a.toNat) (s.reg l b.toNat))]) ∧
    LaneWrites (.faddmn g d a b) s g [d.toNat, a.toNat, b.toNat] (fun l =>
      [(d.toNat, fMin (s.reg l d.toNat) (fAdd (s.reg l a.toNat) (s.reg l b.toNat)))]) ∧
    (s.extC = none →
      LaneWrites (.ffma g d a b) s g [d.toNat, a.toNat, b.toNat] (fun l => [(d.toNat, fFma (s.reg l d.toNat) (s.reg l a.toNat) (s.reg l b.toNat))]) ∧
      LaneWrites (.fnfma g d a b) s g [d.toNat, a.toNat, b.toNat] (fun l => [(d.toNat, fNfma (s.reg l d.toNat) (s.reg l a.toNat) (s.reg l b.toNat))])) ∧
    (∀ c, s.extC = some c →
      LaneWrites (.ffma g d a b) s g [d.toNat, a.toNat, b.toNat, c.toNat] (fun l => [(d.toNat, fFma (s.reg l c.toNat) (s.reg l a.toNat) (s.reg l b.toNat))]) ∧
      LaneWrites (.fnfma g d a b) s g [d.toNat, a.toNat, b.toNat, c.toNat] (fun l => [(d.toNat, fNfma (s.reg l c.toNat) (s.reg l a.toNat) (s.reg l b.toNat))])) ∧
    LaneWrites (.frcp g d a) s g [d.toNat, a.toNat] (fun l => [(d.toNat, sfuRcp (s.reg l a.toNat))]) ∧
    LaneWrites (.frsq g d a) s g [d.toNat, a.toNat] (fun l => [(d.toNat, sfuRsq (s.reg l a.toNat))]) ∧
    LaneWrites (.fsqrt g d a) s g [d.toNat, a.toNat] (fun l => [(d.toNat, sfuSqrt (s.reg l a.toNat))]) ∧
    LaneWrites (.fex2 g d a) s g [d.toNat, a.toNat] (fun l => [(d.toNat, sfuEx2 (s.reg l a.toNat))]) ∧
    LaneWrites (.flg2 g d a) s g [d.toNat, a.toNat] (fun l => [(d.toNat, sfuLg2 (s.reg l a.toNat))]) ∧
    LaneWrites (.fsin g d a) s g [d.toNat, a.toNat] (fun l => [(d.toNat, sfuSin (s.reg l a.toNat))]) ∧
    LaneWrites (.fcos g d a) s g [d.toNat, a.toNat] (fun l => [(d.toNat, sfuCos (s.reg l a.toNat))]) ∧
    LaneWrites (.ftanh g d a) s g [d.toNat, a.toNat] (fun l => [(d.toNat, sfuTanh (s.reg l a.toNat))])) ∧
  (∀ (a b c : Word),
    ((f32 a = .nan ∨ f32 b = .nan) → fAdd a b = 0x7FC00000 ∧ fSub a b = 0x7FC00000 ∧ fMul a b = 0x7FC00000) ∧
    ((f32 a = .nan ∨ f32 b = .nan ∨ f32 c = .nan) → fFma c a b = 0x7FC00000 ∧ fNfma c a b = 0x7FC00000) ∧
    (f32 a = .nan → f32 b = .nan → fMin a b = 0x7FC00000 ∧ fMax a b = 0x7FC00000) ∧
    (f32 a = .nan → f32 b ≠ .nan → fMin a b = b ∧ fMin b a = b ∧ fMax a b = b ∧ fMax b a = b))

/-- R103, R106, R107: packed halves under HALFK of FMT, conversions, and packing under the kinds of FMT. -/
def Obligations.HalvesAndPacks : Prop :=
  ∀ (s : State) (g : BitVec 4) (d a b : BitVec 6) (h : FKind) (u v r : BitVec 3),
    (halfKind s.st.fmt = some h →
      LaneWrites (.hpadd g d a b) s g [d.toNat, a.toNat, b.toNat] (fun l => [(d.toNat, onHalves h.hAdd (s.reg l d.toNat) (s.reg l a.toNat) (s.reg l b.toNat))]) ∧
      LaneWrites (.hpsub g d a b) s g [d.toNat, a.toNat, b.toNat] (fun l => [(d.toNat, onHalves h.hSub (s.reg l d.toNat) (s.reg l a.toNat) (s.reg l b.toNat))]) ∧
      LaneWrites (.hpmul g d a b) s g [d.toNat, a.toNat, b.toNat] (fun l => [(d.toNat, onHalves h.hMul (s.reg l d.toNat) (s.reg l a.toNat) (s.reg l b.toNat))]) ∧
      LaneWrites (.hpmin g d a b) s g [d.toNat, a.toNat, b.toNat] (fun l => [(d.toNat, onHalves h.hMin (s.reg l d.toNat) (s.reg l a.toNat) (s.reg l b.toNat))]) ∧
      LaneWrites (.hpmax g d a b) s g [d.toNat, a.toNat, b.toNat] (fun l => [(d.toNat, onHalves h.hMax (s.reg l d.toNat) (s.reg l a.toNat) (s.reg l b.toNat))]) ∧
      (s.extC = none → LaneWrites (.hpfma g d a b) s g [d.toNat, a.toNat, b.toNat] (fun l =>
        [(d.toNat, onHalves h.hFma (s.reg l d.toNat) (s.reg l a.toNat) (s.reg l b.toNat))])) ∧
      LaneWrites (.pkh g d a b) s g [d.toNat, a.toNat, b.toNat] (fun l =>
        [(d.toNat, BitVec.ofNat 32 (h.narrow (s.reg l b.toNat) * 2 ^ 16 + h.narrow (s.reg l a.toNat)))]) ∧
      LaneWrites (.upkl g d a) s g [d.toNat, a.toNat] (fun l => [(d.toNat, h.widen ((s.reg l a.toNat).toNat % 2 ^ 16))]) ∧
      LaneWrites (.upkh g d a) s g [d.toNat, a.toNat] (fun l => [(d.toNat, h.widen ((s.reg l a.toNat).toNat / 2 ^ 16))])) ∧
    (byteKind s.st.fmt = some h →
      LaneWrites (.pkb g d a b) s g [d.toNat, a.toNat, b.toNat] (fun l => [(d.toNat,
        BitVec.ofNat 32 (h.narrow (s.reg l b.toNat) * 2 ^ 24 + h.narrow (s.reg l a.toNat) * 2 ^ 16 + (s.reg l d.toNat).toNat / 2 ^ 16))]) ∧
      LaneWrites (.upkb g d a b) s g [d.toNat, a.toNat, b.toNat] (fun l => [(d.toNat,
        h.widen ((s.reg l a.toNat).toNat / 2 ^ (8 * ((s.reg l b.toNat).toNat % 4)) % 2 ^ 8))])) ∧
    LaneWrites (.pkn g d a b) s g [d.toNat, a.toNat, b.toNat] (fun l => [(d.toNat,
      BitVec.ofNat 32 (kE2m1.narrow (s.reg l b.toNat) * 2 ^ 28 + kE2m1.narrow (s.reg l a.toNat) * 2 ^ 24 + (s.reg l d.toNat).toNat / 2 ^ 8))]) ∧
    LaneWrites (.upkn g d a b) s g [d.toNat, a.toNat, b.toNat] (fun l => [(d.toNat,
      kE2m1.widen ((s.reg l a.toNat).toNat / 2 ^ (4 * ((s.reg l b.toNat).toNat % 8)) % 2 ^ 4))]) ∧
    (r.toNat < 5 → (r.toNat < 2 ∨ v.toNat < 2) →
      LaneWrites (.cvt g d a u v r) s g [d.toNat, a.toNat] (fun l => [(d.toNat, cvt (cvtKind u) (cvtKind v) r (s.reg l a.toNat))]))

/-- R143 to R147 (that FRDXADD gives the canonical NaN is log entry 63): cross-lane instructions over the participating lanes P: a permutation falls back to the lane's own value where the named lane does not participate; queries, reductions and scans run over P in lane order. -/
def Obligations.CrossLane : Prop :=
  ∀ (s : State) (g : BitVec 4) (d a b : BitVec 6),
    let p := s.active g
    let pick : Nat → Nat → Word := fun l j => if j < s.gr.width ∧ p.has j then s.reg j a.toNat else s.reg l a.toNat
    let vals : Mask → List Word := fun m => m.lanes.map (fun l => s.reg l a.toNat)
    LaneWrites (.lpermAbs g d a b) s g [d.toNat, a.toNat, b.toNat] (fun l => [(d.toNat, pick l (s.reg l b.toNat).toNat)]) ∧
    LaneWrites (.lpermBack g d a b) s g [d.toNat, a.toNat, b.toNat] (fun l =>
      [(d.toNat, if (s.reg l b.toNat).toNat ≤ l then pick l (l - (s.reg l b.toNat).toNat) else s.reg l a.toNat)]) ∧
    LaneWrites (.lpermFwd g d a b) s g [d.toNat, a.toNat, b.toNat] (fun l => [(d.toNat, pick l (l + (s.reg l b.toNat).toNat))]) ∧
    LaneWrites (.lpermFlip g d a b) s g [d.toNat, a.toNat, b.toNat] (fun l => [(d.toNat, pick l (l ^^^ (s.reg l b.toNat).toNat))]) ∧
    LaneWrites (.lany g d a) s g [d.toNat, a.toNat] (fun _ => [(d.toNat, if (vals p).any (· != 0) then 1 else 0)]) ∧
    LaneWrites (.lall g d a) s g [d.toNat, a.toNat] (fun _ => [(d.toNat, if (vals p).all (· != 0) then 1 else 0)]) ∧
    LaneWrites (.lsame g d a) s g [d.toNat, a.toNat] (fun _ => [(d.toNat, if (vals p).all (· == (vals p).headD 0) then 1 else 0)]) ∧
    LaneWrites (.rdxadd g d a) s g [d.toNat, a.toNat] (fun _ => [(d.toNat, (vals p).foldl (· + ·) 0)]) ∧
    LaneWrites (.rdxmin g d a) s g [d.toNat, a.toNat] (fun _ => [(d.toNat, (vals p).tail.foldl sMin ((vals p).headD 0))]) ∧
    LaneWrites (.rdxmax g d a) s g [d.toNat, a.toNat] (fun _ => [(d.toNat, (vals p).tail.foldl sMax ((vals p).headD 0))]) ∧
    LaneWrites (.scanadd g d a) s g [d.toNat, a.toNat] (fun l => [(d.toNat, (vals (p &&& Mask.below (l + 1))).foldl (· + ·) 0)]) ∧
    LaneWrites (.scanaddx g d a) s g [d.toNat, a.toNat] (fun l => [(d.toNat, (vals (p &&& Mask.below l)).foldl (· + ·) 0)]) ∧
    LaneWrites (.rank g d a) s g [d.toNat, a.toNat] (fun l =>
      [(d.toNat, BitVec.ofNat 32 ((vals (p &&& Mask.below l)).countP (· == s.reg l a.toNat)))]) ∧
    LaneWrites (.count g d a b) s g [d.toNat, a.toNat, b.toNat] (fun l =>
      [(d.toNat, BitVec.ofNat 32 ((vals p).countP (· == s.reg l b.toNat)))]) ∧
    LaneWrites (.frdxadd g d a) s g [d.toNat, a.toNat] (fun _ =>
      [(d.toNat, canonical ((treeSum fAdd 6 ((List.range 64).map (fun l => if p.has l then some (s.reg l a.toNat) else none))).getD 0))]) ∧
    (s.goesOn = true → isPair d.toNat = true → s.beyondIn p [a.toNat] = 0 →
      Retires (.lmask g d a) s (s.setSpair d.toNat (Mask.ofPred (fun l => p.has l && s.reg l a.toNat != 0))) false)

/-- R60, R80: the divide family is absent on this part: each of its four words traps ILLEGAL for EXM, whatever its guard. R8: a lane instruction that names a local beyond L in some lane of its guard has no effect and traps REG_BOUND for exactly those lanes. R200, R299: the first check that an access fails in any lane traps for every lane of its guard, and the record of each lane that fails a check of its address holds the page, the direction and the cause (log entry 8). -/
def Obligations.LaneTraps : Prop :=
  (∀ (s : State) (g : BitVec 4) (d a b : BitVec 6),
    Traps (.idiv g d a b) s .illegal s.st.exm ∧ Traps (.idivn g d a b) s .illegal s.st.exm ∧
    Traps (.irem g d a b) s .illegal s.st.exm ∧ Traps (.iremn g d a b) s .illegal s.st.exm) ∧
  (∀ (s : State) (g : BitVec 4) (d a b : BitVec 6), s.wide = false → s.beyondIn (s.active g) [d.toNat, a.toNat, b.toNat] ≠ 0 →
    Traps (.iadd g d a b) s .regBound (s.beyondIn (s.active g) [d.toNat, a.toNat, b.toNat]) ∧
    Traps (.imul g d a b) s .regBound (s.beyondIn (s.active g) [d.toNat, a.toNat, b.toNat]) ∧
    Traps (.xor g d a b) s .regBound (s.beyondIn (s.active g) [d.toNat, a.toNat, b.toNat]) ∧
    Traps (.fadd g d a b) s .regBound (s.beyondIn (s.active g) [d.toNat, a.toNat, b.toNat])) ∧
  (∀ (s : State) (g : BitVec 4) (t a : BitVec 6) (b z m : BitVec 3) (out odd : Mask),
    let p := s.active g
    let n := Machine.sizeOf z
    let fields := accessFields t.toNat a.toNat (regsOf z)
    let page : Nat → Word := fun l =>
      if (s.tbReg b.toNat).bound then BitVec.ofInt 32 ((s.tbReg b.toNat).va + s.laneOff a l) &&& 0xFFFFF000#32 else 0
    let marks : Instr → Cause → Mask → (Nat → Word) → Prop := fun i c bad w =>
      s.landed = true → s.owedBank = none → exec i s = .next (s.takeTrap c p (bad.lanes.map (fun l => (l, w l))) TrapInfo.plain)
    s.isWave = false →
    (sizeBase z t = false → Traps (.ld g t a b z m) s .illegal s.st.exm ∧ Traps (.st g t a b z m) s .illegal s.st.exm ∧
      Traps (.lds g t a z m) s .illegal s.st.exm ∧ Traps (.sts g t a z m) s .illegal s.st.exm) ∧
    (sizeBase z t = true → p ≠ 0 → s.beyondIn p fields ≠ 0 → Traps (.ld g t a b z m) s .regBound p ∧ Traps (.st g t a b z m) s .regBound p ∧
      Traps (.lds g t a z m) s .regBound p ∧ Traps (.sts g t a z m) s .regBound p) ∧
    (sizeBase z t = true → p ≠ 0 → s.beyondIn p fields = 0 → (∀ l, out.has l = (p.has l && !s.offsetOk b.toNat (s.laneOff a l) n)) →
      (∀ l, odd.has l = (p.has l && !decide (((s.tbReg b.toNat).va + (s.laneOff a l).toNat) % n = 0))) →
      (out ≠ 0 → marks (.ld g t a b z m) .prot out (fun l => page l ||| 0x03#32) ∧ marks (.st g t a b z m) .prot out (fun l => page l ||| 0x83#32)) ∧
      (out = 0 → odd ≠ 0 → marks (.ld g t a b z m) .misalign odd (fun l => page l ||| 0x02#32) ∧ marks (.st g t a b z m) .misalign odd (fun l => page l ||| 0x82#32))) ∧
    (sizeBase z t = true → p ≠ 0 → s.beyondIn p fields = 0 → (∀ l, out.has l = (p.has l && !s.scratchGood (s.laneOff a l) n)) →
      (∀ l, odd.has l = (p.has l && !decide ((s.laneOff a l).toNat % n = 0))) →
      (out ≠ 0 → marks (.lds g t a z m) .prot out (fun _ => 0x03#32) ∧ marks (.sts g t a z m) .prot out (fun _ => 0x83#32)) ∧
      (out = 0 → odd ≠ 0 → marks (.lds g t a z m) .misalign odd (fun _ => 0x02#32) ∧ marks (.sts g t a z m) .misalign odd (fun _ => 0x82#32))))

/-- R119: NOP, SNOP and the hint region, by their words, advance and do nothing else. R45: where such an instruction is the last word of its segment it retires, and the next fetch traps SEG_EDGE for EXM; that TINSTR is 0 there is log entry 16. -/
def Obligations.EndOfSegment : Prop :=
  (∀ s : State, s.goesOn = true → Retires .nop s s false ∧ Retires .hint s s false ∧ Retires .snop s s false) ∧
  (∀ w : Word,
    (w.toNat ≤ 0x01FFFFFF → decode w = .ok .nop) ∧ (0x80000000 ≤ w.toNat → w.toNat ≤ 0x81FFFFFF → decode w = .ok .snop) ∧
    ((0x70000000 ≤ w.toNat ∧ w.toNat ≤ 0x77FFFFFF ∨ 0xF0000000 ≤ w.toNat ∧ w.toNat ≤ 0xF7FFFFFF) → decode w = .ok .hint)) ∧
  (∀ s : State, s.st.exm ≠ 0 → s.landed = true → hdrN s.st.hdr ≤ s.st.pos → (s.st.pc + 4).toNat % 4096 = 0 → s.st.status = .runnable →
    exec .nop s = .next ((s.retired s false).takeTrap .segEdge s.st.exm [] { TrapInfo.plain with instr := some 0 }))

/-! ## Uniform instructions and special registers -/

/-- R76, R91 to R94: the scalar arithmetic, once under its guard, on registers or with W64 on pairs; a pair that is not even-based or not below 56 is ILLEGAL whatever the guard. -/
def Obligations.UniformArithmetic : Prop :=
  ∀ (s : State) (g : BitVec 4) (d a b : BitVec 6) (i : BitVec 9) (j : BitVec 15),
    let x := s.sreg a.toNat
    let y := s.sreg b.toNat
    let n := y.toNat % 32
    (s.wide = false →
      Once (.sadd g d a b) s g (s.setSreg d.toNat (x + y)) ∧ Once (.ssub g d a b) s g (s.setSreg d.toNat (x - y)) ∧
      Once (.smin g d a b) s g (s.setSreg d.toNat (if x.toInt ≤ y.toInt then x else y)) ∧
      Once (.smax g d a b) s g (s.setSreg d.toNat (if x.toInt ≤ y.toInt then y else x)) ∧
      Once (.sminn g d a b) s g (s.setSreg d.toNat (if x.toNat ≤ y.toNat then x else y)) ∧
      Once (.smaxn g d a b) s g (s.setSreg d.toNat (if x.toNat ≤ y.toNat then y else x))) ∧
    (s.wide = true → isPair d.toNat = true → isPair a.toNat = true → isPair b.toNat = true →
      Once (.sadd g d a b) s g (s.setSpair d.toNat (s.sregPair a.toNat + s.sregPair b.toNat)) ∧
      Once (.ssub g d a b) s g (s.setSpair d.toNat (s.sregPair a.toNat - s.sregPair b.toNat)) ∧
      Once (.smin g d a b) s g (s.setSpair d.toNat (sMin (s.sregPair a.toNat) (s.sregPair b.toNat))) ∧
      Once (.smax g d a b) s g (s.setSpair d.toNat (sMax (s.sregPair a.toNat) (s.sregPair b.toNat))) ∧
      Once (.sminn g d a b) s g (s.setSpair d.toNat (uMin (s.sregPair a.toNat) (s.sregPair b.toNat))) ∧
      Once (.smaxn g d a b) s g (s.setSpair d.toNat (uMax (s.sregPair a.toNat) (s.sregPair b.toNat)))) ∧
    (s.wide = true → isPair d.toNat = false → Traps (.sadd g d a b) s .illegal s.st.exm) ∧
    Once (.smul g d a b) s g (s.setSreg d.toNat (x * y)) ∧
    Once (.smulh g d a b) s g (s.setSreg d.toNat (BitVec.ofInt 32 (x.toInt * y.toInt / 2 ^ 32))) ∧
    Once (.sand g d a b) s g (s.setSreg d.toNat (x &&& y)) ∧ Once (.sor g d a b) s g (s.setSreg d.toNat (x ||| y)) ∧
    Once (.sxor g d a b) s g (s.setSreg d.toNat (x ^^^ y)) ∧ Once (.sandn g d a b) s g (s.setSreg d.toNat (x &&& ~~~ y)) ∧
    Once (.sshl g d a b) s g (s.setSreg d.toNat (x <<< n)) ∧ Once (.sshr g d a b) s g (s.setSreg d.toNat (x >>> n)) ∧
    Once (.sshra g d a b) s g (s.setSreg d.toNat (x.sshiftRight n)) ∧
    Once (.spopc g d a) s g (s.setSreg d.toNat (popCount x)) ∧
    Once (.saddi g d a i) s g (s.setSreg d.toNat (x + s.immS i)) ∧ Once (.smovi g d j) s g (s.setSreg d.toNat (s.immS j)) ∧
    Once (.smov g d a) s g (s.setSreg d.toNat x) ∧
    (isPair d.toNat = true → isPair a.toNat = true → Once (.smov64 g d a) s g (s.setSpair d.toNat (s.sregPair a.toNat))) ∧
    ((isPair d.toNat && isPair a.toNat) = false → Traps (.smov64 g d a) s .illegal s.st.exm)

/-- R97: uniform compares and predicate logic write one uniform predicate, once, a compare as ISET combines (R89); predicate 8 reads true. -/
def Obligations.UniformPredicates : Prop :=
  ∀ (s : State) (g : BitVec 4) (c : BitVec 2) (p q r : BitVec 4) (a b : BitVec 6) (f : BitVec 3),
    p.toNat < 8 →
    (s.wide = false →
      Once (.sset g c p a b f) s g (s.setUpred p.toNat (combine c (s.upred p.toNat) (intCond f (s.sreg a.toNat) (s.sreg b.toNat))))) ∧
    (s.wide = true → isPair a.toNat = true → isPair b.toNat = true →
      Once (.sset g c p a b f) s g (s.setUpred p.toNat (combine c (s.upred p.toNat) (intCond f (s.sregPair a.toNat) (s.sregPair b.toNat))))) ∧
    (q.toNat < 9 → r.toNat < 9 →
      Once (.qand g p q r) s g (s.setUpred p.toNat (s.upred q.toNat && s.upred r.toNat)) ∧
      Once (.qor g p q r) s g (s.setUpred p.toNat (s.upred q.toNat || s.upred r.toNat)) ∧
      Once (.qxor g p q r) s g (s.setUpred p.toNat (xor (s.upred q.toNat) (s.upred r.toNat))) ∧
      Once (.qandn g p q r) s g (s.setUpred p.toNat (s.upred q.toNat && !s.upred r.toNat)) ∧
      Once (.qnot g p q) s g (s.setUpred p.toNat (!s.upred q.toNat))) ∧
    Once (.qset g p) s g (s.setUpred p.toNat true) ∧ Once (.qclr g p) s g (s.setUpred p.toNat false) ∧
    (∀ k v, k < 8 → (s.setUpred p.toNat v).upred k = if k = p.toNat then v else s.upred k) ∧ s.upred 8 = true ∧
    (∀ old new, combine 0 old new = new ∧ combine 1 old new = (old && new) ∧ combine 2 old new = (old || new) ∧ combine 3 old new = xor old new)

/-- R95, R96, R98, R108, R215: SRD of a register that can be read, with what the read latches; SLANE; the index registers; FMT, whose bits 31:16 read 0; YIELD. -/
def Obligations.SpecialReads : Prop :=
  ∀ (s : State) (g : BitVec 4) (d a b : BitVec 6) (r : BitVec 12) (v : Word) (i : BitVec 2) (k : BitVec 15),
    (s.srdValue r.toNat = .ok v → Once (.srd g d r) s g ((s.latch r.toNat).setSreg d.toNat v)) ∧
    (∀ c, s.srdValue r.toNat = .error c → Traps (.srd g d r) s c s.st.exm) ∧
    (∀ j, j = (s.sreg b.toNat).toNat % 64 → (s.lane j).beyond a.toNat = false →
      Once (.slane g d a b) s g (s.setSreg d.toNat (if j < s.gr.width ∧ s.st.membership.has j = true then s.reg j a.toNat else 0))) ∧
    Once (.setix g i a) s g (s.modSt (fun x => { x with ix := x.ix.set i.toNat (s.sreg a.toNat) })) ∧
    Once (.addix g i a) s g (s.modSt (fun x => { x with ix := x.ix.set i.toNat (s.st.ix.getD i.toNat 0 + s.sreg a.toNat) })) ∧
    Once (.fmtset g k) s g (s.modSt (fun x => { x with fmt := s.immZ k &&& 0xFFFF })) ∧
    Once (.yield g) s g (s.modSt (fun x => { x with served := s.dev.clock.toNat, promoted := none }))

/-- R56, R321, R323: the values of the special registers by number; a number that is not assigned is ILLEGAL, and one from 0x200 up is PRIV outside a privileged stream. -/
def Obligations.SpecialValues : Prop :=
  ∀ s : State,
    s.srdValue 0x000 = .ok (s.st.exm.setWidth 32) ∧ s.srdValue 0x001 = .ok (s.st.exm.extractLsb' 32 32) ∧ s.srdValue 0x002 = .ok s.st.fmt ∧
    s.srdValue 0x003 = .ok (BitVec.ofNat 32 s.st.pathd) ∧ s.srdValue 0x005 = .ok s.gr.cbatch ∧ s.srdValue 0x006 = .ok s.gr.mbatch ∧
    s.srdValue 0x007 = .ok s.gr.cmdseq ∧ s.srdValue 0x008 = .ok s.st.dep ∧ s.srdValue 0x00A = .ok (BitVec.ofNat 32 s.gr.allot) ∧
    s.srdValue 0x00B = .ok (BitVec.ofNat 32 s.gr.ilp) ∧ s.srdValue 0x010 = .ok (s.dev.clock.setWidth 32) ∧
    s.srdValue 0x019 = .ok (BitVec.ofNat 32 s.gr.ctx) ∧ s.srdValue 0x01A = .ok (s.st.unifstk.setWidth 32) ∧ s.srdValue 0x100 = .ok Config.feat0 ∧
    (∀ n, 0x101 ≤ n → n ≤ 0x10F → s.srdValue n = .ok 0) ∧
    (∀ n, 0x00C ≤ n → n ≤ 0x00F → s.srdValue n = .error .illegal) ∧ (∀ n, 0x110 ≤ n → n ≤ 0x1FF → s.srdValue n = .error .illegal) ∧
    (∀ n, 0x200 ≤ n → s.st.isPriv = false → s.srdValue n = .error .priv) ∧
    (s.st.privileged = true → s.srdValue 0x200 = .ok (s.st.trap.cause.setWidth 32) ∧ s.srdValue 0x201 = .ok s.st.trap.instr ∧
      s.srdValue 0x202 = .ok (s.st.trap.pc.setWidth 32) ∧ s.srdValue 0x204 = .ok (s.st.trap.mask.setWidth 32) ∧
      s.srdValue 0x208 = .ok s.st.trap.depth ∧ s.srdValue 0x318 = .ok (s.st.trap.dbgst.setWidth 32))

/-- R95, R131, R321, R323: SWR writes EXM within the membership, FMT, clears bits of UNIFSTK, and in a handler writes TPC; any other number is ILLEGAL, and one from 0x200 up is PRIV outside a privileged stream. R56, R372: the sub-steps of SRD and SWR: a half of EXM written, bits of UNIFSTK cleared, the high halves of CLOCK and of an event counter latched; each changes nothing else. -/
def Obligations.SpecialWrites : Prop :=
  (∀ (s : State) (g : BitVec 4) (d : BitVec 6),
    let v := s.sreg d.toNat
    let m := s.st.membership
    ((v &&& m.setWidth 32) ≠ 0 ∨ s.st.exm.extractLsb' 32 32 ≠ 0 →
      Once (.swr g d 0x000) s g (s.modSt (fun x => { x with exm := ((x.exm.extractLsb' 32 32 : Word) ++ (v &&& m.setWidth 32) : BitVec 64) }))) ∧
    ((v &&& m.extractLsb' 32 32) ≠ 0 ∨ s.st.exm.setWidth 32 ≠ 0 →
      Once (.swr g d 0x001) s g (s.modSt (fun x => { x with exm := ((v &&& m.extractLsb' 32 32) ++ (x.exm.setWidth 32 : Word) : BitVec 64) }))) ∧
    Once (.swr g d 0x002) s g (s.modSt (fun x => { x with fmt := v &&& 0xFFFF })) ∧
    Once (.swr g d 0x01A) s g (s.modSt (fun x => { x with unifstk := x.unifstk &&& ~~~ (v.setWidth 2) })) ∧
    (s.st.privileged = true →
      Once (.swr g d 0x202) s g (s.modSt (fun x => { x with trap := { x.trap with pc := (x.trap.pc.extractLsb' 32 25 ++ v : BitVec 57) } })) ∧
      Once (.swr g d 0x203) s g (s.modSt (fun x => { x with trap := { x.trap with
        pc := ((v.setWidth 25 : BitVec 25) ++ (x.trap.pc.setWidth 32 : Word) : BitVec 57) } }))) ∧
    (∀ r : BitVec 12, 0x003 ≤ r.toNat → r.toNat < 0x200 → r.toNat ≠ 0x01A → Traps (.swr g d r) s .illegal s.st.exm) ∧
    (∀ r : BitVec 12, 0x200 ≤ r.toNat → s.st.isPriv = false → Traps (.swr g d r) s .priv s.st.exm)) ∧
  (∀ (s : State) (v : Word) (n : BitVec 4),
    ((s.writeExm false v).st.exm ≠ 0 → exec (.exmWrite false v) s = .next (s.writeExm false v)) ∧
    ((s.writeExm true v).st.exm ≠ 0 → exec (.exmWrite true v) s = .next (s.writeExm true v)) ∧
    (∀ hi, (s.writeExm hi v).st.exm &&& s.st.membership = (s.writeExm hi v).st.exm ∨ s.st.exm &&& s.st.membership ≠ s.st.exm) ∧
    exec (.unifstkClear v) s = .next (s.modSt (fun x => { x with unifstk := x.unifstk &&& ~~~ (v.setWidth 2) })) ∧
    exec .clockLowRead s = .next (s.modSt (fun x => { x with clockHi := some (s.dev.clock.extractLsb' 32 32) })) ∧
    (∃ t, exec (.ecntLowRead n) s = .next t ∧ t = s.modSt (fun x => { x with ecntHi := t.st.ecntHi }) ∧
      (∀ c, s.coreRec s.gr.coreId = some c → t.st.ecntHi = s.st.ecntHi.set n.toNat (some ((c.ecnt.getD n.toNat 0).extractLsb' 32 16)))))

/-- R49 to R52: an EXT that is not last in its clause and not before another EXT latches its fields for the next word, and the stream stands at that word; misplaced, it is ILLEGAL. -/
def Obligations.Prefix : Prop :=
  ∀ (s : State) (i : BitVec 24) (c : BitVec 6) (sc : BitVec 3) (w n f : BitVec 1) (m : BitVec 12),
    let bad : Prop := s.st.ext.isSome = true ∨ hdrN s.st.hdr ≤ s.st.pos ∨ ((s.codeWord (s.st.pc + 4)).getD 0).extractLsb' 25 6 = 0x3F
    let at_ : Ext → State := fun x => s.modSt (fun t => { t with pc := t.pc + 4, pos := t.pos + 1, fresh := false, ext := some x })
    s.landed = true → s.owedBank = none →
    (¬ bad →
      exec (.extImmediate i) s = .next (at_ (.imm i)) ∧
      exec (.extOperand c sc w n f m) s = .next (at_ (.opnd c sc (w == 1) (n == 1) (f == 1) m))) ∧
    (bad → exec (.extImmediate i) s = .next ((s.modSt (fun t => { t with ext := none })).takeTrap .illegal s.st.exm [] TrapInfo.plain) ∧
      exec (.extOperand c sc w n f m) s = .next ((s.modSt (fun t => { t with ext := none })).takeTrap .illegal s.st.exm [] TrapInfo.plain))

/-! ## Memory instructions -/

/-- R200 to R205, R211: a load whose lanes pass the checks sends one request for each sector that its lanes read, counts on its flag and goes on; no register and no byte of memory changes yet. -/
def Obligations.LoadIssue : Prop :=
  ∀ (s : State) (g : BitVec 4) (t a : BitVec 6) (b z m : BitVec 3),
    let p := s.active g
    let n := Machine.sizeOf z
    let off : Int := (s.sreg a.toNat).toNat + s.disp
    let loc : Loc := devLoc (s.tbReg b.toNat).key ((s.tbReg b.toNat).run + off.toNat)
    s.goesOn = true → s.isWave = false → sizeBase z t = true → s.outstanding s.gr.coreId + 64 ≤ 1536 →
    (s.beyondIn p (accessFields t.toNat a.toNat (regsOf z)) = 0 → s.reaches p b.toNat a n needR →
      ∃ u, exec (.ld g t a b z m) s = .next u ∧ u.sameMem s ∧ u.sameRegs s ∧
        u.loadSent s false (p.lanes.map (fun l => ⟨l, s.accessLoc b.toNat a l, n, signedSize z,
          s.undefAt (s.accessVa b.toNat a l) (s.accessLoc b.toNat a l) n, s.laneWords l t.toNat (regsOf z)⟩)) m) ∧
    (s.uniGuard g = true → s.reachesAt b.toNat off n needR →
      ∃ u, exec (.sld g t a b z m) s = .next u ∧ u.sameMem s ∧ u.sameRegs s ∧
        u.loadSent s true [⟨0, loc, n, signedSize z, s.undefAt ((s.tbReg b.toNat).va + off.toNat) loc n, scalarWords t.toNat (regsOf z)⟩] m) ∧
    (s.uniGuard g = false → Idles (.sld g t a b z m) s)

/-- R191, R203, R205: the first outstanding sector of the issuing stream returns, once no older write of its program order is on its way there (R21): each lane's registers take the bytes that the home, or the L1, holds now, and the flag is given back; a value that is undefined is free (log entry 7). R48, R205: the size codes; 8 and 16 bits are extended to 32, 64 and 128 bits fill consecutive registers. -/
def Obligations.LoadReturn : Prop :=
  (∀ (s : State) (r : LoadSector) (rest : List LoadSector), s.st.loads = r :: rest → s.st.gid = s.gr.gid → s.olderOwn s.st r.id r.sector = false →
    ∃ (u : State) (vs : List Nat), exec (.loadSectorReturn s.st.sid) s = .next u ∧ u.sameMem s ∧ u.st.loads = rest ∧ vs.length = r.reads.length ∧
      (∀ x ∈ r.reads.zip vs, x.1.undef = false → x.1.loc.plain x.1.size → x.2 = s.loadBytes s.gr.coreId s.gr.ctx r.useL1 x.1.loc x.1.size) ∧
      (r.scalar = false → u.st.sregs = s.st.sregs ∧ u.gr.lanes = (r.reads.zip vs).foldl (fun ls x =>
        ls.modify x.1.lane (fun y => y.land s.gr.allot (x.1.words.zip (loadWords x.1.size x.1.signed x.2)))) s.gr.lanes) ∧
      (r.scalar = true → u.gr.lanes = s.gr.lanes ∧ u.st.sregs = (r.reads.zip vs).foldl (fun rs x =>
        (x.1.words.zip (loadWords x.1.size x.1.signed x.2)).foldl (fun q w => match w.1 with
          | some k => q.set k w.2
          | none => q) rs) s.st.sregs) ∧
      u.st.flags = (match r.flag with
        | some f => s.st.flags.modify f (· - 1)
        | none => s.st.flags)) ∧
  (∀ (v : Nat) (w : Bool),
    loadWords 1 false v = [BitVec.setWidth 32 (BitVec.ofNat 8 v)] ∧ loadWords 1 true v = [BitVec.signExtend 32 (BitVec.ofNat 8 v)] ∧
    loadWords 2 false v = [BitVec.setWidth 32 (BitVec.ofNat 16 v)] ∧ loadWords 2 true v = [BitVec.signExtend 32 (BitVec.ofNat 16 v)] ∧
    loadWords 4 w v = [BitVec.ofNat 32 v] ∧ loadWords 8 w v = (List.range 2).map (fun i => BitVec.ofNat 32 (v / 2 ^ (32 * i))) ∧
    loadWords 16 w v = (List.range 4).map (fun i => BitVec.ofNat 32 (v / 2 ^ (32 * i)))) ∧
  (List.range 8).map (fun z => (Machine.sizeOf (BitVec.ofNat 3 z), regsOf (BitVec.ofNat 3 z), signedSize (BitVec.ofNat 3 z), sizeBase (BitVec.ofNat 3 z) 0)) =
    [(1, 1, false, true), (2, 1, false, true), (4, 1, false, true), (8, 2, false, true), (16, 4, false, true), (1, 1, true, true), (2, 1, true, true), (0, 1, false, false)]

/-- R191, R206, R211: a store whose lanes pass the checks is on its way with the bytes that its lanes hold; memory does not change until it performs. -/
def Obligations.StoreIssue : Prop :=
  ∀ (s : State) (g : BitVec 4) (t a : BitVec 6) (b z m : BitVec 3),
    let p := s.active g
    let n := Machine.sizeOf z
    let off : Int := (s.sreg a.toNat).toNat + s.disp
    let loc : Loc := devLoc (s.tbReg b.toNat).key ((s.tbReg b.toNat).run + off.toNat)
    s.goesOn = true → s.isWave = false → sizeBase z t = true → s.outstanding s.gr.coreId + 64 * 2 ≤ 1536 → (m = 1 → s.quiet) → (∀ y ∈ s.stores, y.id < s.nextId) →
    (p ≠ 0 → s.beyondIn p (accessFields t.toNat a.toNat (regsOf z)) = 0 → s.reaches p b.toNat a n needW →
      (∀ l ∈ p.lanes, s.inArea s.gr.ctx (s.accessVa b.toNat a l) = false) →
      ∃ u x, exec (.st g t a b z m) s = .next u ∧ u.sameMem s ∧ u.sameRegs s ∧ u.stores = s.stores ++ [x] ∧ .storePerform x.id ∈ u.events ∧
        x.sid = s.st.sid ∧ x.flag = s.setA ∧ x.writes = p.lanes.flatMap (fun l => (List.range n).map (fun i =>
          ((s.accessLoc b.toNat a l).plus i, byteOf (s.regsValue l t.toNat (regsOf z) % 2 ^ (8 * n)) i)))) ∧
    (s.uniGuard g = true → s.reachesAt b.toNat off n needW → s.inArea s.gr.ctx ((s.tbReg b.toNat).va + off.toNat) = false →
      ∃ u x, exec (.sst g t a b z m) s = .next u ∧ u.sameMem s ∧ u.sameRegs s ∧ u.stores = s.stores ++ [x] ∧ .storePerform x.id ∈ u.events ∧
        x.sid = s.st.sid ∧ x.flag = s.setA ∧
        x.writes = (List.range n).map (fun i => (loc.plus i, byteOf (s.sregsValue t.toNat (regsOf z) % 2 ^ (8 * n)) i))) ∧
    (s.uniGuard g = false → Idles (.sst g t a b z m) s) ∧ (p = 0 → Idles (.st g t a b z m) s)

/-- R189, R191: a store that performs: each byte of HBM or host memory that it names reads as its last write to it (which lane's value stands where two write one byte is log entry 13), every other byte reads as before; both memories keep their canonical form (log entry 5). R392: under a context's key a store changes what that key reads in the same way, outside the 32-byte sectors that it names nothing, and what a page without ENC reads of a sector is its encryption with the sector's number (log entry 11). -/
def Obligations.StorePerforms : Prop :=
  (∀ (s : State) (x : PendStore), s.stores.find? (fun y => y.id == x.id) = some x → (∀ w ∈ x.writes, ∀ k a, w.1 ≠ .enc k a) →
    ∃ u, exec (.storePerform x.id) s = .next u ∧ u.stores = s.stores.filter (fun y => y.id != x.id) ∧
      (∀ l : Loc, l.plain 1 → u.byteAt l = ((x.writes.reverse.find? (fun w => decide (w.1 = l))).map (·.2)).getD (s.byteAt l)) ∧
      ((∀ w ∈ x.writes, w.1.plain 1) → u.gr = s.gr ∧ u.groups = s.groups ∧ u.un = s.un ∧ u.units = s.units)) ∧
  (∀ (s : State) (x : PendStore) (k : Nat), s.stores.find? (fun y => y.id == x.id) = some x → (∀ w ∈ x.writes, ∃ a, w.1 = .enc k a) →
    ∃ u, exec (.storePerform x.id) s = .next u ∧ u.host = s.host ∧
      (∀ a, u.byteAt (.enc k a) = ((x.writes.reverse.find? (fun w => decide (w.1 = .enc k a))).map (·.2)).getD (s.byteAt (.enc k a))) ∧
      (∀ a, (∀ w ∈ x.writes, w.1.num / 32 ≠ a / 32) → u.mem.get a = s.mem.get a)) ∧
  (∀ (s : State) (k a : Nat), a < Config.hbmBytes →
    s.byteAt (.dev a) = byteOf (Config.sectorCipher k (a / 32) (BitVec.ofNat 256 (s.getN (.enc k (32 * (a / 32))) 32))).toNat (a % 32)) ∧
  (∀ (s t : State) (id : Nat), s.memWf → exec (.storePerform id) s = .next t → t.memWf)

/-- R161, R162, R207: scratchpad loads and stores act at once on the window of the unit: a load gives each lane the bytes at its offset, a store writes them, the lanes in ascending order (log entry 13). R209, R210: a SATOM of one lane puts the new value at its offset and the old one into the lane. -/
def Obligations.ScratchAccess : Prop :=
  (∀ (s : State) (g : BitVec 4) (t a : BitVec 6) (z m : BitVec 3),
    let p := s.active g
    let n := Machine.sizeOf z
    let spot : Nat → Nat × Nat := fun l => (s.scratchAt (s.laneOff a l) n).getD (0, 0)
    s.goesOn = true → sizeBase z t = true → s.beyondIn p (accessFields t.toNat a.toNat (regsOf z)) = 0 →
    (∀ l ∈ p.lanes, s.scratchGood (s.laneOff a l) n = true ∧ (s.laneOff a l).toNat % n = 0) →
    ((∀ l ∈ p.lanes, s.unsettledLoc (s.scratchLoc (spot l).1 (spot l).2) n = false) →
      ∃ u, exec (.lds g t a z m) s = .next u ∧ u.sameMem s ∧ u.un = s.un ∧ u.st.sregs = s.st.sregs ∧ u.st.pc = s.st.pc + 4 ∧
        u.gr.lanes = p.lanes.foldl (fun ls l => ls.modify l (fun y => y.land s.gr.allot
          ((s.laneWords l t.toNat (regsOf z)).zip (loadWords n (signedSize z) (s.scratchGet (spot l).1 (spot l).2 n))))) s.gr.lanes) ∧
    ((m = 1 → s.quiet) →
      ∃ u, exec (.sts g t a z m) s = .next u ∧ u.sameMem s ∧ u.sameRegs s ∧
        u.un = p.lanes.foldl (fun x l => x.putWindow (spot l).1 (spot l).2 (s.regsValue l t.toNat (regsOf z) % 2 ^ (8 * n)) n) s.un)) ∧
  (∀ (s : State) (g : BitVec 4) (t a : BitVec 6) (o v : BitVec 3) (l k off : Nat),
    let n := s.atomSize
    s.goesOn = true → s.atomLegal false true t o v = true → (s.active g).lanes = [l] →
    s.beyondIn (s.active g) (accessFields t.toNat a.toNat (s.atomRegs o)) = 0 → s.scratchAt (s.laneOff a l) n = some (k, off) →
    s.scratchGood (s.laneOff a l) n = true → (s.laneOff a l).toNat % n = 0 → s.unsettledLoc (s.scratchLoc k off) n = false → (v = 7 → s.quiet) →
    ∃ u, exec (.satom g t a o v) s = .next u ∧ u.sameMem s ∧ u.st.sregs = s.st.sregs ∧ u.st.pc = s.st.pc + 4 ∧
      (let x := s.atomLane t o true l (.dev 0)
       let old : Pair := BitVec.ofNat 64 (s.scratchGet k off n)
       u.un = s.un.putWindow k off (atomNew o n x.sgn x.flt old x.v x.nv).toNat n ∧
       u.gr.lanes = s.gr.lanes.modify l (fun y => y.land s.gr.allot (x.words.zip (loadWords (if n = 8 then 8 else 4) false old.toNat)))))

/-- R208, R209: an ATOM or a RED whose lanes pass the checks is on its way to its homes; a quantum RED (USE 4) is held in its agent instead, and QUANTUM_RED_FLUSH sends what is held (R196). Memory does not change yet. -/
def Obligations.AtomicIssue : Prop :=
  ∀ (s : State) (g : BitVec 4) (t a : BitVec 6) (b o v : BitVec 3),
    let p := s.active g
    let op : Bool → Nat → AtomLane := fun ret l =>
      { s.atomLane t o ret l (s.accessLoc b.toNat a l) with movable := s.movable s.gr.ctx (s.accessVa b.toNat a l),
                                                             undef := s.undefAt (s.accessVa b.toNat a l) (s.accessLoc b.toNat a l) s.atomSize }
    s.goesOn = true → s.outstanding s.gr.coreId + 64 ≤ 1536 → (v = 7 → s.quiet) → p ≠ 0 →
    s.beyondIn p (accessFields t.toNat a.toNat (s.atomRegs o)) = 0 → s.reaches p b.toNat a s.atomSize needRW →
    (s.atomLegal false false t o v = true →
      ∃ u x, exec (.atom g t a b o v) s = .next u ∧ u.sameMem s ∧ u.sameRegs s ∧ u.atomics.getLast? = some x ∧ .atomicPerform x.id ∈ u.events ∧
        x.ops = p.lanes.map (op true) ∧ x.sid = s.st.sid ∧ x.flags = s.setA.toList) ∧
    (s.atomLegal true false t o v = true → v ≠ 4 →
      ∃ u x, exec (.red g t a b o v) s = .next u ∧ u.sameMem s ∧ u.sameRegs s ∧ u.atomics.getLast? = some x ∧ .atomicPerform x.id ∈ u.events ∧
        x.ops = p.lanes.map (op false) ∧ x.sid = s.st.sid ∧ x.flags = s.setA.toList) ∧
    (s.atomLegal true false t o v = true → v = 4 → s.st.held = [] → ∀ l, p.lanes = [l] →
      ∃ u, exec (.red g t a b o v) s = .next u ∧ u.sameMem s ∧ u.sameRegs s ∧ u.atomics = s.atomics ∧
        (∃ m, u.st.held = [{ op := op false l, since := s.dev.clock.toNat, samples := m }]) ∧ u.st.heldFlags = s.st.heldFlags ++ s.setA.toList) ∧
    (s.st.held ≠ [] →
      ∃ u, exec (.quantumRedFlush s.st.sid) s = .next u ∧ u.sameMem s ∧ u.st.held = [] ∧ .atomicPerform s.nextId ∈ u.events ∧
        u.atomics = s.atomics ++ [⟨s.nextId, s.st.sid, s.st.gid,
          ((s.allGroups.find? (fun y => y.gid == s.st.gid)).map Group.coreId).getD 0, s.st.held.map (·.op), s.st.heldFlags, none, s.st.held.flatMap (·.samples)⟩])

/-- R170, R209: the atomic of one lane performs at its home: the location takes the new value, the lane's registers the old one, its line is a synchronisation line, and no other byte of memory changes; with several lanes every byte outside their locations stays. The new value of 4 or 8 bytes by the operation. -/
def Obligations.AtomicPerforms : Prop :=
  (∀ (s : State) (x : PendAtomic), s.atomics.find? (fun y => y.id == x.id) = some x → (∀ q ∈ x.ops, q.loc.plain q.size) →
    ∃ u, exec (.atomicPerform x.id) s = .next u ∧ u.atomics = s.atomics.filter (fun y => y.id != x.id) ∧
      (∀ l : Loc, l.plain 1 → (∀ q ∈ x.ops, ¬ l.among q.loc q.size) → u.byteAt l = s.byteAt l) ∧
      (∀ q, x.ops = [q] → x.gid = s.gr.gid → q.undef = false →
        let old : Pair := BitVec.ofNat 64 (s.getN q.loc q.size)
        u.getN q.loc q.size = (atomNew q.opa q.size q.sgn q.flt old q.v q.nv).toNat ∧ (∀ d, q.loc = .dev d → u.isSync q.loc = true) ∧
        u.gr.lanes = s.gr.lanes.modify q.lane (fun y => y.land s.gr.allot (q.words.zip (loadWords (if q.size = 8 then 8 else 4) false old.toNat))))) ∧
  (∀ (old v nv : Pair) (n : Nat), n = 4 ∨ n = 8 →
    (atomNew 0 n false false old v nv).toNat = (old.toNat + v.toNat) % 2 ^ (8 * n) ∧
    (atomNew 3 n false false old v nv).toNat = (old &&& v).toNat % 2 ^ (8 * n) ∧
    (atomNew 4 n false false old v nv).toNat = (old ||| v).toNat % 2 ^ (8 * n) ∧
    (atomNew 5 n false false old v nv).toNat = (old ^^^ v).toNat % 2 ^ (8 * n) ∧
    (atomNew 6 n false false old v nv).toNat = v.toNat % 2 ^ (8 * n) ∧
    (atomNew 7 n false false old v nv).toNat = (if old.toNat % 2 ^ (8 * n) = v.toNat % 2 ^ (8 * n) then nv else old).toNat % 2 ^ (8 * n) ∧
    (atomNew 1 n false false old v nv).toNat = min (old.toNat % 2 ^ (8 * n)) (v.toNat % 2 ^ (8 * n)) ∧
    (atomNew 2 n false false old v nv).toNat = max (old.toNat % 2 ^ (8 * n)) (v.toNat % 2 ^ (8 * n)))

/-- R172, R175, R181, R192, R212, R214: TBSET binds a translation register to the run of its first page, with the key of that page (R392); where the die's walker routine serves a miss of the first page, the walk is asked for while requests are left, and the next access translates (R172 has TBSET translate once: this is log entry 23); a FENCE that has nothing to wait for retires, drops the L1 of its core when it acquires beyond it, and with ASYNC makes the agent's copies older writes. -/
def Obligations.BindAndFence : Prop :=
  ∀ (s : State) (g : BitVec 4) (n : BitVec 3) (a b : BitVec 6) (sc : BitVec 3) (k : BitVec 2) (y : BitVec 1),
    let len := if s.sreg b.toNat = 0 then 2 ^ 32 else (s.sreg b.toNat).toNat
    let va := (s.sregPair a.toNat).toNat % 2 ^ 57
    (isPair a.toNat = true → s.unwalked va = false →
      Once (.tbset g n a b) s g (s.modSt (fun x => { x with tb := x.tb.set n.toNat (s.bindTb s.gr.ctx va len) }))) ∧
    (isPair a.toNat = true → s.unwalked va = true → s.goesOn = true →
      (s.uniGuard g = false → Retires (.tbset g n a b) s s false) ∧
      (s.uniGuard g = true → s.hasRoom 1 = true → Retires (.tbset g n a b) s (((s.modSt (fun x =>
        { x with tb := x.tb.set n.toNat { bound := true, va := va, len := len, run := 0, limit := 0, perms := ⟨false, false, false⟩, stale := true } })).queueWalk
          s.gr.coreId s.gr.ctx va needR false).countCore s.gr.coreId 6 1) false)) ∧
    (isPair a.toNat = false → Traps (.tbset g n a b) s .illegal s.st.exm) ∧
    (∀ ctx va m, (s.bindTb ctx va m).bound = true ∧ (s.bindTb ctx va m).va = va ∧ (s.bindTb ctx va m).len = m ∧ (s.bindTb ctx va m).stale = false ∧
      (∀ f size p no enc, s.walkVa ctx va = .page f size p false no enc → (s.bindTb ctx va m).run = f + va % size ∧ (s.bindTb ctx va m).perms = p ∧ (s.bindTb ctx va m).key = s.keyOf ctx enc)) ∧
    (s.goesOn = true → s.uniGuard g = false → Retires (.fence g sc k y) s s false) ∧
    (s.goesOn = true → s.uniGuard g = true → s.st.held = [] → (k ≠ 0 → s.owing = false) → (k ≠ 0 → y = 1 → ∀ c ∈ s.ownCopies, c.isOver = true) →
      ∃ u, exec (.fence g sc k y) s = .next u ∧ u.sameMem s ∧ u.sameRegs s ∧
        (k ≠ 1 → 2 ≤ sc.toNat → ∀ x ∈ u.l1, x.core ≠ s.gr.coreId) ∧
        (k ≠ 0 → y = 1 → ∀ c ∈ s.ownCopies, ∃ d ∈ u.cmds, d.id = c.id ∧ d.fenced = true))

/-! ## Control -/

/-- R109 to R112, R117, R133, R148: transfers within a segment: with no lane taken the stream goes on, with every lane it stands at the target, else the taken lanes are pushed as a PEND and the others go on; a divergent BRAU records the event. JOINAT pushes a JOIN; SBRA, JSEG and JSEGR move the stream whole. -/
def Obligations.Branches : Prop :=
  ∀ (s : State) (g : BitVec 4) (o : BitVec 21) (a : BitVec 6),
    let t := s.active g
    let n := s.st.exm.minus t
    let to_ := s.target o
    let e : PathEntry := { join := false, addr := to_, depth := s.st.dep, mask := t, fmt := s.st.fmt }
    let split : State := s.modSt (fun x => { x with stack := e :: x.stack, exm := n })
    s.goesOn = true →
    (s.leaves to_ = false →
      (t = 0 → Retires (.bra g o) s s false ∧ Retires (.brau g o) s s false) ∧
      (t ≠ 0 → n = 0 → MovesTo (.bra g o) s (s.goto to_) false ∧ MovesTo (.brau g o) s (s.goto to_) false) ∧
      (t ≠ 0 → n ≠ 0 → s.roomOnChip → Retires (.bra g o) s split false ∧
        Retires (.brau g o) s ((split.modSt (fun x => { x with unifstk := x.unifstk ||| 1 })).countCore s.gr.coreId 9 1) false) ∧
      (s.roomOnChip → (g = 0 ∨ 13 ≤ g.toNat) → Retires (.joinat g o) s (s.modSt (fun x =>
        { x with stack := { join := true, addr := to_, depth := x.dep, mask := x.exm, fmt := x.fmt } :: x.stack })) false) ∧
      (s.uniGuard g = true → MovesTo (.sbra g o) s (s.goto to_) false) ∧ (s.uniGuard g = false → Retires (.sbra g o) s s false)) ∧
    (1 ≤ g.toNat → g.toNat ≤ 12 → Traps (.joinat g o) s .illegal s.st.exm) ∧
    (s.leaves to_ = true → Traps (.bra g o) s .segEdge s.st.exm ∧ Traps (.brau g o) s .segEdge s.st.exm ∧ Traps (.sbra g o) s .segEdge s.st.exm) ∧
    (s.lastWord = true → s.uniGuard g = true → s.segPresent to_ = true → MovesTo (.jseg g o) s (s.goto to_) false) ∧
    (s.lastWord = true → s.uniGuard g = false → Retires (.jseg g o) s s false) ∧
    (s.lastWord = false → Traps (.jseg g o) s .illegal s.st.exm ∧ Traps (.jsegr g a) s .illegal s.st.exm) ∧
    (∀ x : CodeVa, x = (s.sregPair a.toNat).setWidth 57 → s.lastWord = true → isPair a.toNat = true → s.uniGuard g = true →
      (s.sregPair a.toNat).toNat % 4 = 0 → s.segPresent x = true → MovesTo (.jsegr g a) s (s.goto x) false)

/-- R15, R46, R113, R133: a call of every lane of EXM to one present target, the last word of its clause, with frame space: each lane's frame moves up with its linkage, DEP is one more, the stream stands at the target; a CALL of some lanes pushes the others as a PEND after it. -/
def Obligations.Calls : Prop :=
  ∀ (s : State) (g : BitVec 4) (o : BitVec 21) (a : BitVec 6),
    let into : Mask → CodeVa → State := fun t x =>
      ((s.mapLanes t (fun _ y => y.call s.gr.allot (s.st.pc + 4))).modSt (fun y => { y with exm := t, dep := y.dep + 1 })).goto x
    let roomy : Mask → Prop := fun t => ∀ l ∈ t.lanes, (s.lane l).callBase + 57 < s.gr.faw ∧ (s.lane l).callBase + 58 - s.gr.allot ≤ (s.lane l).lowres
    let target : Nat → CodeVa := fun l => (s.regPair l a.toNat).setWidth 57
    let good : Mask → Prop := fun t => isPair a.toNat = true ∧ s.beyondIn t [a.toNat, a.toNat + 1] = 0 ∧
      ∀ l ∈ t.lanes, (s.regPair l a.toNat).toNat % 4 = 0 ∧ target l = target t.lowest ∧ s.segPresent (target l) = true
    s.goesOn = true → s.lastWord = true → s.st.faults = [] →
    (s.active g = 0 → Retires (.call g o) s s true ∧ (isPair a.toNat = true → Retires (.callr g a) s s true)) ∧
    (s.active g = s.st.exm → roomy s.st.exm → s.segPresent (s.target o) = true → MovesTo (.call g o) s (into s.st.exm (s.target o)) true) ∧
    (s.active g = s.st.exm → roomy s.st.exm → good s.st.exm → MovesTo (.callr g a) s (into s.st.exm (target s.st.exm.lowest)) true) ∧
    (roomy s.st.exm → good s.st.exm → MovesTo (.callrU a) s (into s.st.exm (target s.st.exm.lowest)) true) ∧
    (s.active g ≠ 0 → s.active g ≠ s.st.exm → roomy (s.active g) → s.segPresent (s.target o) = true → s.roomOnChip →
      ∃ u, exec (.call g o) s = .next u ∧ u.sameMem s ∧ u.st.pc = s.target o ∧ u.st.exm = s.active g ∧ u.st.dep = s.st.dep + 1 ∧
        u.gr.lanes = (s.mapLanes (s.active g) (fun _ y => y.call s.gr.allot (s.st.pc + 4))).gr.lanes ∧
        u.st.stack = { join := false, addr := s.st.pc + 4, depth := s.st.dep, mask := s.st.exm.minus (s.active g), fmt := s.st.fmt } :: s.st.stack)

/-- R15, R17: the linkage of a call gives back, at the callee's frame base, the return address, the caller's L and the caller's frame base; no other word below the callee's frame changes. -/
def Obligations.LinkageRoundTrip : Prop :=
  ∀ (x : Lane) (allot : Nat) (ra : CodeVa), 2 ≤ allot → x.locals % 8 = 0 → x.locals ≤ 40 →
    let y := x.call allot ra
    let w : Word × Word := (y.word allot (y.fb - 2), y.word allot (y.fb - 1))
    y.fb = x.fb + 10 + x.locals ∧ y.locals = 0 ∧ retAddr w = ra ∧ retLocals w.2 = x.locals ∧ y.fb - 10 - retLocals w.2 = x.fb ∧
    ∀ pos, pos ≠ (y.fb - 2) % allot → pos ≠ (y.fb - 1) % allot → y.atPos pos = x.atPos pos

/-- R14, R17, R114: FRAME sets L of every lane of EXM; a RET of every lane to one present address gives each lane its caller's frame, DEP is one less, the stream stands at the return address. -/
def Obligations.Returns : Prop :=
  ∀ (s : State) (g : BitVec 4) (n : BitVec 3) (x : CodeVa),
    (s.goesOn = true → n.toNat < 6 → Retires (.frame n) s (s.mapLanes s.st.exm (fun _ y => { y with locals := 8 * n.toNat })) false) ∧
    (6 ≤ n.toNat → Traps (.frame n) s .illegal s.st.exm) ∧
    (s.goesOn = true → s.active g = 0 → Retires (.ret g) s s true) ∧
    (s.goesOn = true → s.active g = s.st.exm → s.st.faults = [] → s.st.dep ≠ 0 → (s.st.privileged = false ∨ s.st.dep ≠ s.st.trap.hdep) → s.segPresent x = true →
      (∀ l ∈ s.st.exm.lanes, let w := s.retWords l
        retAddr w = x ∧ w.1.toNat % 4 = 0 ∧ retLocals w.2 ≤ 40 ∧ 10 + retLocals w.2 ≤ (s.lane l).fb ∧ (s.lane l).lowres ≤ (s.lane l).fb - 10 - retLocals w.2) →
      MovesTo (.ret g) s (((s.mapLanes s.st.exm (fun l y =>
        { y with fb := y.fb - 10 - retLocals (s.retWords l).2, locals := retLocals (s.retWords l).2 })).modSt (fun y => { y with dep := y.dep - 1 })).goto x) true)

/-- R116, R127: lanes that EXIT, or RET at depth 0, leave the group; the others go on at the next word; when none is left on a home path with an empty stack, the path ends, and with the group's last lane GROUP_END is due. -/
def Obligations.Exits : Prop :=
  ∀ (s : State) (g : BitVec 4),
    let t := s.active g
    s.goesOn = true →
    (s.st.exm.minus t ≠ 0 → ∃ u, exec (.exit g) s = .next u ∧ u.sameMem s ∧ u.gr.lanes = s.gr.lanes ∧ u.gr.alive = s.gr.alive.minus t ∧
      u.st.exm = s.st.exm.minus t ∧ u.st.pc = s.st.pc + 4) ∧
    (s.st.exm.minus t = 0 → s.st.kind = .home → s.st.privileged = false → s.st.stack = [] → s.st.below = [] → s.st.held = [] → s.st.base = s.st.exm → s.gr.uid = s.un.uid →
      ∃ u, exec (.exit g) s = .next u ∧ u.sameMem s ∧ u.st = Stream.none ∧ u.gr.alive = s.gr.alive.minus s.st.exm ∧ u.streams.length = s.streams.length ∧
        (s.gr.alive ≠ 0 → s.gr.alive.minus s.st.exm = 0 → .groupEnd s.gr.gid ∈ u.events))

/-- R118: TRAP and BKPT trap for the lanes of their guard; with no such lane they do nothing. R321: every privileged instruction traps PRIV for EXM on a path that is not privileged, whatever its guard; in a method it is ILLEGAL (R250). -/
def Obligations.TrapInstructions : Prop :=
  (∀ (s : State) (g : BitVec 4) (n : BitVec 8) (c : BitVec 15),
    (s.active g ≠ 0 → Traps (.trap g n) s .trapi (s.active g) ∧ Traps (.bkpt g c) s .bkpt (s.active g)) ∧
    (s.goesOn = true → s.active g = 0 → Retires (.trap g n) s s false ∧ Retires (.bkpt g c) s s false)) ∧
  (∀ (s : State) (g : BitVec 4) (d a b : BitVec 6), s.st.isPriv = false →
    let c : Cause := if s.isWave then .illegal else .priv
    Traps (.walknext g d a) s c s.st.exm ∧ Traps (.tlbfill g a b) s c s.st.exm ∧ Traps (.tlbdone g a b) s c s.st.exm ∧
    Traps (.tlbinv g a b) s c s.st.exm ∧ Traps (.atsreq g a b) s c s.st.exm ∧ Traps (.prireq g a) s c s.st.exm ∧
    Traps (.rft g) s c s.st.exm ∧ Traps (.tkill g) s c s.st.exm ∧ Traps (.tend g) s c s.st.exm)

/-- R301, R304, R305, R333: taking a trap on a path that is not in a handler, where the frame has room, the save block can be written, no word must spill and the handler's segment is present, and no LAUNCH owes a register that it banks (R286): the trap registers, privilege, the mask T, the banked registers, each trapped lane's new window and fault record; memory changes by the banked words alone. -/
def Obligations.HandlerEntry : Prop :=
  ∀ (s : State) (c : Cause) (t : Mask) (entry : CodeVa) (b : State),
    let v := s.takeTrap c t [] TrapInfo.plain
    let q := (s.trapNoted c t []).trapTaken c t TrapInfo.plain entry
    t ≠ 0 → c ≠ .segAbsent → s.st.kind = .home → s.st.privileged = false → s.st.status = .runnable → s.st.cancelAt = none → s.owedBank = none → s.trapEntry c s.trapWord = some entry →
    (∀ l ∈ t.lanes, (s.lane l).fb + 18 + (s.lane l).locals + 57 < s.gr.faw ∧ (s.lane l).fb + 18 + (s.lane l).locals + 58 - s.gr.allot ≤ (s.lane l).lowres) →
    q.putBlock s.bankWords = .ok b → b.segPresent entry = true →
    v.st.trap.cause = c.code ∧ v.st.trap.instr = s.trapWord ∧ v.st.trap.pc = s.instrPc ∧ v.st.trap.mask = t ∧ v.st.trap.hdr = (if c = .segEdge then s.st.hdr else s.hdrHere) ∧
    v.st.trap.depth = s.st.dep ∧ v.st.trap.et = s.st.exm ∧ v.st.trap.hpathd = s.st.pathd ∧ v.st.trap.tfmt = s.st.fmt ∧
    v.st.privileged = true ∧ v.st.pc = entry ∧ v.st.pos = 0 ∧ v.st.exm = t ∧ v.st.dep = s.st.dep + 1 ∧ v.st.ext = none ∧
    v.st.q = s.st.q &&& 0x7F ∧ v.st.ix = s.st.ix.set 3 0 ∧ v.st.stack = s.st.stack ∧
    (∀ i, i < 48 → v.st.sregs.getD i 0 = s.st.sregs.getD i 0) ∧ (∀ i, 48 ≤ i → i < 60 → v.st.sregs.getD i 1 = 0) ∧
    (∀ l ∈ t.lanes, l < s.gr.lanes.length → (v.lane l).fb = (s.lane l).fb + 18 + (s.lane l).locals ∧ (v.lane l).locals = 0 ∧
      (v.lane l).trapL = (s.lane l).locals ∧ (v.lane l).lanefault = BitVec.ofNat 32 c.code.toNat) ∧
    (∀ l, t.has l = false → v.lane l = b.lane l) ∧ v.mem = b.mem ∧ v.host = b.host

/-- R307, R322: RFT in a handler, with its path as it was entered and the trapped window resident: execution goes on at TPC with the trapped path's EXM less the lanes that have ended, its DEP, FMT and windows, and outside the handler. -/
def Obligations.HandlerReturn : Prop :=
  ∀ (s s3 : State) (g : BitVec 4),
    let t := s.st.trap
    let m := t.mask &&& s.gr.alive
    s.st.privileged = true → s.uniGuard g = true → s.quiet → s.landed = true → s.st.pathd = t.hpathd → s.st.dep = t.hdep → t.pc.toNat % 4 = 0 →
    (∀ l ∈ m.lanes, (s.lane l).lowres ≤ (s.lane l).fb - 18 - (s.lane l).trapL) → s.leaveHandler = .ok s3 →
    ∃ u, exec (.rft g) s = .next u ∧ u.sameMem s ∧ u.st.privileged = false ∧ u.st.pc = t.pc ∧ u.st.dep = t.depth ∧ u.st.fmt = t.tfmt ∧
      u.st.exm = t.et &&& s.gr.alive &&& s.st.base ∧ u.st.hdr = t.hdr ∧ u.st.pos = t.resumePos ∧ u.st.stack = s.st.stack ∧
      (∀ i, i < 48 → u.st.sregs.getD i 0 = s.st.sregs.getD i 0) ∧
      (∀ l, l < s.gr.lanes.length → u.lane l = if m.has l = true then
        { s.lane l with fb := (s.lane l).fb - 18 - (s.lane l).trapL, locals := (s.lane l).trapL } else s.lane l)

/-- R116, R307, R322: TKILL ends the lanes of the handler path, TEND every lane of the group with every path and fragment of it. -/
def Obligations.HandlerEnds : Prop :=
  ∀ (s : State) (g : BitVec 4),
    s.st.privileged = true → s.uniGuard g = true → s.quiet → s.landed = true → s.st.kind = .home → s.st.gid = s.gr.gid → s.st.sid ≠ 0 →
    (∃ u, exec (.tend g) s = .next u ∧ u.sameMem s ∧ u.st = Stream.none ∧ u.gr.alive = 0 ∧ (∀ x ∈ u.streams, x.gid ≠ s.gr.gid) ∧
      (s.gr.alive ≠ 0 → .groupEnd s.gr.gid ∈ u.events) ∧ (∀ x ∈ u.launches, x.key = s.un.launch → 1 ≤ x.status)) ∧
    (s.st.exm = s.gr.alive → s.st.base = s.gr.alive → s.st.trap.mask = s.gr.alive → s.st.stack = [] → s.st.below = [] → s.st.trap.hpathd = 0 → s.gr.alive ≠ 0 →
      ∃ u, exec (.tkill g) s = .next u ∧ u.gr.alive = 0 ∧ .groupEnd s.gr.gid ∈ u.events)

/-- R134 to R136, R149, R150, R153: the arrivals of BSYNC and BARV count the lanes of the guard and record the phase before; the phase completes as EXPECTED says, ARRIVED taken modulo 2^16 first (log entry 71); BSYNC then waits unless it completed the phase; BWAIT ends when the phase has passed or a completion has ended its wait, an acquire at unit scope before which held REDs go (R196); BARINIT sets EXPECTED and AUTO. -/
def Obligations.Barriers : Prop :=
  ∀ (s : State) (g : BitVec 4) (n : BitVec 7) (v : BitVec 1) (b : BitVec 6),
    let w := s.barrier n.toNat
    let r := (({ w with arrived := BitVec.ofNat 16 (w.arrived.toNat + (s.active g).size) } : Barrier)).evaluate
    s.goesOn = true → s.hasBarrier n.toNat → s.st.status = .runnable → s.st.cancelAt = none →
    (s.active g ≠ 0 → s.quiet →
      (∃ u, exec (.barv g n) s = .next u ∧ u.sameMem s ∧ u.sameRegs s ∧ u.barrier n.toNat = r.1 ∧ u.st.arrivals.getLsbD n.toNat = w.phase ∧ u.st.status = .runnable) ∧
      (∃ u, exec (.bsync g n) s = .next u ∧ u.sameMem s ∧ u.sameRegs s ∧ u.barrier n.toNat = r.1 ∧ u.st.arrivals.getLsbD n.toNat = w.phase ∧
        u.st.status = (if r.2 then .runnable else .waitBarrier n.toNat))) ∧
    (s.active g = 0 → Retires (.bsync g n) s s true ∧ Retires (.barv g n) s s true ∧ Retires (.bwait g n) s s false) ∧
    (s.active g ≠ 0 → (s.st.woken = true ∨ s.phasePassed n.toNat = true) → Retires (.bwait g n) s ((s.flushHeld s.st.sid).acquire 1) false) ∧
    (s.active g ≠ 0 → s.st.woken = false → s.phasePassed n.toNat = false →
      exec (.bwait g n) s = .next (s.modSt (fun x => { x with status := .waitBarrier n.toNat, bwait := true }))) ∧
    (s.uniGuard g = true → ∃ u, exec (.barinit g n v b) s = .next u ∧ u.sameMem s ∧ u.sameRegs s ∧
      u.barrier n.toNat = ({ w with expected := (s.sreg b.toNat).setWidth 16, auto := v == 1 } : Barrier).evaluate.1)

/-- R87, R88: XLD reads, and XST writes, the frame word that the index register and the immediate name, in each lane of the guard, when it lies in the range of R87 and is resident. -/
def Obligations.FrameWords : Prop :=
  ∀ (s : State) (g : BitVec 4) (d : BitVec 6) (i : BitVec 2) (k : BitVec 12),
    s.goesOn = true → s.st.faults = [] →
    (∀ l ∈ (s.active g).lanes, (s.lane l).beyond d.toNat = false ∧ s.xwordBad i k (s.lane l) = false ∧ (s.lane l).lowres ≤ (s.xword i k (s.lane l)).toNat) →
    Retires (.xld g d i k) s (s.mapLanes (s.active g) (fun _ x => x.setReg s.gr.allot d.toNat (x.word s.gr.allot (s.xword i k x).toNat))) false ∧
    Retires (.xst g d i k) s (s.mapLanes (s.active g) (fun l x => x.putWord s.gr.allot (s.xword i k x).toNat (s.reg l d.toNat))) false ∧
    (s.st.ext = none → ∀ x : Lane, s.xword i k x = x.fb + (s.st.ix.getD i.toNat 0).toInt + k.toInt)

/-! ## Engines -/

/-- R219, R228, R266 to R279, R286, R288: an engine command under a true guard whose checks pass retires with its snapshot taken; under a false guard it does nothing, though an MMAG, and an MMA with ACC, set a restart point all the same (R309, R310); in a conjugator batch it is ILLEGAL. -/
def Obligations.EngineCommands : Prop :=
  ∀ (s : State) (g : BitVec 4) (d a b : BitVec 6) (t n : BitVec 4) (c : BitVec 3),
    let w := s.descr a.toNat 8
    let x := s.sreg a.toNat
    let y := s.sreg (a.toNat + 1)
    s.goesOn = true →
    (s.isWave = false → s.uniGuard g = true →
      (a.toNat % 8 = 0 →
        (s.cpCheck 0 w = none → Commands (.cpG2s g d a) s (.copy 0) w true false (some d)) ∧
        (s.cpCheck 1 w = none → Commands (.cpS2g g d a) s (.copy 1) w true false (some d)) ∧
        (s.cpCheck 2 w = none → Commands (.cpG2g g d a) s (.copy 2) w true false (some d)) ∧
        (s.cpCheck 3 w = none → Commands (.cpGath g d a) s (.copy 3) w true false (some d)) ∧
        (s.cpCheck 4 w = none → Commands (.cpReg g d a) s (.copy 4) w true false (some d)) ∧
        (s.cpCheck 5 w = none → Commands (.cpAcc g d a) s (.copy 5) w true false (some d)) ∧
        (s.mmaCheck w = none → Commands (.mma g d a) s .mma w false true (some d)) ∧
        (credCheck w = none → Commands (.credSum g d a) s (.cred 0) w true false (some d) ∧
          Commands (.credMax g d a) s (.cred 1) w true false (some d) ∧ Commands (.credMin g d a) s (.cred 2) w true false (some d)) ∧
        (let m := mmvDesc w
         let bk := fmtB s.st.fmt
         fmtA s.st.fmt = 3 → (bk = 0 ∨ bk = 1 ∨ bk = 3) → m.aoff % 4 = 0 → m.astr % 4 = 0 → m.yoff % 4 = 0 → m.ystr % 4 = 0 → m.b % 4 = 0 → m.b < 2 ^ 57 →
         s.un.holds s.gr.coreIndex m.aoff m.v m.astr (2 * m.k) = true → s.un.holds s.gr.coreIndex m.yoff m.v m.ystr (4 * m.n) = true →
         Commands (.mmv g d a) s .mmv w false true (some d))) ∧
      (a.toNat % 16 = 0 → s.cpCheck 6 w = none →
        (let m := mmaDesc (s.descr (a.toNat + 8) 8)
         m.joint = false → (m.areg = true → aregBase ((s.descr (a.toNat + 8) 8).getD 1 0) = true) →
         m.check s.st.fmt s.gr.tiles.length s.un s.gr.coreIndex (s.classAhead s.gr) = none → Commands (.cpMma g d a) s (.copy 6) w true false (some d))) ∧
      (isPair a.toNat = true → (s.sreg b.toNat).toNat ≤ 4096 → (s.sregPair a.toNat).toNat % 32 = 0 → (s.sregPair a.toNat).toNat < 2 ^ 57 →
        (nativeK (fmtA s.st.fmt) (fmtB s.st.fmt)).isSome = true → Commands (.mmag g d a b) s .mmag [x, y, s.sreg b.toNat] false true (some d)) ∧
      (t.toNat + n.toNat + 1 ≤ s.gr.tiles.length → Commands (.accz g t n) s .accz [t.setWidth 32, BitVec.ofNat 32 (n.toNat + 1)] false true none) ∧
      (t.toNat < s.gr.tiles.length → drainSuits (s.classAhead s.gr t.toNat) (fmtDrain s.st.fmt) = true →
        (d.toNat % 8 = 0 → d.toNat ≤ 48 → s.beyondIn s.st.exm ((List.range 8).map (d.toNat + ·)) = 0 →
          Commands (.accrd g d t c) s .accrd [d.setWidth 32, t.setWidth 32, c.setWidth 32] false true none) ∧
        (isPair a.toNat = true → x.toNat % 4 = 0 → y.toNat % 4 = 0 →
          (s.un.locate s.gr.coreIndex x.toNat (63 * y.toNat + 64 * drainSize (fmtDrain s.st.fmt))).isSome = true →
          Commands (.accrs g t a) s .accrs [t.setWidth 32, x, y] false true none)) ∧
      (isPair a.toNat = true → (s.sregPair a.toNat).toNat % 4096 = 0 → s.fetchWaits (s.sregPair a.toNat).toNat = false →
        (∀ h, s.fetchCheck (s.sregPair a.toNat).toNat ≠ .refused h) → s.fetchCheck (s.sregPair a.toNat).toNat ≠ .lost →
        Commands (.cfetch g a) s .cfetch [x, y] false false none) ∧
      (isPair a.toNat = true → vaPair x y % 128 = 0 → vaPair x y < 2 ^ 57 → s.quiet → Commands (.launch g d a) s .launch [x, y] false false none)) ∧
    (s.isWave = false → s.uniGuard g = false → a.toNat % 16 = 0 → a.toNat < 56 →
      Retires (.cpG2s g d a) s s false ∧ Retires (.mma g d a) s s (mmaDesc w).acc ∧ Retires (.mmag g d a b) s s true ∧ Retires (.accz g t n) s s false ∧
      Retires (.mmv g d a) s s false ∧ Retires (.cpMma g d a) s s (mmaDesc (s.descr (a.toNat + 8) 8)).acc ∧ Retires (.cfetch g a) s s false ∧ Retires (.launch g d a) s s true) ∧
    (s.isWave = true → Traps (.cpG2s g d a) s .illegal s.st.exm ∧ Traps (.mma g d a) s .illegal s.st.exm ∧ Traps (.accz g t n) s .illegal s.st.exm ∧
      Traps (.mmv g d a) s .illegal s.st.exm ∧ Traps (.credSum g d a) s .illegal s.st.exm ∧ Traps (.launch g d a) s .illegal s.st.exm)

/-- R228, R229, R269, R270, R273, R275: BFC and BFM close a batch and give its number; MMAF retires; a WAIT whose covered commands have all completed retires, the commands are gone and the drained words have landed (that they land at the WAITM is log entry 32), and a WAITC that covers some drops its core's L1 (log entry 37); with a failure among them it traps BATCHERR with the cause and the name of the first that failed in the order in which the group issued them, whose sequence number is the lowest; one with a command still running waits. -/
def Obligations.EngineBatches : Prop :=
  ∀ (s : State) (g : BitVec 4) (d a : BitVec 6) (copy : Bool),
    let cur := if copy then s.gr.cbatch else s.gr.mbatch
    let b := if atOrBefore (s.sreg a.toNat) cur then s.sreg a.toNat else cur
    let wait : Instr := if copy then .waitc g a else .waitm g a
    s.goesOn = true →
    Once (.bfc g d) s g ((s.modGr (fun y => { y with cbatch := y.cbatch + 1 })).setSreg d.toNat (s.gr.cbatch + 1)) ∧
    Once (.bfm g d) s g ((s.modGr (fun y => { y with mbatch := y.mbatch + 1 })).setSreg d.toNat (s.gr.mbatch + 1)) ∧
    Once (.mmaf g) s g s ∧
    (s.uniGuard g = false → Retires wait s s false) ∧
    (s.uniGuard g = true → (∀ c ∈ s.covered copy b, c.state = .done) →
      ∃ u, exec wait s = .next u ∧ u.sameMem s ∧ u.st.pc = s.st.pc + 4 ∧ u.st.sregs = s.st.sregs ∧ (∀ c ∈ u.cmds, c ∈ s.cmds) ∧
        (∀ c ∈ s.cmds, c ∈ u.cmds ↔ ∀ e ∈ s.covered copy b, e.id ≠ c.id) ∧
        u.gr.lanes = ((s.covered copy b).foldl State.landDrain s).gr.lanes ∧
        (copy = true → s.covered copy b ≠ [] → ∀ x ∈ u.l1, x.core ≠ s.gr.coreId)) ∧
    (s.uniGuard g = true → s.owedBank = none → (∀ c ∈ s.covered copy b, c.isOver = true) →
      ∀ p c r k n, s.covered copy b = p ++ c :: r → (∀ e ∈ p, e.state = .done) → c.state = .failed k n →
      ∃ u t : State, exec wait s = .next u ∧ u = t.takeTrap .batcherr s.st.exm []
        { fl := BitVec.ofNat 24 (k.code.toNat * 2 ^ 16 + n % 2 ^ 16), cmdPc := c.pc, cmdSeq := c.seq, dbgst := 0, instr := none } ∧ t.st = s.st) ∧
    (s.uniGuard g = true → (∃ c ∈ s.covered copy b, c.isOver = false) →
      exec wait s = .next (s.modSt (fun x => { x with status := if copy then .waitCopy b else .waitMatrix b })))

/-- R20, R219, R227, R234, R237 to R240: the steps of an accepted command: acceptance clears its flag and reads its lane registers: with AREG lane r's 16 fields are row r of A, 0 in a lane outside EXM (a field beyond the lane's L reads its frame word: log entry 33), the matrix part of a CP.MMA reads its rows with its copy, an ACCRD names its registers; a page fault parks a command and tells the pager, and it resumes after the repair; a joint MMA starts when all its members wait, a CP.MMA's matrix part when its copy is done; an ACCZ empties its tiles; an MMAG reads its table entry by entry, skips one with M = 0, runs the operations of one that passes its checks, and ends after its last. -/
def Obligations.EngineProgress : Prop :=
  ∀ (s : State) (c : Cmd), s.cmd? c.id = some c →
    (c.state = .retired → c.kind ≠ .launch → c.sid = s.st.sid →
      ∃ u, exec (.commandAccept c.id) s = .next u ∧ u.sameMem s ∧ (∀ e ∈ u.cmds, e.id = c.id → e.state ≠ .retired ∧ e.flag = none) ∧
        u.st.flags = (match c.flag with
          | some f => s.st.flags.modify f (· - 1)
          | none => s.st.flags) ∧
        (c.kind = .mma → (c.w 0).getLsbD 21 = true → (u.cmd? c.id).map (·.rows) = some (s.registerRows c)) ∧
        (c.kind = .accrd → (u.cmd? c.id).map (·.dests) = some (s.drainWords c)) ∧
        (∀ m ∈ s.cmds, c.kind = .copy 6 → (copyShape 6 c.regs).words ≠ 0 → m.id ≠ c.id → m.arg = c.id → m.kind = .mma → m.state = .retired → m.gid = c.gid → m.seq = c.seq →
          m.cbatch = none → (m.w 0).getLsbD 21 = true → ∃ e ∈ u.cmds, e.id = m.id ∧ e.state = .waiting ∧ e.rows = s.registerRows m)) ∧
    (let g := s.groupOf c.gid
     ∀ k i, k < 64 → i < 16 → ((s.registerRows c).getD k []).getD i 1 =
       if k < g.width ∧ c.exm.has k = true then ((g.lanes.getD k Lane.start).winWord ((c.w 1).toNat % 64 + i)).elim 0 ((g.lanes.getD k Lane.start).word g.allot) else 0) ∧
    (∀ va, s.window c.ctx va = none → s.ofPair c = false →
      ∃ u, exec (.copyPageFault c.id va) s = .next u ∧ u.sameMem s ∧ (u.cmd? c.id).map (·.state) = some (.parked va) ∧ .deviceFault c.ctx va false ∈ u.out) ∧
    (∀ va fn, c.state = .parked va → c.kind = .copy fn →
      ∃ u, exec (.copyResume c.id) s = .next u ∧ u.sameMem s ∧ (u.cmd? c.id).map (·.state) = some .accepted ∧ .copyComplete c.id ∈ u.events) ∧
    (c.state = .waiting → s.jointReady c = true → c.kind = .mma →
      ∃ u, exec (.jointMmaStart c.id) s = .next u ∧ u.sameMem s ∧ (u.cmd? c.id).map (·.state) = some .accepted ∧ (u.cmd? c.id).map (·.rows.length) = some 64) ∧
    (c.state = .waiting → c.kind = .mma → (c.w 0).getLsbD 22 = false → (∀ k ∈ s.cmds, k.id = c.arg → k.state = .done) →
      ∃ u, exec (.cpMmaHandoff c.id) s = .next u ∧ u.sameMem s ∧ (u.cmd? c.id).map (·.state) = some .accepted) ∧
    (c.state = .waiting → (∃ k ∈ s.cmds, k.id = c.arg ∧ k.state ≠ .done) → exec (.cpMmaHandoff c.id) s = .next s) ∧
    (s.matrixHead c.gid = some c → c.kind = .accz → c.state = .accepted → c.gid = s.gr.gid → (∀ i, sparseGet 0 s.gr.classBy i ≤ c.id) →
      ∃ u, exec (.matrixOperation c.gid) s = .next u ∧ exec (.tileCommandComplete c.gid) s = .next u ∧ u.sameMem s ∧ u.ended c.id ∧
        u.gr.tiles = s.gr.tiles.mapIdx (fun i x => if (c.w 0).toNat ≤ i ∧ i < (c.w 0).toNat + (c.w 1).toNat then ⟨.empty, []⟩ else x)) ∧
    (c.kind = .mmag → c.state = .accepted → (c.w 2).toNat ≤ c.progress → ∃ u, exec (.mmagEntry c.id) s = .next u ∧ u.sameMem s ∧ u.ended c.id) ∧
    (let va := vaPair (c.w 0) (c.w 1) + 32 * c.progress
     let next : State → State := fun t => (t.modCmd c.id (fun x => { x with progress := x.progress + 1, buf := [] })).post (.mmagEntry c.id)
     c.kind = .mmag → c.state = .accepted → c.progress < (c.w 2).toNat →
     (∀ pa : Nat, c.buf = [] → (∀ k, k < 8 → s.engWalk c.die c.ctx (va + 4 * k) = s ∧ s.cmdTrans c (va + 4 * k) needR = .ok (.dev (pa + 4 * k))) →
       (s.entryWords c.id va 9).2 = some ((List.range 8).map (fun k => BitVec.ofNat 32 (s.getN (.dev (pa + 4 * k)) 4)))) ∧
     (∀ t e, s.entryWords c.id va 9 = (t, some e) →
       let d := mmagDesc e
       let g := t.groupOf c.gid
       (d.m = 0 → exec (.mmagEntry c.id) s = .next (next t)) ∧
       (d.m ≠ 0 → d.check c.fmt g.tiles.length (t.unitOf g.uid) g.coreIndex (t.classAt g c) = none → t.operandHurt c g (t.unitOf g.uid) d = false →
         exec (.mmagEntry c.id) s = .next (next (t.runOps c d 0 (d.tiles * d.slices c.fmt)))) ∧
       (∀ cause, d.m ≠ 0 → d.check c.fmt g.tiles.length (t.unitOf g.uid) g.coreIndex (t.classAt g c) = some cause →
         exec (.mmagEntry c.id) s = .next (t.failCmd c.id cause c.progress))))

/-- R220, R224, R226: a linear copy from global memory to the scratchpad of a unit that is not cooperative, whose words all lie on mapped pages of HBM that the engine's TLB holds, and which meets no struck line: it ends, the window holds the bytes of the source, and no byte of memory changes. -/
def Obligations.CopyBytes : Prop :=
  ∀ (s : State) (c : Cmd) (pa : Nat → Nat),
    let x := copyShape 0 c.regs
    s.cmd? c.id = some c → c.kind = .copy 0 → c.state = .accepted → c.progress = 0 → c.buf = [] → cp2d 0 (c.w 7) = false → (c.w 7).getLsbD 5 = false →
    s.ownWindow (s.groupOf c.gid) x.dst (4 * x.words) → (∀ k l, k < x.words → s.scrLoc c (x.dst + 4 * k) = some l → s.poisoned true l 4 = false) →
    (∀ k, k < x.words → s.engWalk c.die c.ctx (x.src + 4 * k) = s ∧ s.cmdTrans c (x.src + 4 * k) needR = .ok (.dev (pa k)) ∧ pa k + 4 ≤ Config.hbmBytes) →
    ∃ u, exec (.copyComplete c.id) s = .next u ∧ u.sameMem s ∧ u.ended c.id ∧
      ∀ k, k < x.words → u.windowN (s.groupOf c.gid) (x.dst + 4 * k) 4 = s.getN (.dev (pa k)) 4

/-- R36, R37, R233, R241: one native operation of an MMA without ACC and with one slice sets each element of its block to the sum of the slice by the tree and the class of the tile, and no memory changes; an MMV of one row whose B is read, or lies on mapped pages of its die, writes its results into the scratchpad. -/
def Obligations.MatrixResults : Prop :=
  ∀ (s : State) (c : Cmd),
    (let d := mmaDesc c.regs
     s.matrixHead c.gid = some c → c.kind = .mma → c.state = .accepted → c.progress = 0 → d.acc = false → c.gid = s.gr.gid → s.gr.live = true → d.slices c.fmt = 1 → 0 < d.n →
     d.tile < s.gr.tiles.length → s.operandHurt c s.gr (s.unitOf s.gr.uid) d = false → sparseGet 0 s.gr.classBy d.tile ≤ c.id →
     ∃ u, exec (.matrixOperation c.gid) s = .next u ∧ u.sameMem s ∧
       (u.gr.tiles.getD d.tile ⟨.empty, []⟩).cls = kindClass (fmtA c.fmt) ∧
       (∀ i, i ≠ d.tile → u.gr.tiles[i]? = s.gr.tiles[i]?) ∧
       (∀ r k, r < 64 → k < 64 → r < d.m → (u.gr.tiles.getD d.tile ⟨.empty, []⟩).get r k =
         s.sliceAt c s.gr (s.unitOf s.gr.uid) d ((nativeK (fmtA c.fmt) (fmtB c.fmt)).getD 64) r k 0)) ∧
    (let d := mmvDesc c.regs
     let g := s.groupOf c.gid
     let bytes := d.n * d.rowBytes (fmtB c.fmt)
     let done : Array Word → Prop := fun ws => ∃ u, exec (.mmvComplete c.id) s = .next u ∧ u.sameMem s ∧ u.ended c.id ∧
       ∀ n, n < d.n → u.windowN g (d.yoff + 4 * n) 4 = (s.mmvAt c g (s.unitOf g.uid) d ws 0 n).toNat
     s.cmd? c.id = some c → c.kind = .mmv → c.state = .accepted → d.v = 1 → s.ownWindow g d.yoff (4 * d.n) →
     s.rowsHurt g (s.unitOf g.uid) d.aoff d.v d.astr (2 * d.k) = false → s.rowsHurt g (s.unitOf g.uid) d.yoff d.v d.ystr (4 * d.n) = false →
     (bytes ≤ 4 * c.buf.length → done c.buf.toArray) ∧
     (∀ pa : Nat → Nat, c.buf = [] → d.b % 4096 = 0 →
       (∀ j, 4096 * j < bytes → s.engWalk c.die c.ctx (d.b + 4096 * j) = s ∧ (Loc.dev (pa j)).homeDie = c.die ∧
         (s.engAsk c.die c.ctx (d.b + 4096 * j) needR c.id c.seesChip).struck s true 4096 = .ok (.dev (pa j))) →
       done ((List.range (bytes / 4)).map (fun i => BitVec.ofNat 32 (s.getN (.dev (pa (i / 1024) + 4 * (i % 1024))) 4))).toArray))

/-- R242 to R244, R280: a fetch fills a slot with the segment's words and wakes what waits for it; a unit's streams start once their entry segment is there; CINV drops the segment's slots that nothing pins and marks the others, which the deferred drop removes (a VA pair that names no segment exactly is taken modulo 2^57 and rounded down: log entry 25). -/
def Obligations.CodeOverlay : Prop :=
  ∀ (s : State) (g : BitVec 4) (sc : BitVec 3) (a : BitVec 6) (core ctx va uid : Nat),
    (s.goesOn = true → sc.toNat < 3 → isPair a.toNat = true → s.uniGuard g = true → s.quiet →
      ∃ u, exec (.cinv g sc a) s = .next u ∧ u.sameMem s ∧ u.sameRegs s ∧
        (let hit : Overlay → Prop := fun o => o.ctx = s.gr.ctx ∧ o.va = segOf (BitVec.ofNat 57 (s.sregPair a.toNat).toNat) ∧ s.cinvReach sc.toNat o.core = true
         (∀ q ∈ u.overlays, hit q → ∃ o ∈ s.overlays, s.pinned o = true ∧ q = { o with marked := true }) ∧
         (∀ o ∈ s.overlays, hit o → s.pinned o = true → { o with marked := true } ∈ u.overlays) ∧ (∀ o ∈ s.overlays, ¬ hit o → o ∈ u.overlays))) ∧
    (∃ u, exec (.cinvDeferredDrop core) s = .next u ∧ u.sameMem s ∧
      ∀ o, o ∈ u.overlays ↔ o ∈ s.overlays ∧ (o.core = core → o.marked = true → s.pinned o = true)) ∧
    (∀ c l, s.cmds.find? (fun x => x.kind = .cfetch && x.state = .accepted && x.ctx == ctx && x.arg == va && x.core == core) = some c →
      s.slotFor core ctx va = none → (s.overlays.filter (fun o => o.core == core)).length < slotCount core →
      (s.fetchAsk (dieOf core) ctx va c.id c.priv).struck s true 4096 = .ok l →
      ∃ u o, exec (.overlayFetchComplete core ctx va) s = .next u ∧ u.sameMem s ∧ u.slotFor core ctx va = some o ∧ o.words = s.wordsAt l ∧
        ∀ c' ∈ u.cmds, c'.id ≠ c.id ∨ c'.state = .done) ∧
    (∀ e x, x ∈ s.allStreams → x.status = .waitPlaced → (∃ y ∈ s.allGroups, y.gid = x.gid ∧ y.uid = uid) →
      (∀ z ∈ s.allStreams, z.status = .waitPlaced → (∃ y ∈ s.allGroups, y.gid = z.gid ∧ y.uid = uid) → segOf z.pc = e) →
      (∀ c ∈ (s.unitOf uid).cores, (s.slotFor (coreNo c.die c.core) (s.unitOf uid).ctx e).isSome = true) →
      ∃ u, exec (.entrySegmentFetch uid) s = .next u ∧ u.sameMem s ∧
        ∀ y ∈ u.allStreams, (∃ h ∈ u.allGroups, h.live = true ∧ h.gid = y.gid ∧ h.uid = uid ∧ ∃ c ∈ (s.unitOf uid).cores, h.coreId = coreNo c.die c.core) → y.status ≠ .waitPlaced)

/-! ## Objects -/

/-- R245 to R247, R250, R253, R281 to R285: OBJDEF gives the lowest free index a handle, whose bits 31:30 are the home die, 29:12 the generation, 11:0 the index, or 0 with no index free; an OBJCALL puts one request for each lane and waits, its requests reach their homes and queue, once all of them have room (that they go together is log entry 39), or have an error reply for a handle that is not live; a reply lands in its lane and the last one retires the OBJCALL; OBJRET keeps a lane's first reply; OBJEND commits the buffer and sends a reply to every request; OBJDEL waits until the object has ended. -/
def Obligations.Objects : Prop :=
  (∀ (s : State) (g : BitVec 4) (d a : BitVec 6),
    let w := s.descr a.toNat 8
    s.goesOn = true → s.uniGuard g = true →
    (∀ c, s.isWave = false → a.toNat % 8 = 0 → objCheck w = none → s.ctxRec s.gr.ctx = some c →
      (c.newObject w s.gr.die = none → Retires (.objdef g d a) s (s.setSreg d.toNat 0) true) ∧
      (∀ o, c.newObject w s.gr.die = some o →
        o.idx < 4096 ∧ (∀ q ∈ c.objects, q.idx = o.idx → q.live = false ∧ q.ending = false) ∧ (∀ k, k < o.idx → ∃ q ∈ c.objects, q.idx = k ∧ (q.live = true ∨ q.ending = true)) ∧
        (o.handle.extractLsb' 30 2).toNat = o.die % 4 ∧ o.handle.extractLsb' 12 18 = o.gen ∧ (o.handle.extractLsb' 0 12).toNat = o.idx ∧
        o.gen = ((c.objects.find? (fun q => q.idx == o.idx)).map (fun q => nextGen q.gen)).getD 1 ∧ o.die = (if w.getD 5 0 = 0xFFFFFFFF then s.gr.die else (w.getD 5 0).toNat) ∧
        o.live = true ∧ o.running = false ∧ o.queue = [] ∧ o.stateSize = (w.getD 4 0).toNat ∧ o.stateVa = vaPair (w.getD 0 0) (w.getD 1 0) % 2 ^ 57 ∧
        o.table = vaPair (w.getD 2 0) (w.getD 3 0) % 2 ^ 57 ∧
        ∃ u, exec (.objdef g d a) s = .next u ∧ u.sameMem s ∧ u.gr.lanes = s.gr.lanes ∧ u.st.sregs = (s.setSreg d.toNat o.handle).st.sregs ∧
          ∃ c', u.ctxRec s.gr.ctx = some c' ∧ o ∈ c'.objects)) ∧
    (s.isWave = false → s.object s.gr.ctx (s.sreg a.toNat) ≠ none →
      ∃ u, exec (.objdel g a) s = .next u ∧ u.sameMem s ∧ u.st.status = .waitObjdel (s.sreg a.toNat) ∧ .objdelAtHome s.gr.ctx (s.sreg a.toNat) ∈ u.events) ∧
    (∀ c, s.isWave = false → s.ctxRec s.gr.ctx = some c → (∀ o ∈ c.objects, o.handle = s.sreg a.toNat → o.live = false ∧ o.ending = false) → Retires (.objdel g a) s s false) ∧
    (∀ (v : Wave) ws, s.isWave = true → s.st.wave = some v → s.commitWrites v.buf = .ok ws → (∀ x ∈ ws, x.1.plain 1) →
      ∃ u, exec (.objend g) s = .next u ∧ u.st = Stream.none ∧ (∀ x ∈ v.finalReplies, x ∈ u.replies ∧ .objectReplyArrival x.id ∈ u.events) ∧
        ∀ l : Loc, l.plain 1 → u.byteAt l = ((ws.reverse.find? (fun x => decide (x.1 = l))).map (·.2)).getD (s.byteAt l)) ∧
    (s.isWave = false → Traps (.objend g) s .illegal s.st.exm)) ∧
  (∀ (s : State) (g : BitVec 4) (d a h : BitVec 6) (m : BitVec 3),
    let p := s.active g
    s.goesOn = true →
    (s.isWave = false → a.toNat < 55 → p = 0 → Retires (.objcall g d a h m) s s.nextSeq true) ∧
    (s.isWave = false → a.toNat < 55 → p ≠ 0 → s.beyondIn p [a.toNat, a.toNat + 1, h.toNat, d.toNat] = 0 → s.owedBank = none → s.st.held = [] → (s.modx.getLsbD 1 = true → s.owing = false) →
      ∃ u, exec (.objcall g d a h m) s = .next u ∧ u.sameMem s ∧ u.gr.lanes = s.gr.lanes ∧ u.st.pc = s.st.pc ∧ u.st.status = .waitRequests ∧ u.st.objMask = p ∧ u.st.objDest = d ∧
        u.requests.map (fun r => (r.ctx, r.handle, r.method, r.a0, r.a1, r.lane, r.sid)) = s.requests.map (fun r => (r.ctx, r.handle, r.method, r.a0, r.a1, r.lane, r.sid)) ++
          p.lanes.map (fun l => (s.gr.ctx, s.reg l h.toNat, m, s.reg l a.toNat, s.reg l (a.toNat + 1), l, s.st.sid)) ∧ .objcallSend s.st.sid ∈ u.events) ∧
    (∀ v : Wave, s.isWave = true → s.st.wave = some v → s.beyondIn p [a.toNat] = 0 →
      (∃ u, exec (.objret g a) s = .next u ∧ u.sameMem s ∧ u.sameRegs s ∧ u.st.wave = some (s.answering v p a false)) ∧
      (∃ u, exec (.objretErr g a) s = .next u ∧ u.sameMem s ∧ u.sameRegs s ∧ u.st.wave = some (s.answering v p a true))) ∧
    (s.isWave = false → Traps (.objret g a) s .illegal s.st.exm ∧ Traps (.objretErr g a) s .illegal s.st.exm)) ∧
  (∀ (s : State) (r : ObjRequest) (q : ObjReply),
    (∀ (h : Word) (c : Ctx) (o : ObjSlot), s.ctxRec s.gr.ctx = some c → c.objects.find? (fun x => x.handle == h) = some o → o.queue = [] → o.running = false →
      ∃ u, exec (.objdelAtHome s.gr.ctx h) s = .next u ∧ u.sameMem s ∧ (s.st.status = .waitObjdel h → s.st.gid = s.gr.gid → u.st.status = .runnable) ∧
        ∀ c', u.ctxRec s.gr.ctx = some c' → ∀ x ∈ c'.objects, x.idx = o.idx → x.live = false) ∧
    (let mine := s.requests.filter (fun x => x.sid == s.st.sid)
     s.st.status = .waitRequests → (∀ x ∈ mine, s.objRoom x.ctx (x.handle.toNat / 2 ^ 30) (fun d => (mine.filter (fun y => y.handle.toNat / 2 ^ 30 == d)).length) = true) →
      ∃ u, exec (.objcallSend s.st.sid) s = .next u ∧ u.sameMem s ∧ u.st.status = .waitReplies ∧ ∀ x ∈ mine, .objectRequestArrival x.id ∈ u.events) ∧
    (s.requests.find? (fun x => x.id == r.id) = some r →
      (s.object r.ctx r.handle = none → ∃ u, exec (.objectRequestArrival r.id) s = .next u ∧ u.sameMem s ∧ .objectReplyArrival r.id ∈ u.events ∧
        ({ id := r.id, sid := r.sid, lane := r.lane, value := 0, error := some .prot } : ObjReply) ∈ u.replies) ∧
      (∀ o, s.object r.ctx r.handle = some o → ∃ u c', exec (.objectRequestArrival r.id) s = .next u ∧ u.sameMem s ∧ .conjugatorBatchStart o.die ∈ u.events ∧
        u.ctxRec r.ctx = some c' ∧ { o with queue := o.queue ++ [{ r with at_ := s.nextId }] } ∈ c'.objects)) ∧
    (s.replies.find? (fun x => x.id == q.id) = some q → q.sid = s.st.sid → s.st.sid ≠ 0 → q.lane < 64 → s.st.gid = s.gr.gid →
      (s.st.objMask.has q.lane = true → s.st.objMask ≠ Mask.one q.lane →
        ∃ u, exec (.objectReplyArrival q.id) s = .next u ∧ u.sameMem s ∧ u.st.objMask = s.st.objMask.minus (Mask.one q.lane) ∧ u.st.status = s.st.status ∧
          u.gr.lanes = s.gr.lanes.modify q.lane (fun y => y.land s.gr.allot [((s.lane q.lane).winWord s.st.objDest.toNat, if q.error.isSome = true then 0 else q.value)])) ∧
      (s.st.objMask = Mask.one q.lane → q.error = none → s.st.objErr = 0 → s.goesOn = true → s.st.cancelAt = none → s.modx = 0 →
        ∃ u, exec (.objectReplyArrival q.id) s = .next u ∧ u.sameMem s ∧ u.st.objMask = 0 ∧ u.st.status = .runnable ∧ u.st.pc = s.st.pc + 4 ∧ u.gr.cmdseq = s.gr.cmdseq + 1)))

/-- R248, R251, R252: a batch is the longest run of requests, at most 64, from the head of an object's queue that have the head's method; a free conjugator unit of the die takes the run of the object whose head request is the oldest, its requests in lanes 0 to n - 1, and the object runs (no other batch of it starts); the batch starts once its pages and its code are there, and starts again after the repair of its fault, unless its context rests (R254); a batch that has run for 2^20 cycles is aborted with the WATCHDOG cause in every reply, its buffer dropped; a batch whose fault was declared unrecoverable is aborted with PROT. -/
def Obligations.ObjectBatches : Prop :=
  (∀ (o : ObjSlot) (r : ObjRequest) (rest : List ObjRequest), o.queue = r :: rest →
    ∃ after, o.queue = batchOf o ++ after ∧ batchOf o ≠ [] ∧ (batchOf o).length ≤ 64 ∧ (∀ q ∈ batchOf o, q.method = r.method) ∧
      ((batchOf o).length < 64 → ∀ q, after.head? = some q → q.method ≠ r.method)) ∧
  (∀ (s : State) (die u ctx : Nat) (o : ObjSlot) (r : ObjRequest) (c : Ctx),
    let p := s.placeWave die u ctx o
    let q := p.focus (s.nextId + 1)
    s.freeConj die = some u → oldest (s.heads die) = some (ctx, o, r) → s.ctxRec ctx = some c → o ∈ c.objects →
    (∀ x ∈ c.objects, x.idx = o.idx → x = o) → (∀ x ∈ s.allStreams, x.sid < s.nextId) → (∀ g ∈ s.allGroups, g.gid < s.nextId) →
    (∀ h ∈ s.heads die, r.at_ ≤ h.2.2.at_) ∧ o.running = false ∧ o.die = die ∧ o.queue.head? = some r ∧
    (∃ c' x, p.ctxRec ctx = some c' ∧ x ∈ c'.objects ∧ x.idx = o.idx ∧ x.running = true ∧ x.queue = o.queue.drop (batchOf o).length ∧ ∀ h ∈ p.heads die, h.1 = ctx → h.2.1.idx ≠ o.idx) ∧
    (∃ w, q.st.wave = some w ∧ w.reqs = batchOf o ∧ w.obj = o.idx ∧ w.stateVa = o.stateVa ∧ w.stateSize = o.stateSize ∧ q.st.kind = .wave u ∧ q.gr.die = die ∧ q.gr.core = conjCore u ∧
      q.gr.ctx = ctx ∧ q.st.exm = Mask.below (batchOf o).length ∧
      (∀ i x, (batchOf o)[i]? = some x → (q.lane i).word 256 0 = x.a0 ∧ (q.lane i).word 256 1 = x.a1) ∧
      ∃ t, exec (.conjugatorBatchStart die) s = .next t ∧ .conjugatorBatchStart die ∈ t.events ∧
        (∀ entry, q.methodReady w entry → t.waveStarted q w entry ∧ t.ctxs = p.ctxs))) ∧
  (∀ (s : State) (w : Wave), s.st.wave = some w → s.isWave = true → s.st.sid ≠ 0 →
    (w.started = true → w.start + 2 ^ 20 ≤ s.dev.clock.toNat →
      ∃ t, exec (.objectBatchWatchdog s.st.sid) s = .next t ∧ t.sameMem s ∧ t.st = Stream.none ∧
        ∀ r ∈ w.reqs, ({ id := r.id, sid := r.sid, lane := r.lane, value := 0, error := some .watchdog } : ObjReply) ∈ t.replies ∧ .objectReplyArrival r.id ∈ t.events) ∧
    (s.st.status = .parked → (∀ f ∈ s.st.faults, f.settled ≠ none) → (∃ f ∈ s.st.faults, f.settled = some false) →
      ∃ t, exec (.methodFaultRerun s.st.sid) s = .next t ∧ t.sameMem s ∧ t.st = Stream.none ∧
        ∀ r ∈ w.reqs, ({ id := r.id, sid := r.sid, lane := r.lane, value := 0, error := some .prot } : ObjReply) ∈ t.replies) ∧
    (s.st.status = .parked → (∀ f ∈ s.st.faults, f.settled = some true) →
      let q := s.modSt (fun x => { x with status := .runnable })
      (s.batchesRest s.gr.ctx = true → exec (.methodFaultRerun s.st.sid) s = .next q) ∧
      (∀ entry, s.batchesRest s.gr.ctx = false → q.methodReady w entry → ∃ t, exec (.methodFaultRerun s.st.sid) s = .next t ∧ t.waveStarted q w entry)))

/-! ## Levels and launches -/

/-- R257, R258, R287: CNTRD reads a live level's counter and 0 otherwise; CNTINC adds a signed value to it, which stops at 0; CANCEL cancels what is beneath the level; CNTWAIT waits while the level is live and acquires when it is not. R318: a stream that runs, or is held at issue, or still owes replies goes on to its next restart point, any other stops. R330, R331: a SYSCALL makes its lanes arrive and waits; the call is sent once every live lane of the unit has arrived; the reply lands in a0, resumes with an acquire, and a failure traps SYSERR (whose TINSTR, the word at TPC, is log entry 16). -/
def Obligations.Levels : Prop :=
  (∀ (s : State) (g : BitVec 4) (d a : BitVec 6) (l : BitVec 2),
    let v := s.level s.gr.ctx l (s.sreg a.toNat)
    s.goesOn = true →
    (s.uniGuard g = false → Retires (.cntinc g d a l) s s true ∧ Retires (.cntwait g a l) s s false ∧ Retires (.cntrd g d a l) s s false ∧ Retires (.cancel g a l) s s true) ∧
    (s.uniGuard g = true →
      Retires (.cntrd g d a l) s (s.setSreg d.toNat (match v with
        | some x => s.levelCount s.gr.ctx x
        | none => 0)) false ∧
      (v ≠ none → exec (.cntwait g a l) s = .next (s.modSt (fun y => { y with status := .waitCounter l.toNat (s.sreg a.toNat) }))) ∧
      (s.quiet →
        (v = none → Retires (.cntwait g a l) s (s.dropL1 s.gr.coreId) false ∧ Retires (.cntinc g d a l) s s true ∧ Retires (.cancel g a l) s s true) ∧
        (∀ x, v = some x → Retires (.cntinc g d a l) s (s.addLevel s.gr.ctx x (s.sreg d.toNat).toInt) true ∧ Retires (.cancel g a l) s (s.cancelLevel s.gr.ctx x) true)))) ∧
  (∀ (s : State) (ctx : Nat) (n : Int),
    (∀ l id x, s.level ctx l id = some x → (∀ kind k, x ≠ .counter kind k) → (s.addLevel ctx x n).levelCount ctx x = bumpCount (s.levelCount ctx x) n) ∧
    (∀ c : Word, (bumpCount c n).toNat = (max ((c.toNat : Int) + n) 0 % 2 ^ 32).toNat) ∧
    (∀ kind id c, (kind = 1 ∨ kind = 2) → s.counter? kind ctx id = some c → (∀ y ∈ s.counters, y.kind = 1 → y.closed = false ∨ y.count ≠ 0) → bumpCount c.count n ≠ 0 →
      (s.addLevel ctx (.counter kind id) n).levelCount ctx (.counter kind id) = bumpCount c.count n) ∧
    (∀ key x, s.launches.find? (fun y => y.key == key) = some x →
      .launchComplete key ∈ (s.addLevel ctx (.launch key) n).events ∧
      ∃ y, (s.cancelLevel ctx (.launch key)).launches.find? (fun y => y.key == key) = some y ∧ y.cancelled = true ∧ y.toPlace = false) ∧
    (∀ l id k m, s.level ctx l id = some (.queued k m) → ∀ c, (s.cancelLevel ctx (.queued k m)).ctxRec ctx = some c → ∀ q ∈ c.waiting k, q.lnum ≠ m)) ∧
  (∀ (x : Stream) (now : Nat),
    let goes : Prop := x.status = .runnable ∨ (x.status = .entryParked ∧ x.faults = []) ∨ x.heldAtIssue = true ∨ x.status = .waitReplies
    (goes → (x.cancelled now).cancelAt.isSome = true ∧ (x.cancelled now).status = x.status) ∧
    (¬ goes → x.cancelled now = { x with status := .stopped })) ∧
  (∀ (s : State) (g : BitVec 4) (i : BitVec 15), s.goesOn = true →
    (s.uniGuard g = false → Retires (.syscall g i) s s true) ∧
    (s.uniGuard g = true → (s.st.isPriv = true ∨ s.isWave = true) → Traps (.syscall g i) s .illegal s.st.exm) ∧
    (s.uniGuard g = true → s.st.isPriv = false → s.isWave = false → s.quiet → s.owedBank = none → s.st.cancelAt = none →
      ∃ u, exec (.syscall g i) s = .next u ∧ u.sameMem s ∧ u.sameRegs s ∧ u.gr.cmdseq = s.gr.cmdseq + 1 ∧ u.un.sysarr = s.un.sysarr + s.st.exm.size ∧
        u.st.status = .waitSyscall ∧ u.st.sysCode = s.immZ i ∧
        (s.un.sysSent = false → s.un.sysarr + s.st.exm.size = s.liveLanes s.un.uid → s.st.gid = s.gr.gid → s.gr.live = true → s.gr.uid = s.un.uid →
          u.un.sysSent = true ∧ ∃ code args, .syscall s.un.ctx s.un.uid code args s.un.index (((s.launchOf s.un).map (·.lid)).getD 0) ∈ u.out))) ∧
  (∀ (s : State) (status value : Word) (w : Nat × Nat × Stream),
    s.un.live = true → s.un.sysSent = true → s.sysWaiters s.un.uid = [w] → w.2.2 = s.st → s.st.gid = s.gr.gid →
    ∃ t : State, t.sameMem s ∧ t.gr.lanes = (s.mapLanes s.st.exm (fun _ x => x.setReg s.gr.allot 0 (if status = 0 then value else status))).gr.lanes ∧
      t.st = { s.st with status := .runnable } ∧ t.un = { s.un with sysarr := 0, sysSent := false } ∧ (∀ x ∈ t.l1, x.core ≠ s.gr.coreId) ∧
      exec (.syscallReply s.un.uid status value) s = .next (if status = 0 then t else t.takeTrap .syserr s.st.exm [] TrapInfo.plain))

/-- R260, R261, R263, R264, R286, R363, R364: how a launch comes in and is dealt out: a doorbell write of 128 bytes at a queue's offset puts a record behind the queue, or is retried when 64 stand there, or refused; RECORD_VALIDATION takes the queue's next record in or refuses it with status 4 and the position of the first condition of R260; the record that a LAUNCH names is enqueued as a child, with its launch number in s[D]; a record that may fire becomes a launch whose chunks are dealt to the dies in turn; a die steals half of the longest list of chunks; the first die that can places its next unit (the cores and places that it takes are log entry 12; a child counts as waiting whether or not its queue has room: log entry 74). -/
def Obligations.LaunchIntake : Prop :=
  ∀ s : State,
    (∀ page off pasid data p c, s.submitPage page = some p → s.ctxRec p.ctx = some c → c.queues.length = 8 →
      ((off < 0x400 ∧ off % 0x80 = 0 ∧ data.length = 128 ∧ pasid = p.pasid ∧ s.accepting = true) →
        (64 ≤ (c.queue (off / 0x80)).length → exec (.doorbellDmwr page off pasid data) s = .next (s.say (.doorbell page 1))) ∧
        ((c.queue (off / 0x80)).length < 64 → ∃ u c' q, exec (.doorbellDmwr page off pasid data) s = .next u ∧ u.sameMem s ∧ .doorbell page 0 ∈ u.out ∧
          .recordValidation p.ctx (off / 0x80) ∈ u.events ∧ u.ctxRec p.ctx = some c' ∧ c'.queue (off / 0x80) = c.queue (off / 0x80) ++ [q] ∧
          q.fields = { s.shaped p.ctx (LaunchRec.parse (wordsOf data)) with queue := off / 0x80 } ∧ q.lnum = nextLaunch c.launches ∧ q.valid = false)) ∧
      (¬(off < 0x400 ∧ off % 0x80 = 0 ∧ data.length = 128 ∧ pasid = p.pasid ∧ s.accepting = true) →
        exec (.doorbellDmwr page off pasid data) s = .next (s.say (.doorbell page 2))) ∧
      (off < 0x400 → ∃ u, exec (.doorbellPostedWrite page off) s = .next u ∧ u.sameMem s ∧ (u.ctxRec p.ctx).map (·.submitErrors) = some (c.submitErrors + 1))) ∧
    (∀ ctx k c q, s.ctxRec ctx = some c → (c.queue k).find? (fun x => !x.valid) = some q →
      (∀ n, s.refusal ctx q.fields = some n → ∃ u ws, exec (.recordValidation ctx k) s = .next u ∧ u.sameMem s ∧
        (⟨ctx, c.carray + 32 * q.fields.tag.toNat, ws, false⟩ : CompletionRec) ∈ u.records ∧ .launchComplete 0 ∈ u.events ∧ (ws.getD 0 0).extractLsb' 16 8 = 4#8 ∧ ws.getD 2 0 = q.lid ∧ ws.getD 3 0 = (BitVec.ofNat 8 n).setWidth 32) ∧
      (s.refusal ctx q.fields = none → q.dropped = false → s.beneathCancelled ctx q = false → ∃ u c', exec (.recordValidation ctx k) s = .next u ∧ u.sameMem s ∧ u.ctxRec ctx = some c' ∧
        c'.jobCount = c.jobCount + 1 ∧ (c'.queue k).length = (c.queue k).length ∧ ∀ x ∈ c'.queue k, x.lnum = q.lnum → x.valid = true)) ∧
    (∀ (c : Cmd) (pa : Nat → Nat) (x : Ctx),
      let r := s.shaped c.ctx (LaunchRec.parse ((List.range 32).map (fun k => BitVec.ofNat 32 (s.getN (.dev (pa k)) 4))))
      s.cmd? c.id = some c → c.kind = .launch → c.state = .accepted → c.buf = [] → c.dropped = false → s.accepting = true →
      (∀ k, k < 32 → s.engWalk c.die c.ctx (vaPair (c.w 0) (c.w 1) + 4 * k) = s ∧ s.cmdTrans c (vaPair (c.w 0) (c.w 1) + 4 * k) needR = .ok (.dev (pa k))) → s.refusal c.ctx r = none → s.ctxRec c.ctx = some x → x.queues.length = 8 →
      (∀ y : QueuedRec, y.graphid = (c.rows.getD 0 []).getD 0 0 → y.phaseid = (c.rows.getD 0 []).getD 1 0 → s.beneathCancelled c.ctx y = false) →
      (∀ y ∈ x.children, y.lnum ≠ nextLaunch x.launches) → (∀ v ∈ s.saved, ∀ y ∈ v.streams, (c.arg, c.id) ∉ y.owed) →
      ∃ u x' q, exec (.launchRecordRead c.id) s = .next u ∧ u.sameMem s ∧ u.ctxRec c.ctx = some x' ∧ q ∈ x'.waiting r.queue ∧ q.child = true ∧ q.valid = true ∧
        q.lnum = nextLaunch x.launches ∧ q.fields = { r with node := true, lastn := false, deps := 0, succ := [] } ∧
        ((c.arg, c.id) ∈ s.st.owed → u.st.sregs = s.st.sregs.set c.arg q.lid ∧ (c.arg, c.id) ∉ u.st.owed) ∧
        (s.st.status = .waitAccept c.id → u.st.status = .runnable)) ∧
    (∀ ctx k q, s.nextRecord ctx = some (k, q) → q.fields.dyn = false →
      ∃ u l, exec (.launchFire ctx) s = .next u ∧ u.sameMem s ∧ l ∈ u.launches ∧ l.ctx = ctx ∧ l.lid = q.lid ∧ l.units = q.fields.units ∧ l.ended = 0 ∧
        l.chunks = dealt q.fields.units ∧ (if l.units = 0 then .launchComplete l.key ∈ u.events else .unitPlacement l.key ∈ u.events) ∧
        ∀ c', u.ctxRec ctx = some c' → ∀ x ∈ c'.queue k, x.lnum ≠ q.lnum) ∧
    (∀ n d j, d < 4 → (j ∈ (dealt n).getD d [] ↔ j < (n + 7) / 8 ∧ j % 4 = d)) ∧
    (∀ l die, s.launches.find? (fun y => y.key == l.key) = some l → die < 4 → l.asks die = true → l.chunks.length = 4 →
      ∃ u y v, exec (.stealMessage l.key die) s = .next u ∧ u.sameMem s ∧ .unitPlacement l.key ∈ u.events ∧ u.launches.find? (fun y => y.key == l.key) = some y ∧
        v < 4 ∧ (∀ k, k < 4 → (l.chunks.getD k []).length ≤ (l.chunks.getD v []).length) ∧
        (let r := (l.chunks.getD v []).length
         if r < 2 then y = { l with noSteal := l.noSteal ++ [die] }
         else y.chunks.getD v [] = (l.chunks.getD v []).take (r - r / 2) ∧ y.chunks.getD die [] = (l.chunks.getD v []).drop (r - r / 2))) ∧
    (∀ l d n places slots, s.launches.find? (fun y => y.key == l.key) = some l → d < 4 → (∀ e, e < d → s.tryDie l e = none) → l.nextUnit d = some n →
      s.coresFor d l.ctx l.fields.nb (1024 * l.fields.scratch) 36 0 ((List.range l.fields.coreCount).map l.fields.coreGroups) = some places →
      s.freeSlots l l.fields.groups = some slots → (∀ y ∈ s.ctxs, y.ctx = l.ctx → y.suspended = false) →
      ∃ u x gs, exec (.unitPlacement l.key) s = .next u ∧ u.sameMem s ∧ u.units = s.units ++ [x] ∧ x.launch = l.key ∧ x.index = n ∧ x.ctx = l.ctx ∧ x.live = true ∧
        x.threads = l.fields.threads ∧ x.cores = places.map (fun p => { p.1 with bars := l.bars p.1.bars p.2 }) ∧ (∀ c ∈ x.cores, c.die = d) ∧ u.groups = s.groups ++ gs ∧ gs.length = (places.map (fun p => p.2.length)).sum ∧
        (∀ g ∈ gs, g.uid = x.uid ∧ g.ctx = l.ctx) ∧
        (∀ y ∈ u.streams, y ∈ s.streams ∨ (y.status = .waitPlaced ∧ y.pc = BitVec.ofNat 57 l.entry ∧ y.kind = .home)) ∧ .unitPlacement l.key ∈ u.events) ∧
    (∀ l, s.launches.find? (fun y => y.key == l.key) = some l → (∀ e, e < 4 → s.tryDie l e = none ∧ l.asks e = false) → exec (.unitPlacement l.key) s = .next s)

/-- R116, R257, R262, R365 to R367: a group whose lanes have ended and whose work is done leaves its core, and with its last group the unit counts as ended; a launch whose units have ended and whose counter is 0 goes and its completion record is to be written: bytes 0x04 to 0x1F, then bytes 0x00 to 0x03, then the MSI-X message. R356 to R358: a contribution that a reduction waits for is counted; the result is written to the command's destination, which ends it. That a contribution counts once its words are read and goes on where the root is another device is log entry 44; that the record goes through the engine of die 0 and shows as messages is log entry 45. -/
def Obligations.LaunchEnds : Prop :=
  ∀ s : State,
    (∀ g : Group, s.group? g.gid = some g → g.gid ≠ 0 → g.alive = 0 → g.uid ≠ 0 → (∀ x ∈ s.stores, x.gid ≠ g.gid) → (∀ x ∈ s.atomics, x.gid ≠ g.gid) →
      (∀ c ∈ s.cmds, c.gid = g.gid → c.isOver = true) → (∀ c, s.ctxRec g.ctx = some c → c.profcap = 0) →
      ∃ u, exec (.groupEnd g.gid) s = .next u ∧ u.sameMem s ∧ u.group? g.gid = none ∧ (∀ x ∈ u.streams, x.gid ≠ g.gid) ∧
        (∀ x l, s.unit? g.uid = some x → (∀ h ∈ s.allGroups, h.live = true → h.uid = g.uid → h.gid = g.gid) → s.launches.find? (fun y => y.key == x.launch) = some l →
          u.unit? g.uid = none ∧ .launchComplete x.launch ∈ u.events ∧
          u.launches.find? (fun y => y.key == x.launch) = some { l with ended := l.ended + 1, count := BitVec.ofNat 32 (l.count.toNat - 1) })) ∧
    (∀ l c, l.key ≠ 0 → s.launches.find? (fun y => y.key == l.key) = some l → s.ctxRec l.ctx = some c → l.units ≤ l.ended → l.count = 0 → l.done = false → l.status ≤ 3 →
      ∃ u ws, exec (.launchComplete l.key) s = .next u ∧ u.sameMem s ∧ (∀ x ∈ u.launches, x.key ≠ l.key) ∧ (⟨l.ctx, c.carray + 32 * l.fields.tag.toNat, ws, false⟩ : CompletionRec) ∈ u.records ∧
        .launchComplete 0 ∈ u.events ∧ ws.length = 8 ∧ (ws.getD 0 0).setWidth 16 = l.fields.tag ∧ (ws.getD 0 0).extractLsb' 24 8 ≠ 0#8 ∧ (ws.getD 0 0).extractLsb' 16 8 = BitVec.ofNat 8 (max l.status (if l.cancelled then 2 else 0)) ∧ ws.getD 1 0 = BitVec.ofNat 32 l.ended ∧
        ws.getD 2 0 = l.lid ∧ ws.getD 3 0 = (if max l.status (if l.cancelled then 2 else 0) = 2 then 0 else l.detail.setWidth 32)) ∧
    (∀ (r : CompletionRec) (c : Ctx) (a : Nat), s.records = [r] → s.ctxRec r.ctx = some c → r.words.length = 8 →
      (r.begun = false → (∀ k, k < 7 → (s.engAsk 0 r.ctx (r.va + 4 + 4 * k) needW 0 false).struck s true 4 = .ok (.host (a + 4 + 4 * k))) →
        ∃ u, exec (.launchComplete 0) s = .next u ∧ u.mem = s.mem ∧ u.records = [{ r with begun := true }] ∧ .launchComplete 0 ∈ u.events ∧
          u.out = s.out ++ [.posted (a + 4) (r.words.drop 1)] ∧ ∀ k, k < 7 → u.getN (.host (a + 4 + 4 * k)) 4 = (r.words.getD (k + 1) 0).toNat) ∧
      (r.begun = true → (s.engAsk 0 r.ctx r.va needW 0 false).struck s true 4 = .ok (.host a) →
        ∃ u, exec (.launchComplete 0) s = .next u ∧ u.mem = s.mem ∧ u.records = [] ∧
          u.out = s.out ++ [.posted a (r.words.take 1), .msix c.complex c.vector] ∧ u.getN (.host a) 4 = (r.words.getD 0 0).toNat)) ∧
    (∀ (c : Cmd) (fn pa : Nat) (g : RGroup), s.cmd? c.id = some c → c.kind = .cred fn → c.state = .accepted → c.arg = 0 → c.buf = [] → c.credBytes = 4 →
      s.rgroups.find? (fun x => x.rgrp == c.w 6 && x.ctx == c.ctx) = some g → g.n ≤ credLimit (c.w 5) → 1 < g.n → (∀ x ∈ s.reductions, ¬(x.rgrp = c.w 6 ∧ x.rtag = c.w 7)) →
      s.cmdTrans c (vaPair (c.w 0) (c.w 1)) needR = .ok (.dev pa) →
      ∃ u x, exec (.credContributionArrival c.id) s = .next u ∧ u.sameMem s ∧ u.cmd? c.id = some x ∧ x.state = .waiting ∧ x.buf = [BitVec.ofNat 32 (s.getN (.dev pa) 4)] ∧
        (g.rdev = s.dev.id → (u.reductionAt g.ctx (c.w 6) (c.w 7)).parts.map (·.cmd) = [c.id]) ∧
        (g.rdev ≠ s.dev.id → .contribution g.rdev c.id c.gid c.ctx (c.w 6) (c.w 7) fn (c.w 4) (c.w 5) x.buf ∈ u.out)) ∧
    (∀ (c : Cmd) (fn pa : Nat) (w : Word), s.cmd? c.id = some c → c.kind = .cred fn → c.state = .accepted → c.arg = 1 → c.buf = [w] → c.progress = 0 →
      s.cmdTrans c (vaPair (c.w 2) (c.w 3)) needW = .ok (.dev pa) → pa + 4 ≤ Config.hbmBytes →
      ∃ u, exec (.credContributionArrival c.id) s = .next u ∧ u.ended c.id ∧ u.getN (.dev pa) 4 = w.toNat ∧
        ∀ l : Loc, l.plain 1 → ¬ l.among (.dev pa) 4 → u.byteAt l = s.byteAt l)

/-! ## Translation -/

/-- R174, R324 to R329, R361, R362: in a walker slot WALKNEXT takes the requests that no slot has taken, TLBFILL installs or refuses, TLBDONE completes, ATSREQ asks and then holds the answers, PRIREQ asks for pages; a pair's TLBINV drops what it covers (that stores and atomics of other streams are not waited for there is log entry 1: they have performed before an instruction issues); the answers from outside land where they were asked for, that of stream 0 at the walk which its die served itself (log entry 9); what an invalidation does to walks in flight is log entry 47, the free fourth word of an ATSREQ's quad and the page requests that are sent once are log entry 48. -/
def Obligations.Walks : Prop :=
  (∀ (s : State) (g : BitVec 4) (d a b : BitVec 6) (n : Nat),
    let die := s.gr.die
    let ls := s.st.exm.lanes
    let reqs := ((s.dieRec die).walks.filter (fun r => r.taken.isNone)).take ls.length
    let inB : List Nat → Prop := fun fs => s.beyondIn s.st.exm fs = 0
    s.goesOn = true → s.st.kind = .walker n → isQuad a.toNat = true →
    (s.uniGuard g = false → Retires (.walknext g d a) s s false ∧ Retires (.tlbdone g a b) s s false ∧ Retires (.prireq g a) s s false ∧
      (isQuad b.toNat = true → Retires (.tlbfill g a b) s s false ∧ Retires (.atsreq g a b) s s false)) ∧
    (s.uniGuard g = true →
      (inB (quadFields a) → reqs ≠ [] → ∃ u, exec (.walknext g d a) s = .next u ∧ u.sameMem s ∧ u.st.pc = s.st.pc + 4 ∧
        u.st.sregs = (s.setSreg d.toNat (BitVec.ofNat 32 reqs.length)).st.sregs ∧ (∀ r ∈ (u.dieRec die).walks, r.tag ∈ reqs.map (·.tag) → r.taken = some n) ∧
        u.gr.lanes = (s.mapLanes s.st.exm (fun l x => x.setRegs s.gr.allot a.toNat (((reqs[ls.idxOf l]?).map WalkReq.words).getD (List.replicate 4 0)))).gr.lanes) ∧
      (inB (quadFields a) → reqs = [] → exec (.walknext g d a) s = .next s) ∧
      (isQuad b.toNat = true → inB (quadFields a ++ quadFields b) →
        Retires (.tlbfill g a b) s (ls.foldl (fun u l => match s.recordTag l a with
          | none => u
          | some tag => u.fillWalk die tag (s.regPair l b.toNat).toNat (s.reg l (b.toNat + 2))) s) false ∧
        (s.recordLanes a = [] → Retires (.atsreq g a b) s s false) ∧
        (s.recordLanes a ≠ [] → s.st.peer = [] → ∃ u, exec (.atsreq g a b) s = .next u ∧ u.sameMem s ∧ u.st.pc = s.st.pc ∧ u.st.status = .waitPeer ∧
          u.st.peer.map (·.lane) = s.recordLanes a ∧ u.out = s.out ++ (s.recordLanes a).map (fun l => HostMsg.atsRequest s.st.sid l ((s.reg l (a.toNat + 3)).toNat % 2 ^ 16)
            (s.recordVa l a) ((s.reg l (a.toNat + 2)).toNat % 2 ^ 20) ((s.reg l a.toNat).extractLsb' 8 3))) ∧
        (∀ l v, s.recordLanes a = [l] → s.peerAnswer l false = some (.done v) → ∃ u f, exec (.atsreq g a b) s = .next u ∧ u.sameMem s ∧ u.st.pc = s.st.pc + 4 ∧
          u.st.sregs = s.st.sregs ∧ u.gr.lanes = (s.mapLanes (Mask.one l) (fun _ x => x.setRegs s.gr.allot b.toNat (atsQuad v f))).gr.lanes)) ∧
      (inB (quadFields a ++ [b.toNat]) →
        Retires (.tlbdone g a b) s (ls.foldl (fun u l => match s.recordTag l a with
          | none => u
          | some tag => u.completeWalks die (fun r => r.tag == tag) (if (s.reg l b.toNat).toNat < 4 then (s.reg l b.toNat).toNat else 2)) s) false) ∧
      (inB (quadFields a) →
        ((∀ l ∈ s.recordLanes a, s.st.peer.any (fun p => p.lane == l) = true) → Retires (.prireq g a) s s false) ∧
        (s.pageRoom = false → (∃ l ∈ s.recordLanes a, s.st.peer.any (fun p => p.lane == l) = false) → exec (.prireq g a) s = .next s) ∧
        (∀ l tag, s.recordLanes a = [l] → s.recordTag l a = some tag → s.st.peer = [] → s.pageRoom = true →
          ∃ u, exec (.prireq g a) s = .next u ∧ u.sameMem s ∧ u.sameRegs s ∧
            .pageRequest ((s.reg l (a.toNat + 3)).toNat % 2 ^ 16) (s.recordVa l a) ((s.reg l a.toNat).extractLsb' 8 3) ∈ u.out ∧
            u.dev.pageReqs = s.dev.pageReqs ++ [((s.reg l (a.toNat + 3)).toNat % 2 ^ 16, s.recordVa l a)] ∧
            ∀ r ∈ (u.dieRec die).walks, r.tag = tag → r.paged = true)))) ∧
  (∀ (s : State) (die e st : Nat) (tag : BitVec 16) (form : Word) (r : WalkReq),
    (∀ x ∈ ((s.completeWalks die (fun x => x.tag == tag) st).dieRec die).walks, x.tag ≠ tag) ∧
    ((s.dieRec die).walks.find? (fun x => x.tag == tag) = some r → r.stale = true → s.fillWalk die tag e form = s) ∧
    (∀ es, (s.dieRec die).walks.find? (fun x => x.tag == tag) = some r → r.stale = false → r.filled (s.keyOf r.ctx true) e form = some es → s.fillWalk die tag e form = es.foldl State.tlbPut s) ∧
    (e.testBit 0 = true → e.testBit 5 = false → e.testBit 6 = false → pteFrame e < Config.hbmBytes →
      ∀ key, r.filled key e 0 = some (r.cores.map (fun core => ⟨core, r.ctx, 0, 4096 * r.page, 4096, devLoc (if e.testBit 8 then key else none) (pteFrame e), ptePerms e⟩))) ∧
    (∀ key, e.testBit 0 = false → form.getLsbD 2 = false → r.filled key e form = none) ∧
    (∀ key, e.testBit 5 = true → pteFrame e / 4096 % 16 ≠ 0 → r.filled key e 0 = none)) ∧
  (∀ (s : State) (g : BitVec 4) (a b : BitVec 6),
    let ctx := (s.sreg (a.toNat + 2)).toNat
    let va := vaPair (s.sreg a.toNat) (s.sreg (a.toNat + 1)) % 2 ^ 57
    let n := (s.sreg b.toNat).toNat
    s.goesOn = true → s.st.kind = .pair → s.st.privileged = false → isQuad a.toNat = true →
    (s.uniGuard g = false → Retires (.tlbinv g a b) s s false) ∧
    (s.uniGuard g = true → va % 4096 ≠ 0 → Traps (.tlbinv g a b) s .misalign s.st.exm) ∧
    (s.uniGuard g = true → va % 4096 = 0 → s.quiet → (∀ x ∈ s.streams, x.held = []) →
      Retires (.tlbinv g a b) s ((s.invalidate (· == ctx) false va n).dropSlots ctx va n) false)) ∧
  (∀ (s : State) (mine : Nat → Bool) (host : Bool) (va n : Nat),
    let u := s.invalidate mine host va n
    u.sameMem s ∧ u.gr = s.gr ∧
    (∀ e, e ∈ u.tlb ↔ e ∈ s.tlb ∧ ¬(mine e.ctx = true ∧ (host = true → e.pasid ≠ 0) ∧ coversRun va n e.va e.size = true)) ∧
    (mine s.gr.ctx = true → s.st.gid = s.gr.gid → ∀ (i : Nat) (t : TransReg), s.st.tb[i]? = some t → t.bound = true → coversRun va n t.va t.limit = true → u.st.tb[i]? = some { t with stale := true })) ∧
  (∀ (s : State) (l va : Nat) (w sure : Bool) (addr : BitVec 64) (status : BitVec 32) (v : PeerAnswer),
    (s.st.sid ≠ 0 → (s.st.status = .waitPeer ∨ s.st.status = .waitWalk) → s.st.peer = [⟨l, va, w, none, sure⟩] →
      (∃ u, exec (.atsCompletion s.st.sid l addr status) s = .next u ∧ u.sameMem s ∧ u.gr = s.gr ∧
        u.st = { s.st with status := .runnable, peer := [⟨l, va, w, some (.done (status.setWidth 128 <<< 64 ||| addr.setWidth 128)), sure⟩] }) ∧
      (∀ dev, ∃ u, exec (.peerAccess dev s.st.sid (.answer l v)) s = .next u ∧ u.sameMem s ∧ u.gr = s.gr ∧ u.st = { s.st with status := .runnable, peer := [⟨l, va, w, some v, sure⟩] })) ∧
    (∃ u, exec (.atsCompletion 0 l addr status) s = .next u ∧ u.sameMem s ∧ ∀ r ∈ (u.dieRec (l / 65536)).walks, r.tag ≠ BitVec.ofNat 16 l)) ∧
  (∀ (s : State) (pasid va pages : Nat) (i : Invalidation),
    (∃ u, exec (.atsInvalidationRequest pasid va pages) s = .next u ∧ u.sameMem s ∧
      (∀ e ∈ u.tlb, e ∈ s.tlb ∧ ¬(s.pasidOf e.ctx = pasid ∧ e.pasid ≠ 0 ∧ coversRun va pages e.va e.size = true)) ∧
      ∃ x ∈ u.invals, x.pasid = pasid ∧ x.va = va ∧ x.pages = pages ∧ .invalidationCompletion x.id ∈ u.events) ∧
    (s.invals.find? (fun x => x.id == i.id) = some i → (∀ x ∈ s.stores, i.since ≤ x.id) → (∀ x ∈ s.atomics, i.since ≤ x.id) → (∀ x ∈ s.allStreams, ∀ y ∈ x.loads, i.since ≤ y.id) →
      ∃ u, exec (.invalidationCompletion i.id) s = .next u ∧ u.sameMem s ∧ .invalidationDone i.id ∈ u.out ∧ ∀ x ∈ u.invals, x.id ≠ i.id)) ∧
  (∀ (s : State) (f : LaneFault) (es : List (Nat × BitVec 64)) (ok : Bool),
    s.st.sid ≠ 0 → s.st.gid = s.gr.gid → s.st.kind = .home → s.st.status = .parked → s.st.faults = [f] → f.settled = none → s.cmds = [] → (∀ x ∈ s.allStreams, x.status ≠ .waitPlaced) →
    (f.host = false → ∃ u, exec (.pageFaultRepair s.gr.ctx f.va .unrecoverable) s = .next u ∧ u.sameMem s ∧ u.st.faults = [{ f with settled := some false }] ∧ .fragmentResume s.st.sid ∈ u.events) ∧
    (f.host = false → ∃ u, exec (.pageFaultRepair s.gr.ctx f.va (.mapped es)) s = .next u ∧ u.st.faults = [{ f with settled := some true }] ∧ .fragmentResume s.st.sid ∈ u.events ∧
      (∀ a e, es = [(a, e)] → a + 8 ≤ Config.hbmBytes → u.mem.getN a 8 = e.toNat ∧ ∀ x, x < a ∨ a + 8 ≤ x → u.mem.get x = s.mem.get x)) ∧
    (f.host = true → ∃ u, exec (.priResponse s.gr.ctx f.va ok) s = .next u ∧ u.sameMem s ∧ u.st.faults = [{ f with settled := some ok }] ∧ .fragmentResume s.st.sid ∈ u.events)) ∧
  (∀ (s : State) (ctx va frame at_ : Nat),
    let e := s.mem.getN at_ 8
    s.leafOfPage ctx va = some at_ → at_ + 8 ≤ Config.hbmBytes → s.keyOf ctx (e.testBit 8) = none → e.testBit 0 = true → e.testBit 5 = false → e.testBit 6 = false → e.testBit 7 = false →
    frame % 4096 = 0 → frame + 4096 ≤ Config.hbmBytes → pteFrame e + 4096 ≤ Config.hbmBytes → (at_ + 8 ≤ frame ∨ frame + 4096 ≤ at_) →
    s.stores = [] → s.atomics = [] → (∀ x ∈ s.allStreams, x.held = []) →
    ∃ u, exec (.pageMigration ctx va frame) s = .next u ∧ pteFrame (u.mem.getN at_ 8) = frame ∧ (∀ k, k < 12 → (u.mem.getN at_ 8).testBit k = e.testBit k) ∧
      (∀ i, i < 4096 → u.mem.get (frame + i) = s.mem.get (pteFrame e + i)) ∧
      ∀ x, (x < frame ∨ frame + 4096 ≤ x) → (x < at_ ∨ at_ + 8 ≤ x) → u.mem.get x = s.mem.get x) ∧
  (∀ s : State, ∃ u, exec .migrationWindowEnd s = .next u ∧ u.sameMem s ∧ u.pageCounts = [] ∧ ∀ p ∈ s.pageCounts, s.wantsMove p = true → .migrationRequest p.page p.die ∈ u.out)

/-! ## Streams, preemption and the device -/

/-- R18, R44, R45, R129, R309: the clause fetch: the header's MARK sets the restart point, its WAIT waits for the flags, else the stream stands at the clause's first word; CONV merges the PEND that matches. R141, R183, R184, R300, R301, R306, R308: promotion, the spill engine's moves, resumption after a repair, and the watchdog of a handler. -/
def Obligations.PathEvents : Prop :=
  (∀ (s : State) (o : Overlay) (e : PathEntry),
    let h := sparseGet 0#32 o.words (s.st.pc.toNat % 4096 / 4 * 4)
    let q := s.modSt (fun x => { x with slot := some o.gen })
    let enter : State → State := fun t => (t.slotUsed s.gr.coreId s.gr.ctx (segOf s.st.pc)).modSt (fun x =>
      { x with hdr := h, pc := s.st.pc + 4, pos := 1, ext := none, fresh := false, marked := false })
    s.st.exm ≠ 0 → s.st.kind = .home → s.st.privileged = false → s.st.below = [] → s.st.status = .runnable → s.st.cancelAt = none → s.st.marked = false →
    (if s.st.fresh = true then s.slotFor s.gr.coreId s.gr.ctx (segOf s.st.pc) else s.slotOf s.st s.gr.coreId s.gr.ctx (segOf s.st.pc)) = some o →
    (0xFFC < s.st.pc.toNat % 4096 + 4 * hdrN h → s.st.stack = [] → exec .clauseFetch s = .next ((q.modSt (fun x => { x with hdr := h })).takeTrap .illegal s.st.exm [] TrapInfo.plain)) ∧
    (s.st.pc.toNat % 4096 + 4 * hdrN h ≤ 0xFFC →
      (s.st.stack = [] → hdrWait h &&& s.st.pending = 0 → exec .clauseFetch s = .next (enter (if hdrMark h = true then q.markRestart else q))) ∧
      (s.st.stack = [] → hdrWait h &&& s.st.pending ≠ 0 → exec .clauseFetch s = .next ((if hdrMark h = true then q.markRestart else q).modSt (fun x =>
        { x with status := .waitFlags, marked := hdrMark h }))) ∧
      (s.st.stack = [e] → e.join = false → e.addr = s.st.pc → e.depth = s.st.dep → e.fmt = s.st.fmt → hdrConv h = true → hdrWait h &&& s.st.pending = 0 →
        exec .clauseFetch s = .next (enter (q.modSt (fun x => { x with stack := [], exm := x.exm ||| (e.mask &&& x.base) })).markRestart))) ∧
    s.markRestart.st.restart.pc = s.st.pc ∧ s.markRestart.st.restart.exm = s.st.exm ∧ s.markRestart.st.restart.pathd = s.st.pathd ∧ s.markRestart.st.restart.cbatch = s.gr.cbatch) ∧
  (∀ s : State, s.st.sid ≠ 0 →
    (s.st.status = .runnable → s.st.promoted = none → 256 ≤ s.st.idle →
      ∃ u, exec (.streamPromotion s.st.sid) s = .next u ∧ u.sameMem s ∧ u.gr = s.gr ∧ u.st = { s.st with promoted := some s.dev.promotions } ∧ u.dev.promotions = s.dev.promotions + 1) ∧
    (s.st.status = .parked → (∀ f ∈ s.st.faults, f.settled = some true) → exec (.fragmentResume s.st.sid) s =
      .next (({ s with nextId := s.nextId + 1 } : State).modSt (fun x => { x with status := .runnable, repair := s.nextId, fresh := true }))) ∧
    (∀ f, s.st.status = .parked → s.owedBank = none → s.st.faults = [f] → f.settled = some false → s.st.exm.has f.lane = true →
      exec (.fragmentResume s.st.sid) s = .next ((({ s with nextId := s.nextId + 1 } : State).modSt (fun x => { x with status := .runnable, repair := s.nextId })).takeTrap .prot (Mask.ofLanes [f.lane])
        [(f.lane, faultRecord f.va f.write f.host f.spill 0x03)] TrapInfo.plain)) ∧
    (∀ b, s.st.status = .entryParked → (∀ f ∈ s.st.faults, f.settled = some true) → s.putBlock s.st.bank = .ok b → b.segPresent s.st.pc = true → s.st.cancelAt = none →
      (∀ l ∈ s.st.exm.lanes, (b.lane l).fb + 18 + (b.lane l).locals + 58 - b.gr.allot ≤ (b.lane l).lowres) →
      ∃ u, exec (.handlerEntryResume s.st.sid) s = .next u ∧ u.sameMem b ∧ u.st.status = .runnable ∧ u.st.pc = s.st.pc ∧ u.st.pos = 0 ∧ u.st.faults = [] ∧ u.st.bank = [] ∧
        u.gr.lanes = (b.mapLanes s.st.exm (fun _ x => x.enterHandler b.gr.allot)).gr.lanes) ∧
    (s.st.status = .waitSpill → ∃ u, exec (.demandSpillDone s.st.sid) s = .next u ∧
      (let r := s.modSt (fun x => { x with demand := [], status := .runnable })
       u = r.serveAll s.st.demand ∧
         (∀ d y t, s.st.demand = [d] → d.spill = false → r.refillTo s.st.sid s.gr d.lane (s.lane d.lane) d.need d.bound 128 = .ok (t, y) →
           u.gr.lanes = s.gr.lanes.set d.lane y ∧ u.st.status = .runnable))) ∧
    (s.st.privileged = true → s.st.kind = .home → s.st.gid = s.gr.gid → s.confidential s.gr.ctx = false →
      ∃ u, exec (.watchdogExpiry s.st.sid) s = .next u ∧ u.sameMem s ∧ u.st = Stream.none ∧ u.gr.alive = 0 ∧ (∀ x ∈ u.streams, x.gid ≠ s.gr.gid) ∧
        .doubleRecord s.gr.ctx s.st.trap.cause.toNat s.st.trap.at_ 0x13 s.instrPc ∈ u.out ∧ (s.gr.alive ≠ 0 → .groupEnd s.gr.gid ∈ u.events))) ∧
  (∀ (s : State) (l : Nat) (pa : Nat → Nat),
    let x := s.gr.lanes.getD l Lane.start
    s.gr.live = true → l < s.gr.lanes.length → (∀ k, s.window s.gr.ctx (s.gr.spillVa l k) = none) →
    (s.gr.allot - x.resident < 64 → x.fb = x.lowres + 1 → s.areaLoc s.gr.gid s.gr l (s.gr.spillVa l x.lowres) true = .ok (.dev (pa 0)) → pa 0 + 4 ≤ Config.hbmBytes →
      ∃ u, exec (.backgroundSpill s.gr.gid l) s = .next u ∧ u.getN (.dev (pa 0)) 4 = (x.word s.gr.allot x.lowres).toNat ∧ u.gr.lanes = s.gr.lanes.set l { x with lowres := x.fb } ∧
        ∀ y : Loc, y.plain 1 → ¬ y.among (.dev (pa 0)) 4 → u.byteAt y = s.byteAt y) ∧
    (x.fb - x.lowres < 64 → 32 ≤ x.lowres → 96 ≤ s.gr.allot - x.resident → (∀ k, k < 32 → s.areaLoc s.gr.gid s.gr l (s.gr.spillVa l (x.lowres - 32 + k)) false = .ok (.dev (pa k))) →
      (s.gr.uid = 0 ∨ ∀ k, k < 32 → (s.tlbHit s.gr.coreId s.gr.ctx (s.gr.spillVa l (x.lowres - 32 + k))).isSome = true) →
      ∃ (u : State) (y : Lane), exec (.backgroundRefill s.gr.gid l) s = .next u ∧ u.sameMem s ∧ u.gr.lanes = s.gr.lanes.set l { y with lowres := x.lowres - 32 } ∧ { y with col := x.col } = x ∧
        (∀ k, k < 32 → y.word s.gr.allot (x.lowres - 32 + k) = BitVec.ofNat 32 (s.getN (.dev (pa k)) 4)) ∧
        ∀ pos, (∀ k, k < 32 → pos ≠ (x.lowres - 32 + k) % s.gr.allot) → y.atPos pos = x.atPos pos))

/-- R309 to R318, R374: a save asked for waits until what has retired is settled, then the unit is in the list of the saved and off its core; a stream goes back to its restart point, its flags clear; a stream record is 448 words, a command record 32; a restart takes the unit out of that list; a context may be suspended and go on; a CANCEL that no restart point met in 65,536 cycles stops its stream; a context torn down leaves nothing. -/
def Obligations.Preemption : Prop :=
  (∀ (s t : State) (area page : Nat),
    let uid := s.un.uid
    let ask : Bool → State := fun precise => s.modUnit uid (fun x => { x with saveVa := area / 4096 * 4096, saving := some precise, saveWait := none })
    let q := ask false
    let p := (ask true).boundaries [s.st.sid]
    uid ≠ 0 → s.un.live = true → s.un.saving = none → s.gr.live = true → s.st.sid ≠ 0 → s.st.gid = s.gr.gid → s.st.held = [] → s.unitStreams uid = [s.st] → s.recordOrder uid = [s.st.sid] → (∀ x ∈ s.streams, x.sid ≠ s.st.sid) →
    (q.settled uid = false → exec (.preemptRequest uid area) s = .next q) ∧
    (q.settled uid = true → q.saveUnit (q.unitOf uid) false = .ok t → exec (.preemptRequest uid area) s = .next t ∧ .saved uid ∈ t.out ∧ t.unit? uid = none ∧ ∃ v ∈ t.saved, v.unit.uid = uid) ∧
    (q.settled uid = true → q.saveUnit (q.unitOf uid) false = .error (t, page) →
      exec (.preemptRequest uid area) s = .next (t.modUnit uid (fun x => { x with saveWait := some page }))) ∧
    (s.debuggable s.un.ctx = true →
      (p.settled uid = false → exec (.preciseStop uid area) s = .next p) ∧
      (p.settled uid = true → p.saveUnit (p.unitOf uid) true = .ok t → exec (.preciseStop uid area) s = .next t ∧ .stopped uid ∈ t.out ∧ t.unit? uid = none ∧ ∃ v ∈ t.saved, v.unit.uid = uid) ∧
      (p.settled uid = true → p.saveUnit (p.unitOf uid) true = .error (t, page) →
        exec (.preciseStop uid area) s = .next (t.modUnit uid (fun x => { x with saveWait := some page })))) ∧
    (s.debuggable s.un.ctx = false → exec (.preciseStop uid area) s = .next s)) ∧
  (∀ (s : State) (x : Stream) (g : Group) (c : Cmd) (mat : List Word) (n : Nat),
    (x.keepsPlace = false →
      x.suspend.pc = x.restart.pc ∧ x.suspend.hdr = x.restart.hdr ∧ x.suspend.pos = x.restart.pos ∧ x.suspend.exm = x.restart.exm ∧ x.suspend.fmt = x.restart.fmt ∧
      x.suspend.dep = x.restart.dep ∧ (x.restart.pathd ≤ x.pathd → x.suspend.pathd = x.restart.pathd) ∧ x.suspend.sregs = x.sregs ∧
      ((∀ k, x.status ≠ .waitBarrier k) → x.suspend.status = .runnable)) ∧
    (x.status = .waitJoin → x.suspend.status = .waitJoin ∧ x.suspend.pc = x.pc ∧ x.suspend.pos = x.pos) ∧
    x.suspend.pending = 0 ∧ x.suspend.loads = [] ∧ x.suspend.faults = [] ∧
    s.atBoundary.st.restart.pc = s.instrPc ∧ s.atBoundary.st.restart.exm = s.st.exm ∧ s.atBoundary.st.restart.pos = s.instrPos ∧
    (x.sregs.length = 60 → x.ix.length = 4 → x.tb.length = 8 → (x.record g).length = 448) ∧ (c.record mat n).length = 32) ∧
  (∀ (s t : State) (v : SavedUnit) (die core : Nat) (places : List (UnitCore × List Group)) (pools : List (Nat × Nat)) (step : Bool),
    let uid := v.unit.uid
    let i : Instr := if step then .singleStep uid die core else .unitRestart uid die core
    let w : SavedUnit := { v with queued := some (die, core, step), unit := { v.unit with saveWait := none } }
    let s1 := s.modSaved uid (fun y => { y with queued := some (die, core, step), unit := { y.unit with saveWait := none } })
    s.saved.filter (fun x => x.unit.uid == uid) = [v] → s.debuggable v.unit.ctx = true → v.dropped = false →
    (s1.restartPlaces w die core = none → exec i s = .next s1) ∧
    (s1.restartPlaces w die core = some (places, pools) → s1.restoreUnit { w.wakeCmds with queued := none } places pools step = .ok t →
      exec i s = .next t ∧ t.saved = s.saved.filter (fun x => x.unit.uid != uid))) ∧
  (∀ (s : State) (ctx : Nat) (c : Ctx), s.ctxRec ctx = some c →
    (c.suspended = true → ∀ areas, ∃ u, exec (.contextSwitch ctx areas) s = .next u ∧ u.sameMem s ∧ (u.ctxRec ctx).map (·.suspended) = some false ∧ .launchFire ctx ∈ u.events) ∧
    (c.suspended = false → (∀ u ∈ s.allUnits, u.live = true → u.uid ≠ 0 → u.ctx ≠ ctx) → ∀ areas, ∃ u, exec (.contextSwitch ctx areas) s = .next u ∧ u.sameMem s ∧
      (u.ctxRec ctx).map (·.suspended) = some true)) ∧
  (∀ (s : State) (n : Nat),
    let t := s.modStream s.st.sid (fun x => { x with status := .stopped })
    s.st.cancelAt = some n → n + 65536 ≤ s.dev.clock.toNat → s.st.status ≠ .waitReplies → (∀ x ∈ s.streams, x.sid ≠ s.st.sid) → (∀ u ∈ t.allUnits, t.allStopped u = false) →
    exec (.cancelTimeout s.st.sid) s = .next t ∧ t.st.status = .stopped) ∧
  (∀ (s : State) (ctx : Nat), ∃ u, exec (.contextTeardown ctx) s = .next u ∧ u.ctxRec ctx = none ∧ (∀ x ∈ u.launches, x.ctx ≠ ctx) ∧ (∀ x ∈ u.counters, x.ctx ≠ ctx) ∧
    (∀ x ∈ u.tlb, x.ctx ≠ ctx) ∧ (∀ x ∈ u.l1, x.ctx ≠ ctx) ∧ (∀ x ∈ u.overlays, x.ctx ≠ ctx) ∧ (∀ x ∈ u.requests, x.ctx ≠ ctx) ∧
    (∀ x ∈ u.records, x.ctx ≠ ctx) ∧ (∀ x ∈ u.reductions, x.ctx ≠ ctx) ∧ (∀ x ∈ u.cmds, x.ctx ≠ ctx))

/-- R338, R341 to R343, R348, R352, R376 to R395: the device: a start that passes leaves zeroed memory, no context and the lowest working pair as leader, one that fails counts and the third in a row enters safe mode; attestation signs the hash of the report; errors are poisoned, refetched or counted; the leader's heartbeat and its succession; trace buffers, gating and wake; power; links; code objects. What the device OS writes rides on COUNTER_SNAPSHOT_REQUEST (log entry 77); the counts of starts and the steps that a start skips are log entry 50, link failures in a row 53, the claim and its waits 52, the forms of poison 49, the gating times and losses and the wake after a forced gate 59. -/
def Obligations.DeviceEvents : Prop :=
  (∀ (s : State) (r : StartReport) (nonce : BitVec 512) (ctx : Nat) (c : Ctx),
    let up : List Bool → State → Prop := fun pairs u => u.dev.phase = .running ∧ u.dev.failures = 0 ∧ u.dev.boots = s.dev.boots + 1 ∧ u.dev.meas = measOf r ∧ u.dev.secret = r.secret ∧ u.dev.serial = r.serial ∧
      u.mem = [] ∧ u.host = s.host ∧ u.ctxs = [] ∧ u.streams = [] ∧ u.st = Stream.none ∧ u.events = [] ∧ (∀ d, d < 4 → (u.dieRec d).pairOk = pairs.getD d false) ∧
      (∀ d, d < u.dev.leader → pairs.getD d false = false) ∧ ((∃ d, d < 4 ∧ pairs.getD d false = true) → pairs.getD u.dev.leader false = true) ∧
      (let key := Config.publicKey (Config.derive r.secret (leBytes 64 (measOf r).toNat))
       .certificate key (measOf r) (Config.sign (Config.derive r.secret []) (leBytes 64 (Config.sha512 (key ++ leBytes 64 (measOf r).toNat)).toNat)) ∈ u.out)
    let skip := if s.dev.authMeas = some (measOf r) then [1, 2, 4] else [1, 2]
    (startFailure r [] r.pairs = none → ∃ u, exec (.coldStart r) s = .next u ∧ up r.pairs u) ∧
    (startFailure r skip s.bistPairs = none → ∃ u, exec (.warmStart r) s = .next u ∧ up s.bistPairs u) ∧
    (∀ k, startFailure r [] r.pairs = some k → s.dev.phase = .reset →
      ∃ u, exec (.coldStart r) s = .next u ∧ u.dev.failures = s.dev.failures + 1 ∧ u.dev.phase = (if 2 ≤ s.dev.failures then .safeMode else .reset) ∧ u.ctxs = [] ∧
        (4 < k → u.dev.authMeas = some (measOf r)) ∧ u.mem = (if 7 ≤ k then [] else s.mem) ∧ (2 ≤ s.dev.failures → u.dev.record = some (k, r.failedDie, r.cause) ∧ u.dev.trained = [0])) ∧
    (∀ k, startFailure r skip s.bistPairs = some k → ∃ u, exec (.warmStart r) s = .next u ∧ u.ctxs = [] ∧ (3 < k → u.dev.meas = measOf r) ∧ u.mem = (if 7 ≤ k then [] else s.mem)) ∧
    (authenticImages r = false → ∀ k, startFailure r [] r.pairs = some k → k ≤ 4) ∧ (authenticImages r = false → startFailure r [] r.pairs ≠ none) ∧
    (s.ctxRec ctx = some c → ∃ u, exec (.attestationRequest nonce ctx) s = .next u ∧ u.sameMem s ∧ (s.reportBytes nonce c).length = 0xE0 ∧
      (let sig := Config.sign (Config.derive s.dev.secret (leBytes 64 s.dev.meas.toNat)) (leBytes 64 (Config.sha512 (s.reportBytes nonce c)).toNat)
       let bytes := s.reportBytes nonce c ++ sigBytes sig
       .report bytes ∈ u.out ∧ bytes.length = 0x164 ∧
         (∀ i, i < 66 → bytes.getD (0xE0 + i) 0 = byteOf (sig.toNat / 2 ^ 528) (65 - i) ∧ bytes.getD (0xE0 + 66 + i) 0 = byteOf (sig.toNat % 2 ^ 528) (65 - i)))) ∧
    (s.ctxRec ctx = some c → ∃ u, exec (.confidentialContextRequest ctx) s = .next u ∧ u.sameMem s ∧ u.confidential ctx = true) ∧
    (∀ e n fs, s.ctxRec ctx = some c →
      (c.template e = none → ∃ u, exec (.retranslationInstall ctx e ⟨n, fs⟩) s = .next u ∧ u.sameMem s ∧ (u.ctxRec ctx).map (fun x => x.translated e) = some n) ∧
      (∀ t x, c.template e = some t → placePages (s.mem, fs) c.root (n / 4096 * 4096) 0x15 t.retranslated.2 = some x →
        ∃ u, exec (.retranslationInstall ctx e ⟨n, fs⟩) s = .next u ∧ u.mem = x.1 ∧ u.host = s.host ∧ u.launches = s.launches ∧
          (u.ctxRec ctx).map (fun y => y.translated e) = some n))) ∧
  (∀ (s : State) (d : DieRec), s.dies.find? (fun x => x.die == d.die) = some d →
    (d.pairOk = true → ∃ u, exec (.lockstepMismatch d.die) s = .next u ∧ u.sameMem s ∧ (u.dieRec d.die).pairOk = false ∧ .machineCheck 2 d.die ∈ u.out) ∧
    (∀ n, ∃ u, exec (.patrolScrub d.die n) s = .next u ∧ u.sameMem s ∧ (u.dieRec d.die).corrected = d.corrected + n) ∧
    (s.dev.leader = d.die → d.pairOk = true → ∃ u, exec .heartbeatWrite s = .next u ∧ u.sameMem s ∧ ∀ x ∈ u.dies, x.pairOk = true →
      x.hb = BitVec.ofNat 64 (s.dev.term.toNat * 2 ^ 32 + (d.hb.toNat + 1) % 2 ^ 32)) ∧
    (s.claims d.die = true → (∀ x ∈ s.dies, x.pairOk = true → x.hb = d.hb) → ∃ u, exec (.leaderTakeover d.die) s = .next u ∧ u.sameMem s ∧ u.dev.leader = d.die ∧
      u.dev.term = BitVec.ofNat 32 (d.hb.toNat / 2 ^ 32 + 1) ∧ (u.dieRec s.dev.leader).pairOk = false ∧ .taken d.die ∈ u.out)) ∧
  (∀ (s : State) (pa core ctx va die off : Nat),
    exec (.uncorrectableError (.hbm pa)) s = .next (({ s with poison := s.poison ++ [⟨pa / 32 * 32, 32, false⟩] } : State).say (.machineCheck 3 pa)) ∧
    exec (.uncorrectableError (.tileOrSync pa)) s = .next (({ s with poison := s.poison ++ [⟨pa / 128 * 128, 128, true⟩] } : State).say (.machineCheck 4 pa)) ∧
    (∃ u p, exec (.uncorrectableError (.scratch die core off)) s = .next u ∧ u.sameMem s ∧ u.poison = s.poison ++ [⟨p, 128, true⟩] ∧
      p = (Config.onChip + die * 2 ^ 44 + core * 2 ^ 38 + off) / 128 * 128) ∧
    (∃ u, exec (.uncorrectableError (.l1 core pa)) s = .next u ∧ u.sameMem s ∧ ∀ x ∈ u.l1, x.core = core → ∀ a, x.sector.pa = some a → a / 128 ≠ pa / 128) ∧
    (∃ u, exec (.uncorrectableError (.overlay core ctx va)) s = .next u ∧ u.sameMem s ∧ (∀ o ∈ u.overlays, ¬(o.core = core ∧ o.ctx = ctx ∧ o.va = va / 4096 * 4096)) ∧
      ((∃ o ∈ s.overlays, o.core = core ∧ o.ctx = ctx ∧ o.va = va / 4096 * 4096) → .overlayFetchComplete core ctx (va / 4096 * 4096) ∈ u.events ∧
        ∃ c ∈ u.cmds, c.kind = .cfetch ∧ c.state = .accepted ∧ c.core = core ∧ c.ctx = ctx ∧ c.arg = va / 4096 * 4096)) ∧
    (s.st.sid ≠ 0 → s.st.gid = s.gr.gid → s.st.kind = .home → s.confidential s.gr.ctx = false → ∃ u, exec (.uncorrectableError (.groupState s.gr.gid)) s = .next u ∧ u.sameMem s ∧ u.gr.alive = 0 ∧
      .machineCheck 6 s.gr.gid ∈ u.out ∧ .doubleRecord s.gr.ctx 3 s.instrPc 0 0 ∈ u.out)) ∧
  (∀ (s : State) (c : Cluster), s.clusters.find? (fun x => x.cluster == c.cluster) = some c →
    (∀ ws r, c.trace = ws :: r → c.ringCap ≠ 0 → ∃ u, exec (.traceDrain c.cluster) s = .next u ∧ (u.clusters.find? (fun x => x.cluster == c.cluster)) = some { c with trace := r, drained := c.drained + 1 } ∧
      ∀ w, ws = [w] → c.ring + 64 * (c.drained % c.ringCap) + 4 ≤ Config.hbmBytes → u.getN (.dev (c.ring + 64 * (c.drained % c.ringCap))) 4 = w.toNat) ∧
    (s.idle c 6000 = true → c.trace = [] → ∃ u, exec (.clusterIdleGate c.cluster) s = .next u ∧ u.sameMem s ∧ u.clusters.find? (fun x => x.cluster == c.cluster) = some { c with gated := true, wakeAt := 0, loss := min 255 c.loss }) ∧
    (s.idle c 36000 = true → ∃ u, exec (.gateDrainTimeout c.cluster) s = .next u ∧ u.sameMem s ∧
      u.clusters.find? (fun x => x.cluster == c.cluster) = some { c with gated := true, wakeAt := 0, trace := [], loss := min 255 (c.loss + c.trace.length) }) ∧
    (c.gated = true → c.wakeAt ≤ s.dev.clock.toNat → ∃ u, exec (.clusterWake c.cluster) s = .next u ∧ u.sameMem s ∧
      u.clusters.find? (fun x => x.cluster == c.cluster) = some { c with gated := false, wakeAt := 0, idleSince := s.dev.clock.toNat }) ∧
    (∃ u, exec .thermalForcedGate s = .next u ∧ u.sameMem s ∧ ∀ x ∈ u.clusters, x.gated = true ∧ x.trace = [] ∧ x.wakeAt = (if s.resident x.cluster = true then s.dev.clock.toNat + 1200 else 0)) ∧
    (∀ w, (s.osWrite (.powerCap w)).dev.cap = max 600 (min 2200 w)) ∧
    (∀ x, s.coreRec x.core = some x → clusterOf x.core = c.cluster → c.trace.length + 2 ≤ 256 → x.ecnt.length = 16 →
      (∀ ws, exec (.counterSnapshotRequest ⟨x.core, ws⟩) s = exec (.counterSnapshotRequest ⟨x.core, []⟩) (ws.foldl State.osWrite s)) ∧
      ∃ u y, exec (.counterSnapshotRequest ⟨x.core, []⟩) s = .next u ∧ u.sameMem s ∧ u.clusters.find? (fun z => z.cluster == c.cluster) = some y ∧ y.trace.length = c.trace.length + 2 ∧ y.loss = 0 ∧
        ∀ i, i < 16 → ((y.trace.getD (c.trace.length + i / 9) []).getD (7 + i % 9) 1) = (x.ecnt.getD i 0).setWidth 32)) ∧
  (∀ (s : State) (watts port n : Nat) (passed : Bool),
    exec .thermalShutdown s = .next (({ s with dev := { s.dev with phase := .stopped } } : State).say (.portDown 0)) ∧
    (∀ k, k = (if s.dev.cap < watts then max 8 (s.dev.throttle - 8) else if 100 * watts < 95 * s.dev.cap then min 64 (s.dev.throttle + 8) else s.dev.throttle) →
      exec (.powerMeasurement watts) s = .next { s with dev := { s.dev with throttle := k, power := watts } }) ∧
    (16 ≤ port ∨ port ∈ s.dev.down → exec (.linkFlitFailure port passed) s = .next s) ∧
    (port < 16 → port ∉ s.dev.down → n = (if passed then 1 else ((s.dev.ports.find? (fun p => p.1 == port)).map (·.2)).getD 0 + 1) →
      ∃ u, exec (.linkFlitFailure port passed) s = .next u ∧ u.sameMem s ∧ u.dev.ports.find? (fun p => p.1 == port) = some (port, n) ∧ (16 ≤ n → .portDown port ∈ u.out ∧ port ∈ u.dev.down) ∧ (n < 16 → u.dev.down = s.dev.down))) ∧
  (∀ (s t : State) (ctx base : Nat) (frames : List Nat) (image : List Byte) (c : Ctx), s.ctxRec ctx = some c →
    let k := (ObjHeader.parse image).check image c (base / 4096 * 4096)
    (k ≠ 0 → exec (.codeObjectLoad ctx base frames image) s = .next (s.say (.loaded ctx k))) ∧
    (imgWord image 0 ≠ 0x4A424F51 → k = 1) ∧
    (k = 0 → s.install c (base / 4096 * 4096) frames (ObjHeader.parse image) image = some t → exec (.codeObjectLoad ctx base frames image) s = .next (t.say (.loaded ctx 0)) ∧
      (c.ctx = ctx → (t.ctxRec ctx).map (·.measured) = some (c.measured ++ image))))
end

