-- ==== Sys2Proof/Laws/Memory.lean ====
section
/-!
SUPPORT. The laws of sparse lists and byte memory: a read after a write, every other place unchanged, and the canonical form kept.
-/
namespace Sys2Proof.Machine

variable {α : Type}

theorem sparseGet_erase (z : α) (m : List (Nat × α)) (k j : Nat) :
    sparseGet z (sparseErase m k) j = if j = k then z else sparseGet z m j := by
  induction m with
  | nil => simp [sparseErase, sparseGet]
  | cons e r ih =>
    obtain ⟨i, w⟩ := e
    by_cases h : k = i
    · subst h
      by_cases h2 : j = k
      · simp [sparseErase, h2] at *
        exact ih
      · simp [sparseErase, sparseGet, ih, h2]
    · by_cases h2 : j = i
      · subst h2
        have h3 : j ≠ k := fun e => h e.symm
        simp [sparseErase, sparseGet, h, h3]
      · simp [sparseErase, sparseGet, h, h2, ih]

/-- The one law of a write: it gives its value at k and leaves every other place as it was. -/
theorem sparseGet_put [DecidableEq α] (z : α) (m : List (Nat × α)) (k : Nat) (v : α) (j : Nat) :
    sparseGet z (sparsePut z m k v) j = if j = k then v else sparseGet z m j := by
  induction m with
  | nil =>
    by_cases hv : v = z
    · by_cases h : j = k <;> simp [sparsePut, sparseGet, hv]
    · by_cases h : j = k <;> simp [sparsePut, sparseGet, hv, h]
  | cons e r ih =>
    obtain ⟨i, w⟩ := e
    by_cases hlt : k < i
    · have hki : k ≠ i := by omega
      by_cases hv : v = z
      · subst hv
        by_cases h2 : j = i
        · subst h2
          have h3 : j ≠ k := by omega
          simp [sparsePut, sparseGet, hlt, h3]
        · simp [sparsePut, sparseGet, hlt, h2, sparseGet_erase]
      · by_cases h1 : j = k
        · simp [sparsePut, sparseGet, hlt, hv, h1]
        · by_cases h2 : j = i
          · simp [sparsePut, sparseGet, hlt, hv, h2]
          · simp [sparsePut, sparseGet, hlt, hv, h1, h2, sparseGet_erase]
    · by_cases h : k = i
      · subst h
        by_cases h1 : j = k
        · simp [sparsePut, h1] at *
          exact ih
        · simp [sparsePut, sparseGet, ih, h1]
      · by_cases h2 : j = i
        · simp [sparsePut, sparseGet, hlt, h, h2]
          omega
        · simp [sparsePut, sparseGet, hlt, h, h2, ih]

theorem sparseFrom_mono [DecidableEq α] (z : α) (m : List (Nat × α)) (a b : Nat) (hab : a ≤ b) (h : sparseFrom z b m = true) :
    sparseFrom z a m = true := by
  cases m with
  | nil => simp [sparseFrom]
  | cons e r =>
    obtain ⟨i, w⟩ := e
    simp [sparseFrom] at *
    exact ⟨⟨by omega, h.1.2⟩, h.2⟩

theorem sparseErase_of_from [DecidableEq α] (z : α) (m : List (Nat × α)) (a k : Nat) (h : sparseFrom z a m = true) :
    sparseFrom z a (sparseErase m k) = true := by
  induction m generalizing a with
  | nil => simp [sparseErase, sparseFrom]
  | cons e r ih =>
    obtain ⟨i, w⟩ := e
    simp [sparseFrom] at h
    by_cases hk : k = i
    · simp [sparseErase, hk]
      exact sparseFrom_mono z _ a (i + 1) (by omega) (by subst hk; exact ih _ h.2)
    · simp [sparseErase, hk, sparseFrom, h.1, ih _ h.2]

/-- A write keeps the canonical form. -/
theorem sparsePut_from [DecidableEq α] (z : α) (m : List (Nat × α)) (a k : Nat) (v : α) (h : sparseFrom z a m = true) (hk : a ≤ k) :
    sparseFrom z a (sparsePut z m k v) = true := by
  induction m generalizing a with
  | nil => by_cases hv : v = z <;> simp [sparsePut, sparseFrom, hv, hk]
  | cons e r ih =>
    obtain ⟨i, w⟩ := e
    have h' := h
    simp [sparseFrom] at h
    by_cases hlt : k < i
    · by_cases hv : v = z
      · simp [sparsePut, hlt, hv, sparseFrom, h.1, sparseErase_of_from z r (i + 1) k h.2]
      · simp [sparsePut, hlt, hv, sparseFrom, h.1, hk, sparseErase_of_from z r (i + 1) k h.2]
    · by_cases hki : k = i
      · subst hki
        simp [sparsePut]
        have h3 := sparseFrom_mono z r a (k + 1) (by omega) h.2
        exact ih a h3 hk
      · simp [sparsePut, hlt, hki, sparseFrom, h.1, ih (i + 1) h.2 (by omega)]

/-- A byte written is read back, and no other byte changes. -/
theorem Memory.get_put (m : Memory) (a b : Nat) (v : Byte) : (m.put a v).get b = if b = a then v else m.get b :=
  sparseGet_put unlisted m a v b

theorem Memory.wf_put (m : Memory) (a : Nat) (v : Byte) (h : m.wf = true) : (m.put a v).wf = true :=
  sparsePut_from unlisted m 0 a v h (Nat.zero_le a)

theorem Memory.wf_putN (m : Memory) (a v n : Nat) (h : m.wf = true) : (m.putN a v n).wf = true := by
  induction n with
  | zero => exact h
  | succ k ih => exact Memory.wf_put _ _ _ ih

/-- A wide write gives byte i of its value at a + i and leaves every other byte. -/
theorem Memory.get_putN (m : Memory) (a v n b : Nat) :
    (m.putN a v n).get b = if a ≤ b ∧ b < a + n then byteOf v (b - a) else m.get b := by
  induction n with
  | zero => simp [Memory.putN]
  | succ k ih =>
    rw [Memory.putN, Memory.get_put, ih]
    by_cases h : b = a + k
    · subst h; simp
    · by_cases h2 : a ≤ b ∧ b < a + k
      · rw [if_neg h, if_pos h2, if_pos (by omega)]
      · rw [if_neg h, if_neg h2, if_neg (by omega)]

theorem byteOf_gather (v n : Nat) : gatherLE (byteOf v) n = v % 2 ^ (8 * n) := by
  induction n with
  | zero => simp [gatherLE, Nat.mod_one]
  | succ k ih =>
    rw [gatherLE, ih]
    have e : (byteOf v k).toNat = v / 2 ^ (8 * k) % 2 ^ 8 := by simp [byteOf, Nat.shiftRight_eq_div_pow]
    rw [e, Nat.shiftLeft_eq, show 8 * (k + 1) = 8 * k + 8 by omega, Nat.pow_add, Nat.mod_mul, Nat.mul_comm (2 ^ (8 * k))]

theorem gatherLE_congr (f g : Nat → Byte) (n : Nat) (h : ∀ i, i < n → f i = g i) : gatherLE f n = gatherLE g n := by
  induction n with
  | zero => rfl
  | succ k ih => rw [gatherLE, gatherLE, ih (fun i hi => h i (by omega)), h k (by omega)]

/-- Byte i of a sector's value. -/
theorem byteOf_bits (w : BitVec 256) (i : Nat) : byteOf w.toNat i = w.extractLsb' (8 * i) 8 := by
  apply BitVec.eq_of_toNat_eq
  simp [byteOf, BitVec.extractLsb'_toNat]

theorem ones_bit (k : Nat) : (0xFF#256).getLsbD k = decide (k < 8) := by
  rw [show (0xFF#256) = BitVec.ofNat 256 (2 ^ 8 - 1) from rfl, BitVec.getLsbD_ofNat, Nat.testBit_two_pow_sub_one]
  by_cases h : k < 8
  · simp [h, show k < 256 by omega]
  · simp [h]

theorem byteOf_setByteOf (w : BitVec 256) (i j : Nat) (v : Byte) (hi : i < 32) (hj : j < 32) :
    byteOf (setByteOf w i v).toNat j = if j = i then v else byteOf w.toNat j := by
  rw [byteOf_bits, byteOf_bits]
  apply BitVec.eq_of_getLsbD_eq
  intro k hk
  have hb : 8 * j + k < 256 := by omega
  simp only [setByteOf, BitVec.getLsbD_extractLsb', BitVec.getLsbD_or, BitVec.getLsbD_and, BitVec.getLsbD_not, BitVec.getLsbD_shiftLeft,
    BitVec.getLsbD_setWidth, ones_bit, hk, hb, decide_true, Bool.true_and]
  by_cases h : j = i
  · subst h
    simp [hk, show ¬ 8 * j + k < 8 * j by omega, BitVec.getLsbD_eq_getElem]
    omega
  · rw [if_neg h]
    by_cases h2 : 8 * j + k < 8 * i
    · simp [h2, hk, hb, BitVec.getLsbD_eq_getElem]
    · have h4 : v.getLsbD (8 * j + k - 8 * i) = false := BitVec.getLsbD_of_ge _ _ (by omega)
      simp [h2, h4, show ¬ 8 * j + k - 8 * i < 8 by omega, hk, hb, BitVec.getLsbD_eq_getElem]

/-- 32 bytes put and got give their value back. -/
theorem ofNat_gather (c : BitVec 256) : BitVec.ofNat 256 (gatherLE (byteOf c.toNat) 32) = c := by
  rw [byteOf_gather]
  apply BitVec.eq_of_toNat_eq
  rw [BitVec.toNat_ofNat, show 8 * 32 = 256 from rfl, Nat.mod_mod, Nat.mod_eq_of_lt c.isLt]

/-- What a key reads of sector j after a write under it. -/
theorem Memory.plainSector_putEnc (m : Memory) (key a j : Nat) (v : Byte) :
    (m.putEnc key a v).plainSector key j = if j = a / 32 then setByteOf (m.plainSector key j) (a % 32) v else m.plainSector key j := by
  unfold Memory.putEnc
  by_cases h : j = a / 32
  · subst h
    rw [if_pos rfl]
    generalize setByteOf (m.plainSector key (a / 32)) (a % 32) v = w
    have e : (m.putN (32 * (a / 32)) (Config.sectorCipher key (a / 32) w).toNat 32).getN (32 * (a / 32)) 32 =
        gatherLE (byteOf (Config.sectorCipher key (a / 32) w).toNat) 32 :=
      gatherLE_congr _ _ 32 (fun i hi => by rw [Memory.get_putN, if_pos (by omega), Nat.add_sub_cancel_left])
    rw [Memory.plainSector, e, ofNat_gather, Equiv.symm_apply_apply]
  · rw [if_neg h]
    generalize setByteOf (m.plainSector key (a / 32)) (a % 32) v = w
    have e : (m.putN (32 * (a / 32)) (Config.sectorCipher key (a / 32) w).toNat 32).getN (32 * j) 32 = m.getN (32 * j) 32 :=
      gatherLE_congr _ _ 32 (fun i hi => by rw [Memory.get_putN, if_neg (by omega)])
    rw [Memory.plainSector, e, Memory.plainSector]

/-- Under one key a byte written is read back, and no other byte changes (R392). -/
theorem Memory.getEnc_putEnc (m : Memory) (key a b : Nat) (v : Byte) :
    (m.putEnc key a v).getEnc key b = if b = a then v else m.getEnc key b := by
  unfold Memory.getEnc
  rw [Memory.plainSector_putEnc]
  by_cases h : b / 32 = a / 32
  · rw [if_pos h, byteOf_setByteOf _ _ _ _ (Nat.mod_lt _ (by decide)) (Nat.mod_lt _ (by decide))]
    by_cases h2 : b = a
    · simp [h2]
    · rw [if_neg (by omega), if_neg h2]
  · rw [if_neg h, if_neg (fun e => h (by rw [e]))]

/-- Outside its sector a write under a key changes no byte. -/
theorem Memory.get_putEnc (m : Memory) (key a b : Nat) (v : Byte) (h : b / 32 ≠ a / 32) : (m.putEnc key a v).get b = m.get b := by
  unfold Memory.putEnc
  rw [Memory.get_putN, if_neg (by omega)]

theorem Memory.wf_putEnc (m : Memory) (key a : Nat) (v : Byte) (h : m.wf = true) : (m.putEnc key a v).wf = true := Memory.wf_putN _ _ _ _ h

end Sys2Proof.Machine
end

