-- ==== Sys2Proof/Laws/Loader.lean ====
section
/-!
SUPPORT. The loader's writes keep the canonical form of memory.
-/
namespace Sys2Proof.Machine

theorem sparseFrom_filter (p : Nat × Byte → Bool) (m : Memory) (a : Nat) (h : sparseFrom unlisted a m = true) : sparseFrom unlisted a (m.filter p) = true := by
  induction m generalizing a with
  | nil => rfl
  | cons e r ih =>
    obtain ⟨i, w⟩ := e
    simp only [sparseFrom, Bool.and_eq_true, decide_eq_true_eq] at h
    by_cases hp : p (i, w) = true
    · simp [List.filter, hp, sparseFrom, h.1.1, h.1.2, ih _ h.2]
    · simp only [List.filter, hp]
      exact sparseFrom_mono unlisted _ a (i + 1) (by omega) (ih _ h.2)

theorem sparseFrom_append (m n : Memory) (a b : Nat) (hm : sparseFrom unlisted a m = true) (hlt : ∀ c ∈ m, c.1 < b) (hab : a ≤ b)
    (hn : sparseFrom unlisted b n = true) : sparseFrom unlisted a (m ++ n) = true := by
  induction m generalizing a with
  | nil => exact sparseFrom_mono unlisted n a b hab hn
  | cons e r ih =>
    obtain ⟨i, w⟩ := e
    simp only [sparseFrom, Bool.and_eq_true] at hm
    simp only [List.cons_append, sparseFrom, Bool.and_eq_true]
    exact ⟨hm.1, ih (i + 1) hm.2 (fun c hc => hlt c (List.mem_cons_of_mem _ hc)) (hlt (i, w) (List.mem_cons_self ..))⟩

theorem frameCells_bounds (a n : Nat) (bs : List Byte) (hn : n ≤ 4096) :
    sparseFrom unlisted (a + (4096 - n)) (frameCells a n bs) = true ∧ ∀ c ∈ frameCells a n bs, c.1 < a + 4096 := by
  induction n generalizing bs with
  | zero => simp [frameCells, sparseFrom]
  | succ k ih =>
    cases bs with
    | nil => simp [frameCells, sparseFrom]
    | cons b r =>
      have h := ih r (by omega)
      have hk : a + (4096 - k) = a + (4095 - k) + 1 := by omega
      by_cases hb : b = unlisted
      · simp only [frameCells, hb, if_true]
        exact ⟨sparseFrom_mono unlisted _ _ _ (by omega) h.1, h.2⟩
      · simp only [frameCells, hb, if_false]
        refine ⟨?_, ?_⟩
        · simp only [sparseFrom, Bool.and_eq_true, decide_eq_true_eq]
          exact ⟨⟨by omega, by simp [hb]⟩, hk ▸ h.1⟩
        · intro c hc
          rcases List.mem_cons.1 hc with rfl | hc
          · show a + (4095 - k) < a + 4096
            omega
          · exact h.2 c hc

theorem sparseFrom_of_ge (m : Memory) (a b : Nat) (h : sparseFrom unlisted a m = true) (hge : ∀ c ∈ m, b ≤ c.1) : sparseFrom unlisted b m = true := by
  cases m with
  | nil => rfl
  | cons e r =>
    obtain ⟨i, w⟩ := e
    simp only [sparseFrom, Bool.and_eq_true, decide_eq_true_eq] at h ⊢
    exact ⟨⟨hge (i, w) (List.mem_cons_self ..), h.1.2⟩, h.2⟩

/-- A frame filled keeps the canonical form. -/
theorem Memory.wf_setFrame (m : Memory) (a : Nat) (bs : List Byte) (h : m.wf = true) : (m.setFrame a bs).wf = true := by
  have low := sparseFrom_filter (fun c => decide (c.1 < a)) m 0 h
  have high : sparseFrom unlisted (a + 4096) (m.filter (fun c => decide (a + 4096 ≤ c.1))) = true :=
    sparseFrom_of_ge _ 0 _ (sparseFrom_filter _ m 0 h) (fun c hc => by simpa using (List.mem_filter.1 hc).2)
  have cells := frameCells_bounds a 4096 bs (Nat.le_refl _)
  show sparseFrom unlisted 0 (m.setFrame a bs) = true
  unfold Memory.setFrame
  rw [List.append_assoc]
  refine sparseFrom_append _ _ 0 a low (fun c hc => by simpa using (List.mem_filter.1 hc).2) (Nat.zero_le _) ?_
  exact sparseFrom_append _ _ a (a + 4096) (by simpa using cells.1) cells.2 (by omega) high

end Sys2Proof.Machine
end

