-- ==== Sys2Proof/Laws/Retire.lean ====
section
/-!
SUPPORT. What the end of an instruction does, said once: an instruction that retires leaves the state that Safety.lean describes.
-/
namespace Sys2Proof.Machine

theorem countRetired_eq (u s : State) : u.countRetired s = { u with cores := (u.countRetired s).cores } := rfl

theorem settle_advance (u s : State) (h : u.st.sid = s.st.sid) :
    (u.settle s).advance = { u with st := u.st.retire.onward, cores := (u.countRetired s).cores } := by
  have e : (u.settle s).advance =
      { u with st := (if u.st.sid = s.st.sid then u.st.retire else u.st).onward, cores := (u.countRetired s).cores } := rfl
  rw [e, if_pos h]

theorem goesOn_landed (s : State) (h : s.goesOn = true) : s.landed = true := by
  simp only [State.goesOn, Bool.and_eq_true] at h
  exact h.1.2

/-- An instruction that ends with .next u retires with the effect u. -/
theorem finish_next (s u : State) (n : Bool) (hs : u.st.sid = s.st.sid) (h : u.goesOn = true) :
    s.finish n (.next u) = u.retired s n := by
  simp only [State.goesOn, Bool.and_eq_true, decide_eq_true_eq, Bool.not_eq_true', Bool.and_eq_false_iff, decide_eq_false_iff_not] at h
  have e := settle_advance u s hs
  unfold State.finish
  simp only [e]
  have hx : ({ u with st := u.st.retire.onward, cores := (u.countRetired s).cores } : State).st.exm ≠ 0 := h.1.1
  simp only [hx, if_false]
  unfold State.retired
  have hedge : ∀ t : State, t.st.pos = u.st.retire.onward.pos → t.st.pc = u.st.retire.onward.pc → t.edge = t := by
    intro t hp hc
    unfold State.edge
    rw [hp, hc]
    have : ¬ (u.st.retire.onward.pos = 0 ∧ u.st.retire.onward.pc.toNat % 4096 = 0) := by
      rintro ⟨a, b⟩
      by_cases hlt : u.st.pos < hdrN u.st.hdr
      · simp [Stream.onward, Stream.retire, hlt] at a
      · rcases h.2 with h2 | h2
        · exact h2 (Nat.le_of_not_lt hlt)
        · exact h2 b
    rw [if_neg this]
  cases n
  · exact hedge _ rfl rfl
  · exact hedge _ rfl rfl

theorem run_next (s u : State) (hl : s.landed = true) (hs : u.st.sid = s.st.sid) (h : u.goesOn = true) : s.run (.next u) = .next (u.retired s false) := by
  rw [State.run, if_pos hl, finish_next s u false hs h]

theorem runN_next (s u : State) (hl : s.landed = true) (hs : u.st.sid = s.st.sid) (h : u.goesOn = true) : s.runN (.next u) = .next (u.retired s true) := by
  rw [State.runN, if_pos hl, finish_next s u true hs h]

theorem goesOn_mapLanes (s : State) (m : Mask) (f : Nat → Lane → Lane) : (s.mapLanes m f).goesOn = s.goesOn := rfl

/-- The shape of R74 once its checks pass. -/
theorem run_perLane (s : State) (g : BitVec 4) (legal : Bool) (fields : List Nat) (f : Nat → Lane → Lane) (hl : legal = true)
    (h : s.goesOn = true) (hb : s.beyondIn (s.active g) fields = 0) :
    s.run (s.perLane g legal fields f) = .next ((s.mapLanes (s.active g) f).retired s false) := by
  simp only [State.perLane, hl, hb, Bool.not_true, ne_eq, not_true_eq_false, if_false, Bool.false_eq_true]
  exact run_next s _ (goesOn_landed s h) rfl h

/-- The shape of R76 once its static check passes. -/
theorem run_once (s : State) (g : BitVec 4) (legal : Bool) (f : State → State) (hl : legal = true) (h : s.goesOn = true)
    (hf : (f s).goesOn = true) (hs : (f s).st.sid = s.st.sid) :
    s.run (s.once g legal f) = .next ((if s.uniGuard g then f s else s).retired s false) := by
  simp only [State.once, hl, Bool.not_true, if_false, Bool.false_eq_true]
  split
  · exact run_next s _ (goesOn_landed s h) hs hf
  · exact run_next s _ (goesOn_landed s h) rfl h

end Sys2Proof.Machine
end

