-- ==== Sys2Proof/Laws/State.lean ====
section
/-!
SUPPORT. The shared updates of the state field by field, so that no later proof unfolds a record update.
-/
namespace Sys2Proof.Machine

/-! modSt -/
@[simp] theorem State.modSt_st (s : State) (f : Stream → Stream) : (s.modSt f).st = f s.st := rfl
@[simp] theorem State.modSt_gr (s : State) (f : Stream → Stream) : (s.modSt f).gr = s.gr := rfl
@[simp] theorem State.modSt_un (s : State) (f : Stream → Stream) : (s.modSt f).un = s.un := rfl
@[simp] theorem State.modSt_streams (s : State) (f : Stream → Stream) : (s.modSt f).streams = s.streams := rfl
@[simp] theorem State.modSt_groups (s : State) (f : Stream → Stream) : (s.modSt f).groups = s.groups := rfl
@[simp] theorem State.modSt_units (s : State) (f : Stream → Stream) : (s.modSt f).units = s.units := rfl
@[simp] theorem State.modSt_saved (s : State) (f : Stream → Stream) : (s.modSt f).saved = s.saved := rfl
@[simp] theorem State.modSt_overlays (s : State) (f : Stream → Stream) : (s.modSt f).overlays = s.overlays := rfl
@[simp] theorem State.modSt_tlb (s : State) (f : Stream → Stream) : (s.modSt f).tlb = s.tlb := rfl
@[simp] theorem State.modSt_l1 (s : State) (f : Stream → Stream) : (s.modSt f).l1 = s.l1 := rfl
@[simp] theorem State.modSt_lines (s : State) (f : Stream → Stream) : (s.modSt f).lines = s.lines := rfl
@[simp] theorem State.modSt_syncLines (s : State) (f : Stream → Stream) : (s.modSt f).syncLines = s.syncLines := rfl
@[simp] theorem State.modSt_cores (s : State) (f : Stream → Stream) : (s.modSt f).cores = s.cores := rfl
@[simp] theorem State.modSt_dies (s : State) (f : Stream → Stream) : (s.modSt f).dies = s.dies := rfl
@[simp] theorem State.modSt_clusters (s : State) (f : Stream → Stream) : (s.modSt f).clusters = s.clusters := rfl
@[simp] theorem State.modSt_ctxs (s : State) (f : Stream → Stream) : (s.modSt f).ctxs = s.ctxs := rfl
@[simp] theorem State.modSt_launches (s : State) (f : Stream → Stream) : (s.modSt f).launches = s.launches := rfl
@[simp] theorem State.modSt_counters (s : State) (f : Stream → Stream) : (s.modSt f).counters = s.counters := rfl
@[simp] theorem State.modSt_cmds (s : State) (f : Stream → Stream) : (s.modSt f).cmds = s.cmds := rfl
@[simp] theorem State.modSt_stores (s : State) (f : Stream → Stream) : (s.modSt f).stores = s.stores := rfl
@[simp] theorem State.modSt_atomics (s : State) (f : Stream → Stream) : (s.modSt f).atomics = s.atomics := rfl
@[simp] theorem State.modSt_replies (s : State) (f : Stream → Stream) : (s.modSt f).replies = s.replies := rfl
@[simp] theorem State.modSt_requests (s : State) (f : Stream → Stream) : (s.modSt f).requests = s.requests := rfl
@[simp] theorem State.modSt_reductions (s : State) (f : Stream → Stream) : (s.modSt f).reductions = s.reductions := rfl
@[simp] theorem State.modSt_records (s : State) (f : Stream → Stream) : (s.modSt f).records = s.records := rfl
@[simp] theorem State.modSt_peerFaults (s : State) (f : Stream → Stream) : (s.modSt f).peerFaults = s.peerFaults := rfl
@[simp] theorem State.modSt_peerAsks (s : State) (f : Stream → Stream) : (s.modSt f).peerAsks = s.peerAsks := rfl
@[simp] theorem State.modSt_far (s : State) (f : Stream → Stream) : (s.modSt f).far = s.far := rfl
@[simp] theorem State.modSt_rgroups (s : State) (f : Stream → Stream) : (s.modSt f).rgroups = s.rgroups := rfl
@[simp] theorem State.modSt_pageCounts (s : State) (f : Stream → Stream) : (s.modSt f).pageCounts = s.pageCounts := rfl
@[simp] theorem State.modSt_submit (s : State) (f : Stream → Stream) : (s.modSt f).submit = s.submit := rfl
@[simp] theorem State.modSt_invals (s : State) (f : Stream → Stream) : (s.modSt f).invals = s.invals := rfl
@[simp] theorem State.modSt_poison (s : State) (f : Stream → Stream) : (s.modSt f).poison = s.poison := rfl
@[simp] theorem State.modSt_spoils (s : State) (f : Stream → Stream) : (s.modSt f).spoils = s.spoils := rfl
@[simp] theorem State.modSt_samples (s : State) (f : Stream → Stream) : (s.modSt f).samples = s.samples := rfl
@[simp] theorem State.modSt_mem (s : State) (f : Stream → Stream) : (s.modSt f).mem = s.mem := rfl
@[simp] theorem State.modSt_host (s : State) (f : Stream → Stream) : (s.modSt f).host = s.host := rfl
@[simp] theorem State.modSt_chip (s : State) (f : Stream → Stream) : (s.modSt f).chip = s.chip := rfl
@[simp] theorem State.modSt_dev (s : State) (f : Stream → Stream) : (s.modSt f).dev = s.dev := rfl
@[simp] theorem State.modSt_events (s : State) (f : Stream → Stream) : (s.modSt f).events = s.events := rfl
@[simp] theorem State.modSt_out (s : State) (f : Stream → Stream) : (s.modSt f).out = s.out := rfl
@[simp] theorem State.modSt_free (s : State) (f : Stream → Stream) : (s.modSt f).free = s.free := rfl
@[simp] theorem State.modSt_nextId (s : State) (f : Stream → Stream) : (s.modSt f).nextId = s.nextId := rfl

/-! modGr -/
@[simp] theorem State.modGr_st (s : State) (f : Group → Group) : (s.modGr f).st = s.st := rfl
@[simp] theorem State.modGr_gr (s : State) (f : Group → Group) : (s.modGr f).gr = f s.gr := rfl
@[simp] theorem State.modGr_un (s : State) (f : Group → Group) : (s.modGr f).un = s.un := rfl
@[simp] theorem State.modGr_streams (s : State) (f : Group → Group) : (s.modGr f).streams = s.streams := rfl
@[simp] theorem State.modGr_groups (s : State) (f : Group → Group) : (s.modGr f).groups = s.groups := rfl
@[simp] theorem State.modGr_units (s : State) (f : Group → Group) : (s.modGr f).units = s.units := rfl
@[simp] theorem State.modGr_saved (s : State) (f : Group → Group) : (s.modGr f).saved = s.saved := rfl
@[simp] theorem State.modGr_overlays (s : State) (f : Group → Group) : (s.modGr f).overlays = s.overlays := rfl
@[simp] theorem State.modGr_tlb (s : State) (f : Group → Group) : (s.modGr f).tlb = s.tlb := rfl
@[simp] theorem State.modGr_l1 (s : State) (f : Group → Group) : (s.modGr f).l1 = s.l1 := rfl
@[simp] theorem State.modGr_lines (s : State) (f : Group → Group) : (s.modGr f).lines = s.lines := rfl
@[simp] theorem State.modGr_syncLines (s : State) (f : Group → Group) : (s.modGr f).syncLines = s.syncLines := rfl
@[simp] theorem State.modGr_cores (s : State) (f : Group → Group) : (s.modGr f).cores = s.cores := rfl
@[simp] theorem State.modGr_dies (s : State) (f : Group → Group) : (s.modGr f).dies = s.dies := rfl
@[simp] theorem State.modGr_clusters (s : State) (f : Group → Group) : (s.modGr f).clusters = s.clusters := rfl
@[simp] theorem State.modGr_ctxs (s : State) (f : Group → Group) : (s.modGr f).ctxs = s.ctxs := rfl
@[simp] theorem State.modGr_launches (s : State) (f : Group → Group) : (s.modGr f).launches = s.launches := rfl
@[simp] theorem State.modGr_counters (s : State) (f : Group → Group) : (s.modGr f).counters = s.counters := rfl
@[simp] theorem State.modGr_cmds (s : State) (f : Group → Group) : (s.modGr f).cmds = s.cmds := rfl
@[simp] theorem State.modGr_stores (s : State) (f : Group → Group) : (s.modGr f).stores = s.stores := rfl
@[simp] theorem State.modGr_atomics (s : State) (f : Group → Group) : (s.modGr f).atomics = s.atomics := rfl
@[simp] theorem State.modGr_replies (s : State) (f : Group → Group) : (s.modGr f).replies = s.replies := rfl
@[simp] theorem State.modGr_requests (s : State) (f : Group → Group) : (s.modGr f).requests = s.requests := rfl
@[simp] theorem State.modGr_reductions (s : State) (f : Group → Group) : (s.modGr f).reductions = s.reductions := rfl
@[simp] theorem State.modGr_records (s : State) (f : Group → Group) : (s.modGr f).records = s.records := rfl
@[simp] theorem State.modGr_peerFaults (s : State) (f : Group → Group) : (s.modGr f).peerFaults = s.peerFaults := rfl
@[simp] theorem State.modGr_peerAsks (s : State) (f : Group → Group) : (s.modGr f).peerAsks = s.peerAsks := rfl
@[simp] theorem State.modGr_far (s : State) (f : Group → Group) : (s.modGr f).far = s.far := rfl
@[simp] theorem State.modGr_rgroups (s : State) (f : Group → Group) : (s.modGr f).rgroups = s.rgroups := rfl
@[simp] theorem State.modGr_pageCounts (s : State) (f : Group → Group) : (s.modGr f).pageCounts = s.pageCounts := rfl
@[simp] theorem State.modGr_submit (s : State) (f : Group → Group) : (s.modGr f).submit = s.submit := rfl
@[simp] theorem State.modGr_invals (s : State) (f : Group → Group) : (s.modGr f).invals = s.invals := rfl
@[simp] theorem State.modGr_poison (s : State) (f : Group → Group) : (s.modGr f).poison = s.poison := rfl
@[simp] theorem State.modGr_spoils (s : State) (f : Group → Group) : (s.modGr f).spoils = s.spoils := rfl
@[simp] theorem State.modGr_samples (s : State) (f : Group → Group) : (s.modGr f).samples = s.samples := rfl
@[simp] theorem State.modGr_mem (s : State) (f : Group → Group) : (s.modGr f).mem = s.mem := rfl
@[simp] theorem State.modGr_host (s : State) (f : Group → Group) : (s.modGr f).host = s.host := rfl
@[simp] theorem State.modGr_chip (s : State) (f : Group → Group) : (s.modGr f).chip = s.chip := rfl
@[simp] theorem State.modGr_dev (s : State) (f : Group → Group) : (s.modGr f).dev = s.dev := rfl
@[simp] theorem State.modGr_events (s : State) (f : Group → Group) : (s.modGr f).events = s.events := rfl
@[simp] theorem State.modGr_out (s : State) (f : Group → Group) : (s.modGr f).out = s.out := rfl
@[simp] theorem State.modGr_free (s : State) (f : Group → Group) : (s.modGr f).free = s.free := rfl
@[simp] theorem State.modGr_nextId (s : State) (f : Group → Group) : (s.modGr f).nextId = s.nextId := rfl

/-! modUn -/
@[simp] theorem State.modUn_st (s : State) (f : UnitRec → UnitRec) : (s.modUn f).st = s.st := rfl
@[simp] theorem State.modUn_gr (s : State) (f : UnitRec → UnitRec) : (s.modUn f).gr = s.gr := rfl
@[simp] theorem State.modUn_un (s : State) (f : UnitRec → UnitRec) : (s.modUn f).un = f s.un := rfl
@[simp] theorem State.modUn_streams (s : State) (f : UnitRec → UnitRec) : (s.modUn f).streams = s.streams := rfl
@[simp] theorem State.modUn_groups (s : State) (f : UnitRec → UnitRec) : (s.modUn f).groups = s.groups := rfl
@[simp] theorem State.modUn_units (s : State) (f : UnitRec → UnitRec) : (s.modUn f).units = s.units := rfl
@[simp] theorem State.modUn_saved (s : State) (f : UnitRec → UnitRec) : (s.modUn f).saved = s.saved := rfl
@[simp] theorem State.modUn_overlays (s : State) (f : UnitRec → UnitRec) : (s.modUn f).overlays = s.overlays := rfl
@[simp] theorem State.modUn_tlb (s : State) (f : UnitRec → UnitRec) : (s.modUn f).tlb = s.tlb := rfl
@[simp] theorem State.modUn_l1 (s : State) (f : UnitRec → UnitRec) : (s.modUn f).l1 = s.l1 := rfl
@[simp] theorem State.modUn_lines (s : State) (f : UnitRec → UnitRec) : (s.modUn f).lines = s.lines := rfl
@[simp] theorem State.modUn_syncLines (s : State) (f : UnitRec → UnitRec) : (s.modUn f).syncLines = s.syncLines := rfl
@[simp] theorem State.modUn_cores (s : State) (f : UnitRec → UnitRec) : (s.modUn f).cores = s.cores := rfl
@[simp] theorem State.modUn_dies (s : State) (f : UnitRec → UnitRec) : (s.modUn f).dies = s.dies := rfl
@[simp] theorem State.modUn_clusters (s : State) (f : UnitRec → UnitRec) : (s.modUn f).clusters = s.clusters := rfl
@[simp] theorem State.modUn_ctxs (s : State) (f : UnitRec → UnitRec) : (s.modUn f).ctxs = s.ctxs := rfl
@[simp] theorem State.modUn_launches (s : State) (f : UnitRec → UnitRec) : (s.modUn f).launches = s.launches := rfl
@[simp] theorem State.modUn_counters (s : State) (f : UnitRec → UnitRec) : (s.modUn f).counters = s.counters := rfl
@[simp] theorem State.modUn_cmds (s : State) (f : UnitRec → UnitRec) : (s.modUn f).cmds = s.cmds := rfl
@[simp] theorem State.modUn_stores (s : State) (f : UnitRec → UnitRec) : (s.modUn f).stores = s.stores := rfl
@[simp] theorem State.modUn_atomics (s : State) (f : UnitRec → UnitRec) : (s.modUn f).atomics = s.atomics := rfl
@[simp] theorem State.modUn_replies (s : State) (f : UnitRec → UnitRec) : (s.modUn f).replies = s.replies := rfl
@[simp] theorem State.modUn_requests (s : State) (f : UnitRec → UnitRec) : (s.modUn f).requests = s.requests := rfl
@[simp] theorem State.modUn_reductions (s : State) (f : UnitRec → UnitRec) : (s.modUn f).reductions = s.reductions := rfl
@[simp] theorem State.modUn_records (s : State) (f : UnitRec → UnitRec) : (s.modUn f).records = s.records := rfl
@[simp] theorem State.modUn_peerFaults (s : State) (f : UnitRec → UnitRec) : (s.modUn f).peerFaults = s.peerFaults := rfl
@[simp] theorem State.modUn_peerAsks (s : State) (f : UnitRec → UnitRec) : (s.modUn f).peerAsks = s.peerAsks := rfl
@[simp] theorem State.modUn_far (s : State) (f : UnitRec → UnitRec) : (s.modUn f).far = s.far := rfl
@[simp] theorem State.modUn_rgroups (s : State) (f : UnitRec → UnitRec) : (s.modUn f).rgroups = s.rgroups := rfl
@[simp] theorem State.modUn_pageCounts (s : State) (f : UnitRec → UnitRec) : (s.modUn f).pageCounts = s.pageCounts := rfl
@[simp] theorem State.modUn_submit (s : State) (f : UnitRec → UnitRec) : (s.modUn f).submit = s.submit := rfl
@[simp] theorem State.modUn_invals (s : State) (f : UnitRec → UnitRec) : (s.modUn f).invals = s.invals := rfl
@[simp] theorem State.modUn_poison (s : State) (f : UnitRec → UnitRec) : (s.modUn f).poison = s.poison := rfl
@[simp] theorem State.modUn_spoils (s : State) (f : UnitRec → UnitRec) : (s.modUn f).spoils = s.spoils := rfl
@[simp] theorem State.modUn_samples (s : State) (f : UnitRec → UnitRec) : (s.modUn f).samples = s.samples := rfl
@[simp] theorem State.modUn_mem (s : State) (f : UnitRec → UnitRec) : (s.modUn f).mem = s.mem := rfl
@[simp] theorem State.modUn_host (s : State) (f : UnitRec → UnitRec) : (s.modUn f).host = s.host := rfl
@[simp] theorem State.modUn_chip (s : State) (f : UnitRec → UnitRec) : (s.modUn f).chip = s.chip := rfl
@[simp] theorem State.modUn_dev (s : State) (f : UnitRec → UnitRec) : (s.modUn f).dev = s.dev := rfl
@[simp] theorem State.modUn_events (s : State) (f : UnitRec → UnitRec) : (s.modUn f).events = s.events := rfl
@[simp] theorem State.modUn_out (s : State) (f : UnitRec → UnitRec) : (s.modUn f).out = s.out := rfl
@[simp] theorem State.modUn_free (s : State) (f : UnitRec → UnitRec) : (s.modUn f).free = s.free := rfl
@[simp] theorem State.modUn_nextId (s : State) (f : UnitRec → UnitRec) : (s.modUn f).nextId = s.nextId := rfl

/-! mapStreams -/
@[simp] theorem State.mapStreams_st (s : State) (f : Stream → Stream) : (s.mapStreams f).st = f s.st := rfl
@[simp] theorem State.mapStreams_gr (s : State) (f : Stream → Stream) : (s.mapStreams f).gr = s.gr := rfl
@[simp] theorem State.mapStreams_un (s : State) (f : Stream → Stream) : (s.mapStreams f).un = s.un := rfl
@[simp] theorem State.mapStreams_streams (s : State) (f : Stream → Stream) : (s.mapStreams f).streams = s.streams.map f := rfl
@[simp] theorem State.mapStreams_groups (s : State) (f : Stream → Stream) : (s.mapStreams f).groups = s.groups := rfl
@[simp] theorem State.mapStreams_units (s : State) (f : Stream → Stream) : (s.mapStreams f).units = s.units := rfl
@[simp] theorem State.mapStreams_saved (s : State) (f : Stream → Stream) : (s.mapStreams f).saved = s.saved := rfl
@[simp] theorem State.mapStreams_overlays (s : State) (f : Stream → Stream) : (s.mapStreams f).overlays = s.overlays := rfl
@[simp] theorem State.mapStreams_tlb (s : State) (f : Stream → Stream) : (s.mapStreams f).tlb = s.tlb := rfl
@[simp] theorem State.mapStreams_l1 (s : State) (f : Stream → Stream) : (s.mapStreams f).l1 = s.l1 := rfl
@[simp] theorem State.mapStreams_lines (s : State) (f : Stream → Stream) : (s.mapStreams f).lines = s.lines := rfl
@[simp] theorem State.mapStreams_syncLines (s : State) (f : Stream → Stream) : (s.mapStreams f).syncLines = s.syncLines := rfl
@[simp] theorem State.mapStreams_cores (s : State) (f : Stream → Stream) : (s.mapStreams f).cores = s.cores := rfl
@[simp] theorem State.mapStreams_dies (s : State) (f : Stream → Stream) : (s.mapStreams f).dies = s.dies := rfl
@[simp] theorem State.mapStreams_clusters (s : State) (f : Stream → Stream) : (s.mapStreams f).clusters = s.clusters := rfl
@[simp] theorem State.mapStreams_ctxs (s : State) (f : Stream → Stream) : (s.mapStreams f).ctxs = s.ctxs := rfl
@[simp] theorem State.mapStreams_launches (s : State) (f : Stream → Stream) : (s.mapStreams f).launches = s.launches := rfl
@[simp] theorem State.mapStreams_counters (s : State) (f : Stream → Stream) : (s.mapStreams f).counters = s.counters := rfl
@[simp] theorem State.mapStreams_cmds (s : State) (f : Stream → Stream) : (s.mapStreams f).cmds = s.cmds := rfl
@[simp] theorem State.mapStreams_stores (s : State) (f : Stream → Stream) : (s.mapStreams f).stores = s.stores := rfl
@[simp] theorem State.mapStreams_atomics (s : State) (f : Stream → Stream) : (s.mapStreams f).atomics = s.atomics := rfl
@[simp] theorem State.mapStreams_replies (s : State) (f : Stream → Stream) : (s.mapStreams f).replies = s.replies := rfl
@[simp] theorem State.mapStreams_requests (s : State) (f : Stream → Stream) : (s.mapStreams f).requests = s.requests := rfl
@[simp] theorem State.mapStreams_reductions (s : State) (f : Stream → Stream) : (s.mapStreams f).reductions = s.reductions := rfl
@[simp] theorem State.mapStreams_records (s : State) (f : Stream → Stream) : (s.mapStreams f).records = s.records := rfl
@[simp] theorem State.mapStreams_peerFaults (s : State) (f : Stream → Stream) : (s.mapStreams f).peerFaults = s.peerFaults := rfl
@[simp] theorem State.mapStreams_peerAsks (s : State) (f : Stream → Stream) : (s.mapStreams f).peerAsks = s.peerAsks := rfl
@[simp] theorem State.mapStreams_far (s : State) (f : Stream → Stream) : (s.mapStreams f).far = s.far := rfl
@[simp] theorem State.mapStreams_rgroups (s : State) (f : Stream → Stream) : (s.mapStreams f).rgroups = s.rgroups := rfl
@[simp] theorem State.mapStreams_pageCounts (s : State) (f : Stream → Stream) : (s.mapStreams f).pageCounts = s.pageCounts := rfl
@[simp] theorem State.mapStreams_submit (s : State) (f : Stream → Stream) : (s.mapStreams f).submit = s.submit := rfl
@[simp] theorem State.mapStreams_invals (s : State) (f : Stream → Stream) : (s.mapStreams f).invals = s.invals := rfl
@[simp] theorem State.mapStreams_poison (s : State) (f : Stream → Stream) : (s.mapStreams f).poison = s.poison := rfl
@[simp] theorem State.mapStreams_spoils (s : State) (f : Stream → Stream) : (s.mapStreams f).spoils = s.spoils := rfl
@[simp] theorem State.mapStreams_samples (s : State) (f : Stream → Stream) : (s.mapStreams f).samples = s.samples := rfl
@[simp] theorem State.mapStreams_mem (s : State) (f : Stream → Stream) : (s.mapStreams f).mem = s.mem := rfl
@[simp] theorem State.mapStreams_host (s : State) (f : Stream → Stream) : (s.mapStreams f).host = s.host := rfl
@[simp] theorem State.mapStreams_chip (s : State) (f : Stream → Stream) : (s.mapStreams f).chip = s.chip := rfl
@[simp] theorem State.mapStreams_dev (s : State) (f : Stream → Stream) : (s.mapStreams f).dev = s.dev := rfl
@[simp] theorem State.mapStreams_events (s : State) (f : Stream → Stream) : (s.mapStreams f).events = s.events := rfl
@[simp] theorem State.mapStreams_out (s : State) (f : Stream → Stream) : (s.mapStreams f).out = s.out := rfl
@[simp] theorem State.mapStreams_free (s : State) (f : Stream → Stream) : (s.mapStreams f).free = s.free := rfl
@[simp] theorem State.mapStreams_nextId (s : State) (f : Stream → Stream) : (s.mapStreams f).nextId = s.nextId := rfl

/-! mapGroups -/
@[simp] theorem State.mapGroups_st (s : State) (f : Group → Group) : (s.mapGroups f).st = s.st := rfl
@[simp] theorem State.mapGroups_gr (s : State) (f : Group → Group) : (s.mapGroups f).gr = f s.gr := rfl
@[simp] theorem State.mapGroups_un (s : State) (f : Group → Group) : (s.mapGroups f).un = s.un := rfl
@[simp] theorem State.mapGroups_streams (s : State) (f : Group → Group) : (s.mapGroups f).streams = s.streams := rfl
@[simp] theorem State.mapGroups_groups (s : State) (f : Group → Group) : (s.mapGroups f).groups = s.groups.map f := rfl
@[simp] theorem State.mapGroups_units (s : State) (f : Group → Group) : (s.mapGroups f).units = s.units := rfl
@[simp] theorem State.mapGroups_saved (s : State) (f : Group → Group) : (s.mapGroups f).saved = s.saved := rfl
@[simp] theorem State.mapGroups_overlays (s : State) (f : Group → Group) : (s.mapGroups f).overlays = s.overlays := rfl
@[simp] theorem State.mapGroups_tlb (s : State) (f : Group → Group) : (s.mapGroups f).tlb = s.tlb := rfl
@[simp] theorem State.mapGroups_l1 (s : State) (f : Group → Group) : (s.mapGroups f).l1 = s.l1 := rfl
@[simp] theorem State.mapGroups_lines (s : State) (f : Group → Group) : (s.mapGroups f).lines = s.lines := rfl
@[simp] theorem State.mapGroups_syncLines (s : State) (f : Group → Group) : (s.mapGroups f).syncLines = s.syncLines := rfl
@[simp] theorem State.mapGroups_cores (s : State) (f : Group → Group) : (s.mapGroups f).cores = s.cores := rfl
@[simp] theorem State.mapGroups_dies (s : State) (f : Group → Group) : (s.mapGroups f).dies = s.dies := rfl
@[simp] theorem State.mapGroups_clusters (s : State) (f : Group → Group) : (s.mapGroups f).clusters = s.clusters := rfl
@[simp] theorem State.mapGroups_ctxs (s : State) (f : Group → Group) : (s.mapGroups f).ctxs = s.ctxs := rfl
@[simp] theorem State.mapGroups_launches (s : State) (f : Group → Group) : (s.mapGroups f).launches = s.launches := rfl
@[simp] theorem State.mapGroups_counters (s : State) (f : Group → Group) : (s.mapGroups f).counters = s.counters := rfl
@[simp] theorem State.mapGroups_cmds (s : State) (f : Group → Group) : (s.mapGroups f).cmds = s.cmds := rfl
@[simp] theorem State.mapGroups_stores (s : State) (f : Group → Group) : (s.mapGroups f).stores = s.stores := rfl
@[simp] theorem State.mapGroups_atomics (s : State) (f : Group → Group) : (s.mapGroups f).atomics = s.atomics := rfl
@[simp] theorem State.mapGroups_replies (s : State) (f : Group → Group) : (s.mapGroups f).replies = s.replies := rfl
@[simp] theorem State.mapGroups_requests (s : State) (f : Group → Group) : (s.mapGroups f).requests = s.requests := rfl
@[simp] theorem State.mapGroups_reductions (s : State) (f : Group → Group) : (s.mapGroups f).reductions = s.reductions := rfl
@[simp] theorem State.mapGroups_records (s : State) (f : Group → Group) : (s.mapGroups f).records = s.records := rfl
@[simp] theorem State.mapGroups_peerFaults (s : State) (f : Group → Group) : (s.mapGroups f).peerFaults = s.peerFaults := rfl
@[simp] theorem State.mapGroups_peerAsks (s : State) (f : Group → Group) : (s.mapGroups f).peerAsks = s.peerAsks := rfl
@[simp] theorem State.mapGroups_far (s : State) (f : Group → Group) : (s.mapGroups f).far = s.far := rfl
@[simp] theorem State.mapGroups_rgroups (s : State) (f : Group → Group) : (s.mapGroups f).rgroups = s.rgroups := rfl
@[simp] theorem State.mapGroups_pageCounts (s : State) (f : Group → Group) : (s.mapGroups f).pageCounts = s.pageCounts := rfl
@[simp] theorem State.mapGroups_submit (s : State) (f : Group → Group) : (s.mapGroups f).submit = s.submit := rfl
@[simp] theorem State.mapGroups_invals (s : State) (f : Group → Group) : (s.mapGroups f).invals = s.invals := rfl
@[simp] theorem State.mapGroups_poison (s : State) (f : Group → Group) : (s.mapGroups f).poison = s.poison := rfl
@[simp] theorem State.mapGroups_spoils (s : State) (f : Group → Group) : (s.mapGroups f).spoils = s.spoils := rfl
@[simp] theorem State.mapGroups_samples (s : State) (f : Group → Group) : (s.mapGroups f).samples = s.samples := rfl
@[simp] theorem State.mapGroups_mem (s : State) (f : Group → Group) : (s.mapGroups f).mem = s.mem := rfl
@[simp] theorem State.mapGroups_host (s : State) (f : Group → Group) : (s.mapGroups f).host = s.host := rfl
@[simp] theorem State.mapGroups_chip (s : State) (f : Group → Group) : (s.mapGroups f).chip = s.chip := rfl
@[simp] theorem State.mapGroups_dev (s : State) (f : Group → Group) : (s.mapGroups f).dev = s.dev := rfl
@[simp] theorem State.mapGroups_events (s : State) (f : Group → Group) : (s.mapGroups f).events = s.events := rfl
@[simp] theorem State.mapGroups_out (s : State) (f : Group → Group) : (s.mapGroups f).out = s.out := rfl
@[simp] theorem State.mapGroups_free (s : State) (f : Group → Group) : (s.mapGroups f).free = s.free := rfl
@[simp] theorem State.mapGroups_nextId (s : State) (f : Group → Group) : (s.mapGroups f).nextId = s.nextId := rfl

/-! mapUnits -/
@[simp] theorem State.mapUnits_st (s : State) (f : UnitRec → UnitRec) : (s.mapUnits f).st = s.st := rfl
@[simp] theorem State.mapUnits_gr (s : State) (f : UnitRec → UnitRec) : (s.mapUnits f).gr = s.gr := rfl
@[simp] theorem State.mapUnits_un (s : State) (f : UnitRec → UnitRec) : (s.mapUnits f).un = f s.un := rfl
@[simp] theorem State.mapUnits_streams (s : State) (f : UnitRec → UnitRec) : (s.mapUnits f).streams = s.streams := rfl
@[simp] theorem State.mapUnits_groups (s : State) (f : UnitRec → UnitRec) : (s.mapUnits f).groups = s.groups := rfl
@[simp] theorem State.mapUnits_units (s : State) (f : UnitRec → UnitRec) : (s.mapUnits f).units = s.units.map f := rfl
@[simp] theorem State.mapUnits_saved (s : State) (f : UnitRec → UnitRec) : (s.mapUnits f).saved = s.saved := rfl
@[simp] theorem State.mapUnits_overlays (s : State) (f : UnitRec → UnitRec) : (s.mapUnits f).overlays = s.overlays := rfl
@[simp] theorem State.mapUnits_tlb (s : State) (f : UnitRec → UnitRec) : (s.mapUnits f).tlb = s.tlb := rfl
@[simp] theorem State.mapUnits_l1 (s : State) (f : UnitRec → UnitRec) : (s.mapUnits f).l1 = s.l1 := rfl
@[simp] theorem State.mapUnits_lines (s : State) (f : UnitRec → UnitRec) : (s.mapUnits f).lines = s.lines := rfl
@[simp] theorem State.mapUnits_syncLines (s : State) (f : UnitRec → UnitRec) : (s.mapUnits f).syncLines = s.syncLines := rfl
@[simp] theorem State.mapUnits_cores (s : State) (f : UnitRec → UnitRec) : (s.mapUnits f).cores = s.cores := rfl
@[simp] theorem State.mapUnits_dies (s : State) (f : UnitRec → UnitRec) : (s.mapUnits f).dies = s.dies := rfl
@[simp] theorem State.mapUnits_clusters (s : State) (f : UnitRec → UnitRec) : (s.mapUnits f).clusters = s.clusters := rfl
@[simp] theorem State.mapUnits_ctxs (s : State) (f : UnitRec → UnitRec) : (s.mapUnits f).ctxs = s.ctxs := rfl
@[simp] theorem State.mapUnits_launches (s : State) (f : UnitRec → UnitRec) : (s.mapUnits f).launches = s.launches := rfl
@[simp] theorem State.mapUnits_counters (s : State) (f : UnitRec → UnitRec) : (s.mapUnits f).counters = s.counters := rfl
@[simp] theorem State.mapUnits_cmds (s : State) (f : UnitRec → UnitRec) : (s.mapUnits f).cmds = s.cmds := rfl
@[simp] theorem State.mapUnits_stores (s : State) (f : UnitRec → UnitRec) : (s.mapUnits f).stores = s.stores := rfl
@[simp] theorem State.mapUnits_atomics (s : State) (f : UnitRec → UnitRec) : (s.mapUnits f).atomics = s.atomics := rfl
@[simp] theorem State.mapUnits_replies (s : State) (f : UnitRec → UnitRec) : (s.mapUnits f).replies = s.replies := rfl
@[simp] theorem State.mapUnits_requests (s : State) (f : UnitRec → UnitRec) : (s.mapUnits f).requests = s.requests := rfl
@[simp] theorem State.mapUnits_reductions (s : State) (f : UnitRec → UnitRec) : (s.mapUnits f).reductions = s.reductions := rfl
@[simp] theorem State.mapUnits_records (s : State) (f : UnitRec → UnitRec) : (s.mapUnits f).records = s.records := rfl
@[simp] theorem State.mapUnits_peerFaults (s : State) (f : UnitRec → UnitRec) : (s.mapUnits f).peerFaults = s.peerFaults := rfl
@[simp] theorem State.mapUnits_peerAsks (s : State) (f : UnitRec → UnitRec) : (s.mapUnits f).peerAsks = s.peerAsks := rfl
@[simp] theorem State.mapUnits_far (s : State) (f : UnitRec → UnitRec) : (s.mapUnits f).far = s.far := rfl
@[simp] theorem State.mapUnits_rgroups (s : State) (f : UnitRec → UnitRec) : (s.mapUnits f).rgroups = s.rgroups := rfl
@[simp] theorem State.mapUnits_pageCounts (s : State) (f : UnitRec → UnitRec) : (s.mapUnits f).pageCounts = s.pageCounts := rfl
@[simp] theorem State.mapUnits_submit (s : State) (f : UnitRec → UnitRec) : (s.mapUnits f).submit = s.submit := rfl
@[simp] theorem State.mapUnits_invals (s : State) (f : UnitRec → UnitRec) : (s.mapUnits f).invals = s.invals := rfl
@[simp] theorem State.mapUnits_poison (s : State) (f : UnitRec → UnitRec) : (s.mapUnits f).poison = s.poison := rfl
@[simp] theorem State.mapUnits_spoils (s : State) (f : UnitRec → UnitRec) : (s.mapUnits f).spoils = s.spoils := rfl
@[simp] theorem State.mapUnits_samples (s : State) (f : UnitRec → UnitRec) : (s.mapUnits f).samples = s.samples := rfl
@[simp] theorem State.mapUnits_mem (s : State) (f : UnitRec → UnitRec) : (s.mapUnits f).mem = s.mem := rfl
@[simp] theorem State.mapUnits_host (s : State) (f : UnitRec → UnitRec) : (s.mapUnits f).host = s.host := rfl
@[simp] theorem State.mapUnits_chip (s : State) (f : UnitRec → UnitRec) : (s.mapUnits f).chip = s.chip := rfl
@[simp] theorem State.mapUnits_dev (s : State) (f : UnitRec → UnitRec) : (s.mapUnits f).dev = s.dev := rfl
@[simp] theorem State.mapUnits_events (s : State) (f : UnitRec → UnitRec) : (s.mapUnits f).events = s.events := rfl
@[simp] theorem State.mapUnits_out (s : State) (f : UnitRec → UnitRec) : (s.mapUnits f).out = s.out := rfl
@[simp] theorem State.mapUnits_free (s : State) (f : UnitRec → UnitRec) : (s.mapUnits f).free = s.free := rfl
@[simp] theorem State.mapUnits_nextId (s : State) (f : UnitRec → UnitRec) : (s.mapUnits f).nextId = s.nextId := rfl

/-! post -/
@[simp] theorem State.post_st (s : State) (i : Instr) : (s.post i).st = s.st := rfl
@[simp] theorem State.post_gr (s : State) (i : Instr) : (s.post i).gr = s.gr := rfl
@[simp] theorem State.post_un (s : State) (i : Instr) : (s.post i).un = s.un := rfl
@[simp] theorem State.post_streams (s : State) (i : Instr) : (s.post i).streams = s.streams := rfl
@[simp] theorem State.post_groups (s : State) (i : Instr) : (s.post i).groups = s.groups := rfl
@[simp] theorem State.post_units (s : State) (i : Instr) : (s.post i).units = s.units := rfl
@[simp] theorem State.post_saved (s : State) (i : Instr) : (s.post i).saved = s.saved := rfl
@[simp] theorem State.post_overlays (s : State) (i : Instr) : (s.post i).overlays = s.overlays := rfl
@[simp] theorem State.post_tlb (s : State) (i : Instr) : (s.post i).tlb = s.tlb := rfl
@[simp] theorem State.post_l1 (s : State) (i : Instr) : (s.post i).l1 = s.l1 := rfl
@[simp] theorem State.post_lines (s : State) (i : Instr) : (s.post i).lines = s.lines := rfl
@[simp] theorem State.post_syncLines (s : State) (i : Instr) : (s.post i).syncLines = s.syncLines := rfl
@[simp] theorem State.post_cores (s : State) (i : Instr) : (s.post i).cores = s.cores := rfl
@[simp] theorem State.post_dies (s : State) (i : Instr) : (s.post i).dies = s.dies := rfl
@[simp] theorem State.post_clusters (s : State) (i : Instr) : (s.post i).clusters = s.clusters := rfl
@[simp] theorem State.post_ctxs (s : State) (i : Instr) : (s.post i).ctxs = s.ctxs := rfl
@[simp] theorem State.post_launches (s : State) (i : Instr) : (s.post i).launches = s.launches := rfl
@[simp] theorem State.post_counters (s : State) (i : Instr) : (s.post i).counters = s.counters := rfl
@[simp] theorem State.post_cmds (s : State) (i : Instr) : (s.post i).cmds = s.cmds := rfl
@[simp] theorem State.post_stores (s : State) (i : Instr) : (s.post i).stores = s.stores := rfl
@[simp] theorem State.post_atomics (s : State) (i : Instr) : (s.post i).atomics = s.atomics := rfl
@[simp] theorem State.post_replies (s : State) (i : Instr) : (s.post i).replies = s.replies := rfl
@[simp] theorem State.post_requests (s : State) (i : Instr) : (s.post i).requests = s.requests := rfl
@[simp] theorem State.post_reductions (s : State) (i : Instr) : (s.post i).reductions = s.reductions := rfl
@[simp] theorem State.post_records (s : State) (i : Instr) : (s.post i).records = s.records := rfl
@[simp] theorem State.post_peerFaults (s : State) (i : Instr) : (s.post i).peerFaults = s.peerFaults := rfl
@[simp] theorem State.post_peerAsks (s : State) (i : Instr) : (s.post i).peerAsks = s.peerAsks := rfl
@[simp] theorem State.post_far (s : State) (i : Instr) : (s.post i).far = s.far := rfl
@[simp] theorem State.post_rgroups (s : State) (i : Instr) : (s.post i).rgroups = s.rgroups := rfl
@[simp] theorem State.post_pageCounts (s : State) (i : Instr) : (s.post i).pageCounts = s.pageCounts := rfl
@[simp] theorem State.post_submit (s : State) (i : Instr) : (s.post i).submit = s.submit := rfl
@[simp] theorem State.post_invals (s : State) (i : Instr) : (s.post i).invals = s.invals := rfl
@[simp] theorem State.post_poison (s : State) (i : Instr) : (s.post i).poison = s.poison := rfl
@[simp] theorem State.post_spoils (s : State) (i : Instr) : (s.post i).spoils = s.spoils := rfl
@[simp] theorem State.post_samples (s : State) (i : Instr) : (s.post i).samples = s.samples := rfl
@[simp] theorem State.post_mem (s : State) (i : Instr) : (s.post i).mem = s.mem := rfl
@[simp] theorem State.post_host (s : State) (i : Instr) : (s.post i).host = s.host := rfl
@[simp] theorem State.post_chip (s : State) (i : Instr) : (s.post i).chip = s.chip := rfl
@[simp] theorem State.post_dev (s : State) (i : Instr) : (s.post i).dev = s.dev := rfl
@[simp] theorem State.post_events (s : State) (i : Instr) : (s.post i).events = s.events ++ [i] := rfl
@[simp] theorem State.post_out (s : State) (i : Instr) : (s.post i).out = s.out := rfl
@[simp] theorem State.post_free (s : State) (i : Instr) : (s.post i).free = s.free := rfl
@[simp] theorem State.post_nextId (s : State) (i : Instr) : (s.post i).nextId = s.nextId := rfl

/-! say -/
@[simp] theorem State.say_st (s : State) (m : HostMsg) : (s.say m).st = s.st := rfl
@[simp] theorem State.say_gr (s : State) (m : HostMsg) : (s.say m).gr = s.gr := rfl
@[simp] theorem State.say_un (s : State) (m : HostMsg) : (s.say m).un = s.un := rfl
@[simp] theorem State.say_streams (s : State) (m : HostMsg) : (s.say m).streams = s.streams := rfl
@[simp] theorem State.say_groups (s : State) (m : HostMsg) : (s.say m).groups = s.groups := rfl
@[simp] theorem State.say_units (s : State) (m : HostMsg) : (s.say m).units = s.units := rfl
@[simp] theorem State.say_saved (s : State) (m : HostMsg) : (s.say m).saved = s.saved := rfl
@[simp] theorem State.say_overlays (s : State) (m : HostMsg) : (s.say m).overlays = s.overlays := rfl
@[simp] theorem State.say_tlb (s : State) (m : HostMsg) : (s.say m).tlb = s.tlb := rfl
@[simp] theorem State.say_l1 (s : State) (m : HostMsg) : (s.say m).l1 = s.l1 := rfl
@[simp] theorem State.say_lines (s : State) (m : HostMsg) : (s.say m).lines = s.lines := rfl
@[simp] theorem State.say_syncLines (s : State) (m : HostMsg) : (s.say m).syncLines = s.syncLines := rfl
@[simp] theorem State.say_cores (s : State) (m : HostMsg) : (s.say m).cores = s.cores := rfl
@[simp] theorem State.say_dies (s : State) (m : HostMsg) : (s.say m).dies = s.dies := rfl
@[simp] theorem State.say_clusters (s : State) (m : HostMsg) : (s.say m).clusters = s.clusters := rfl
@[simp] theorem State.say_ctxs (s : State) (m : HostMsg) : (s.say m).ctxs = s.ctxs := rfl
@[simp] theorem State.say_launches (s : State) (m : HostMsg) : (s.say m).launches = s.launches := rfl
@[simp] theorem State.say_counters (s : State) (m : HostMsg) : (s.say m).counters = s.counters := rfl
@[simp] theorem State.say_cmds (s : State) (m : HostMsg) : (s.say m).cmds = s.cmds := rfl
@[simp] theorem State.say_stores (s : State) (m : HostMsg) : (s.say m).stores = s.stores := rfl
@[simp] theorem State.say_atomics (s : State) (m : HostMsg) : (s.say m).atomics = s.atomics := rfl
@[simp] theorem State.say_replies (s : State) (m : HostMsg) : (s.say m).replies = s.replies := rfl
@[simp] theorem State.say_requests (s : State) (m : HostMsg) : (s.say m).requests = s.requests := rfl
@[simp] theorem State.say_reductions (s : State) (m : HostMsg) : (s.say m).reductions = s.reductions := rfl
@[simp] theorem State.say_records (s : State) (m : HostMsg) : (s.say m).records = s.records := rfl
@[simp] theorem State.say_peerFaults (s : State) (m : HostMsg) : (s.say m).peerFaults = s.peerFaults := rfl
@[simp] theorem State.say_peerAsks (s : State) (m : HostMsg) : (s.say m).peerAsks = s.peerAsks := rfl
@[simp] theorem State.say_far (s : State) (m : HostMsg) : (s.say m).far = s.far := rfl
@[simp] theorem State.say_rgroups (s : State) (m : HostMsg) : (s.say m).rgroups = s.rgroups := rfl
@[simp] theorem State.say_pageCounts (s : State) (m : HostMsg) : (s.say m).pageCounts = s.pageCounts := rfl
@[simp] theorem State.say_submit (s : State) (m : HostMsg) : (s.say m).submit = s.submit := rfl
@[simp] theorem State.say_invals (s : State) (m : HostMsg) : (s.say m).invals = s.invals := rfl
@[simp] theorem State.say_poison (s : State) (m : HostMsg) : (s.say m).poison = s.poison := rfl
@[simp] theorem State.say_spoils (s : State) (m : HostMsg) : (s.say m).spoils = s.spoils := rfl
@[simp] theorem State.say_samples (s : State) (m : HostMsg) : (s.say m).samples = s.samples := rfl
@[simp] theorem State.say_mem (s : State) (m : HostMsg) : (s.say m).mem = s.mem := rfl
@[simp] theorem State.say_host (s : State) (m : HostMsg) : (s.say m).host = s.host := rfl
@[simp] theorem State.say_chip (s : State) (m : HostMsg) : (s.say m).chip = s.chip := rfl
@[simp] theorem State.say_dev (s : State) (m : HostMsg) : (s.say m).dev = s.dev := rfl
@[simp] theorem State.say_events (s : State) (m : HostMsg) : (s.say m).events = s.events := rfl
@[simp] theorem State.say_out (s : State) (m : HostMsg) : (s.say m).out = s.out ++ [m] := rfl
@[simp] theorem State.say_free (s : State) (m : HostMsg) : (s.say m).free = s.free := rfl
@[simp] theorem State.say_nextId (s : State) (m : HostMsg) : (s.say m).nextId = s.nextId := rfl

/-! modCtx -/
@[simp] theorem State.modCtx_st (s : State) (c : Nat) (f : Ctx → Ctx) : (s.modCtx c f).st = s.st := rfl
@[simp] theorem State.modCtx_gr (s : State) (c : Nat) (f : Ctx → Ctx) : (s.modCtx c f).gr = s.gr := rfl
@[simp] theorem State.modCtx_un (s : State) (c : Nat) (f : Ctx → Ctx) : (s.modCtx c f).un = s.un := rfl
@[simp] theorem State.modCtx_streams (s : State) (c : Nat) (f : Ctx → Ctx) : (s.modCtx c f).streams = s.streams := rfl
@[simp] theorem State.modCtx_groups (s : State) (c : Nat) (f : Ctx → Ctx) : (s.modCtx c f).groups = s.groups := rfl
@[simp] theorem State.modCtx_units (s : State) (c : Nat) (f : Ctx → Ctx) : (s.modCtx c f).units = s.units := rfl
@[simp] theorem State.modCtx_saved (s : State) (c : Nat) (f : Ctx → Ctx) : (s.modCtx c f).saved = s.saved := rfl
@[simp] theorem State.modCtx_overlays (s : State) (c : Nat) (f : Ctx → Ctx) : (s.modCtx c f).overlays = s.overlays := rfl
@[simp] theorem State.modCtx_tlb (s : State) (c : Nat) (f : Ctx → Ctx) : (s.modCtx c f).tlb = s.tlb := rfl
@[simp] theorem State.modCtx_l1 (s : State) (c : Nat) (f : Ctx → Ctx) : (s.modCtx c f).l1 = s.l1 := rfl
@[simp] theorem State.modCtx_lines (s : State) (c : Nat) (f : Ctx → Ctx) : (s.modCtx c f).lines = s.lines := rfl
@[simp] theorem State.modCtx_syncLines (s : State) (c : Nat) (f : Ctx → Ctx) : (s.modCtx c f).syncLines = s.syncLines := rfl
@[simp] theorem State.modCtx_cores (s : State) (c : Nat) (f : Ctx → Ctx) : (s.modCtx c f).cores = s.cores := rfl
@[simp] theorem State.modCtx_dies (s : State) (c : Nat) (f : Ctx → Ctx) : (s.modCtx c f).dies = s.dies := rfl
@[simp] theorem State.modCtx_clusters (s : State) (c : Nat) (f : Ctx → Ctx) : (s.modCtx c f).clusters = s.clusters := rfl
@[simp] theorem State.modCtx_ctxs (s : State) (c : Nat) (f : Ctx → Ctx) : (s.modCtx c f).ctxs = s.ctxs.map (fun x => if x.ctx = c then f x else x) := rfl
@[simp] theorem State.modCtx_launches (s : State) (c : Nat) (f : Ctx → Ctx) : (s.modCtx c f).launches = s.launches := rfl
@[simp] theorem State.modCtx_counters (s : State) (c : Nat) (f : Ctx → Ctx) : (s.modCtx c f).counters = s.counters := rfl
@[simp] theorem State.modCtx_cmds (s : State) (c : Nat) (f : Ctx → Ctx) : (s.modCtx c f).cmds = s.cmds := rfl
@[simp] theorem State.modCtx_stores (s : State) (c : Nat) (f : Ctx → Ctx) : (s.modCtx c f).stores = s.stores := rfl
@[simp] theorem State.modCtx_atomics (s : State) (c : Nat) (f : Ctx → Ctx) : (s.modCtx c f).atomics = s.atomics := rfl
@[simp] theorem State.modCtx_replies (s : State) (c : Nat) (f : Ctx → Ctx) : (s.modCtx c f).replies = s.replies := rfl
@[simp] theorem State.modCtx_requests (s : State) (c : Nat) (f : Ctx → Ctx) : (s.modCtx c f).requests = s.requests := rfl
@[simp] theorem State.modCtx_reductions (s : State) (c : Nat) (f : Ctx → Ctx) : (s.modCtx c f).reductions = s.reductions := rfl
@[simp] theorem State.modCtx_records (s : State) (c : Nat) (f : Ctx → Ctx) : (s.modCtx c f).records = s.records := rfl
@[simp] theorem State.modCtx_peerFaults (s : State) (c : Nat) (f : Ctx → Ctx) : (s.modCtx c f).peerFaults = s.peerFaults := rfl
@[simp] theorem State.modCtx_peerAsks (s : State) (c : Nat) (f : Ctx → Ctx) : (s.modCtx c f).peerAsks = s.peerAsks := rfl
@[simp] theorem State.modCtx_far (s : State) (c : Nat) (f : Ctx → Ctx) : (s.modCtx c f).far = s.far := rfl
@[simp] theorem State.modCtx_rgroups (s : State) (c : Nat) (f : Ctx → Ctx) : (s.modCtx c f).rgroups = s.rgroups := rfl
@[simp] theorem State.modCtx_pageCounts (s : State) (c : Nat) (f : Ctx → Ctx) : (s.modCtx c f).pageCounts = s.pageCounts := rfl
@[simp] theorem State.modCtx_submit (s : State) (c : Nat) (f : Ctx → Ctx) : (s.modCtx c f).submit = s.submit := rfl
@[simp] theorem State.modCtx_invals (s : State) (c : Nat) (f : Ctx → Ctx) : (s.modCtx c f).invals = s.invals := rfl
@[simp] theorem State.modCtx_poison (s : State) (c : Nat) (f : Ctx → Ctx) : (s.modCtx c f).poison = s.poison := rfl
@[simp] theorem State.modCtx_spoils (s : State) (c : Nat) (f : Ctx → Ctx) : (s.modCtx c f).spoils = s.spoils := rfl
@[simp] theorem State.modCtx_samples (s : State) (c : Nat) (f : Ctx → Ctx) : (s.modCtx c f).samples = s.samples := rfl
@[simp] theorem State.modCtx_mem (s : State) (c : Nat) (f : Ctx → Ctx) : (s.modCtx c f).mem = s.mem := rfl
@[simp] theorem State.modCtx_host (s : State) (c : Nat) (f : Ctx → Ctx) : (s.modCtx c f).host = s.host := rfl
@[simp] theorem State.modCtx_chip (s : State) (c : Nat) (f : Ctx → Ctx) : (s.modCtx c f).chip = s.chip := rfl
@[simp] theorem State.modCtx_dev (s : State) (c : Nat) (f : Ctx → Ctx) : (s.modCtx c f).dev = s.dev := rfl
@[simp] theorem State.modCtx_events (s : State) (c : Nat) (f : Ctx → Ctx) : (s.modCtx c f).events = s.events := rfl
@[simp] theorem State.modCtx_out (s : State) (c : Nat) (f : Ctx → Ctx) : (s.modCtx c f).out = s.out := rfl
@[simp] theorem State.modCtx_free (s : State) (c : Nat) (f : Ctx → Ctx) : (s.modCtx c f).free = s.free := rfl
@[simp] theorem State.modCtx_nextId (s : State) (c : Nat) (f : Ctx → Ctx) : (s.modCtx c f).nextId = s.nextId := rfl

/-! modDie -/
@[simp] theorem State.modDie_st (s : State) (d : Nat) (f : DieRec → DieRec) : (s.modDie d f).st = s.st := rfl
@[simp] theorem State.modDie_gr (s : State) (d : Nat) (f : DieRec → DieRec) : (s.modDie d f).gr = s.gr := rfl
@[simp] theorem State.modDie_un (s : State) (d : Nat) (f : DieRec → DieRec) : (s.modDie d f).un = s.un := rfl
@[simp] theorem State.modDie_streams (s : State) (d : Nat) (f : DieRec → DieRec) : (s.modDie d f).streams = s.streams := rfl
@[simp] theorem State.modDie_groups (s : State) (d : Nat) (f : DieRec → DieRec) : (s.modDie d f).groups = s.groups := rfl
@[simp] theorem State.modDie_units (s : State) (d : Nat) (f : DieRec → DieRec) : (s.modDie d f).units = s.units := rfl
@[simp] theorem State.modDie_saved (s : State) (d : Nat) (f : DieRec → DieRec) : (s.modDie d f).saved = s.saved := rfl
@[simp] theorem State.modDie_overlays (s : State) (d : Nat) (f : DieRec → DieRec) : (s.modDie d f).overlays = s.overlays := rfl
@[simp] theorem State.modDie_tlb (s : State) (d : Nat) (f : DieRec → DieRec) : (s.modDie d f).tlb = s.tlb := rfl
@[simp] theorem State.modDie_l1 (s : State) (d : Nat) (f : DieRec → DieRec) : (s.modDie d f).l1 = s.l1 := rfl
@[simp] theorem State.modDie_lines (s : State) (d : Nat) (f : DieRec → DieRec) : (s.modDie d f).lines = s.lines := rfl
@[simp] theorem State.modDie_syncLines (s : State) (d : Nat) (f : DieRec → DieRec) : (s.modDie d f).syncLines = s.syncLines := rfl
@[simp] theorem State.modDie_cores (s : State) (d : Nat) (f : DieRec → DieRec) : (s.modDie d f).cores = s.cores := rfl
@[simp] theorem State.modDie_dies (s : State) (d : Nat) (f : DieRec → DieRec) : (s.modDie d f).dies = s.dies.map (fun x => if x.die = d then f x else x) := rfl
@[simp] theorem State.modDie_clusters (s : State) (d : Nat) (f : DieRec → DieRec) : (s.modDie d f).clusters = s.clusters := rfl
@[simp] theorem State.modDie_ctxs (s : State) (d : Nat) (f : DieRec → DieRec) : (s.modDie d f).ctxs = s.ctxs := rfl
@[simp] theorem State.modDie_launches (s : State) (d : Nat) (f : DieRec → DieRec) : (s.modDie d f).launches = s.launches := rfl
@[simp] theorem State.modDie_counters (s : State) (d : Nat) (f : DieRec → DieRec) : (s.modDie d f).counters = s.counters := rfl
@[simp] theorem State.modDie_cmds (s : State) (d : Nat) (f : DieRec → DieRec) : (s.modDie d f).cmds = s.cmds := rfl
@[simp] theorem State.modDie_stores (s : State) (d : Nat) (f : DieRec → DieRec) : (s.modDie d f).stores = s.stores := rfl
@[simp] theorem State.modDie_atomics (s : State) (d : Nat) (f : DieRec → DieRec) : (s.modDie d f).atomics = s.atomics := rfl
@[simp] theorem State.modDie_replies (s : State) (d : Nat) (f : DieRec → DieRec) : (s.modDie d f).replies = s.replies := rfl
@[simp] theorem State.modDie_requests (s : State) (d : Nat) (f : DieRec → DieRec) : (s.modDie d f).requests = s.requests := rfl
@[simp] theorem State.modDie_reductions (s : State) (d : Nat) (f : DieRec → DieRec) : (s.modDie d f).reductions = s.reductions := rfl
@[simp] theorem State.modDie_records (s : State) (d : Nat) (f : DieRec → DieRec) : (s.modDie d f).records = s.records := rfl
@[simp] theorem State.modDie_peerFaults (s : State) (d : Nat) (f : DieRec → DieRec) : (s.modDie d f).peerFaults = s.peerFaults := rfl
@[simp] theorem State.modDie_peerAsks (s : State) (d : Nat) (f : DieRec → DieRec) : (s.modDie d f).peerAsks = s.peerAsks := rfl
@[simp] theorem State.modDie_far (s : State) (d : Nat) (f : DieRec → DieRec) : (s.modDie d f).far = s.far := rfl
@[simp] theorem State.modDie_rgroups (s : State) (d : Nat) (f : DieRec → DieRec) : (s.modDie d f).rgroups = s.rgroups := rfl
@[simp] theorem State.modDie_pageCounts (s : State) (d : Nat) (f : DieRec → DieRec) : (s.modDie d f).pageCounts = s.pageCounts := rfl
@[simp] theorem State.modDie_submit (s : State) (d : Nat) (f : DieRec → DieRec) : (s.modDie d f).submit = s.submit := rfl
@[simp] theorem State.modDie_invals (s : State) (d : Nat) (f : DieRec → DieRec) : (s.modDie d f).invals = s.invals := rfl
@[simp] theorem State.modDie_poison (s : State) (d : Nat) (f : DieRec → DieRec) : (s.modDie d f).poison = s.poison := rfl
@[simp] theorem State.modDie_spoils (s : State) (d : Nat) (f : DieRec → DieRec) : (s.modDie d f).spoils = s.spoils := rfl
@[simp] theorem State.modDie_samples (s : State) (d : Nat) (f : DieRec → DieRec) : (s.modDie d f).samples = s.samples := rfl
@[simp] theorem State.modDie_mem (s : State) (d : Nat) (f : DieRec → DieRec) : (s.modDie d f).mem = s.mem := rfl
@[simp] theorem State.modDie_host (s : State) (d : Nat) (f : DieRec → DieRec) : (s.modDie d f).host = s.host := rfl
@[simp] theorem State.modDie_chip (s : State) (d : Nat) (f : DieRec → DieRec) : (s.modDie d f).chip = s.chip := rfl
@[simp] theorem State.modDie_dev (s : State) (d : Nat) (f : DieRec → DieRec) : (s.modDie d f).dev = s.dev := rfl
@[simp] theorem State.modDie_events (s : State) (d : Nat) (f : DieRec → DieRec) : (s.modDie d f).events = s.events := rfl
@[simp] theorem State.modDie_out (s : State) (d : Nat) (f : DieRec → DieRec) : (s.modDie d f).out = s.out := rfl
@[simp] theorem State.modDie_free (s : State) (d : Nat) (f : DieRec → DieRec) : (s.modDie d f).free = s.free := rfl
@[simp] theorem State.modDie_nextId (s : State) (d : Nat) (f : DieRec → DieRec) : (s.modDie d f).nextId = s.nextId := rfl

/-! modCore -/
@[simp] theorem State.modCore_st (s : State) (c : Nat) (f : CoreRec → CoreRec) : (s.modCore c f).st = s.st := rfl
@[simp] theorem State.modCore_gr (s : State) (c : Nat) (f : CoreRec → CoreRec) : (s.modCore c f).gr = s.gr := rfl
@[simp] theorem State.modCore_un (s : State) (c : Nat) (f : CoreRec → CoreRec) : (s.modCore c f).un = s.un := rfl
@[simp] theorem State.modCore_streams (s : State) (c : Nat) (f : CoreRec → CoreRec) : (s.modCore c f).streams = s.streams := rfl
@[simp] theorem State.modCore_groups (s : State) (c : Nat) (f : CoreRec → CoreRec) : (s.modCore c f).groups = s.groups := rfl
@[simp] theorem State.modCore_units (s : State) (c : Nat) (f : CoreRec → CoreRec) : (s.modCore c f).units = s.units := rfl
@[simp] theorem State.modCore_saved (s : State) (c : Nat) (f : CoreRec → CoreRec) : (s.modCore c f).saved = s.saved := rfl
@[simp] theorem State.modCore_overlays (s : State) (c : Nat) (f : CoreRec → CoreRec) : (s.modCore c f).overlays = s.overlays := rfl
@[simp] theorem State.modCore_tlb (s : State) (c : Nat) (f : CoreRec → CoreRec) : (s.modCore c f).tlb = s.tlb := rfl
@[simp] theorem State.modCore_l1 (s : State) (c : Nat) (f : CoreRec → CoreRec) : (s.modCore c f).l1 = s.l1 := rfl
@[simp] theorem State.modCore_lines (s : State) (c : Nat) (f : CoreRec → CoreRec) : (s.modCore c f).lines = s.lines := rfl
@[simp] theorem State.modCore_syncLines (s : State) (c : Nat) (f : CoreRec → CoreRec) : (s.modCore c f).syncLines = s.syncLines := rfl
@[simp] theorem State.modCore_cores (s : State) (c : Nat) (f : CoreRec → CoreRec) : (s.modCore c f).cores = s.cores.map (fun x => if x.core = c then f x else x) := rfl
@[simp] theorem State.modCore_dies (s : State) (c : Nat) (f : CoreRec → CoreRec) : (s.modCore c f).dies = s.dies := rfl
@[simp] theorem State.modCore_clusters (s : State) (c : Nat) (f : CoreRec → CoreRec) : (s.modCore c f).clusters = s.clusters := rfl
@[simp] theorem State.modCore_ctxs (s : State) (c : Nat) (f : CoreRec → CoreRec) : (s.modCore c f).ctxs = s.ctxs := rfl
@[simp] theorem State.modCore_launches (s : State) (c : Nat) (f : CoreRec → CoreRec) : (s.modCore c f).launches = s.launches := rfl
@[simp] theorem State.modCore_counters (s : State) (c : Nat) (f : CoreRec → CoreRec) : (s.modCore c f).counters = s.counters := rfl
@[simp] theorem State.modCore_cmds (s : State) (c : Nat) (f : CoreRec → CoreRec) : (s.modCore c f).cmds = s.cmds := rfl
@[simp] theorem State.modCore_stores (s : State) (c : Nat) (f : CoreRec → CoreRec) : (s.modCore c f).stores = s.stores := rfl
@[simp] theorem State.modCore_atomics (s : State) (c : Nat) (f : CoreRec → CoreRec) : (s.modCore c f).atomics = s.atomics := rfl
@[simp] theorem State.modCore_replies (s : State) (c : Nat) (f : CoreRec → CoreRec) : (s.modCore c f).replies = s.replies := rfl
@[simp] theorem State.modCore_requests (s : State) (c : Nat) (f : CoreRec → CoreRec) : (s.modCore c f).requests = s.requests := rfl
@[simp] theorem State.modCore_reductions (s : State) (c : Nat) (f : CoreRec → CoreRec) : (s.modCore c f).reductions = s.reductions := rfl
@[simp] theorem State.modCore_records (s : State) (c : Nat) (f : CoreRec → CoreRec) : (s.modCore c f).records = s.records := rfl
@[simp] theorem State.modCore_peerFaults (s : State) (c : Nat) (f : CoreRec → CoreRec) : (s.modCore c f).peerFaults = s.peerFaults := rfl
@[simp] theorem State.modCore_peerAsks (s : State) (c : Nat) (f : CoreRec → CoreRec) : (s.modCore c f).peerAsks = s.peerAsks := rfl
@[simp] theorem State.modCore_far (s : State) (c : Nat) (f : CoreRec → CoreRec) : (s.modCore c f).far = s.far := rfl
@[simp] theorem State.modCore_rgroups (s : State) (c : Nat) (f : CoreRec → CoreRec) : (s.modCore c f).rgroups = s.rgroups := rfl
@[simp] theorem State.modCore_pageCounts (s : State) (c : Nat) (f : CoreRec → CoreRec) : (s.modCore c f).pageCounts = s.pageCounts := rfl
@[simp] theorem State.modCore_submit (s : State) (c : Nat) (f : CoreRec → CoreRec) : (s.modCore c f).submit = s.submit := rfl
@[simp] theorem State.modCore_invals (s : State) (c : Nat) (f : CoreRec → CoreRec) : (s.modCore c f).invals = s.invals := rfl
@[simp] theorem State.modCore_poison (s : State) (c : Nat) (f : CoreRec → CoreRec) : (s.modCore c f).poison = s.poison := rfl
@[simp] theorem State.modCore_spoils (s : State) (c : Nat) (f : CoreRec → CoreRec) : (s.modCore c f).spoils = s.spoils := rfl
@[simp] theorem State.modCore_samples (s : State) (c : Nat) (f : CoreRec → CoreRec) : (s.modCore c f).samples = s.samples := rfl
@[simp] theorem State.modCore_mem (s : State) (c : Nat) (f : CoreRec → CoreRec) : (s.modCore c f).mem = s.mem := rfl
@[simp] theorem State.modCore_host (s : State) (c : Nat) (f : CoreRec → CoreRec) : (s.modCore c f).host = s.host := rfl
@[simp] theorem State.modCore_chip (s : State) (c : Nat) (f : CoreRec → CoreRec) : (s.modCore c f).chip = s.chip := rfl
@[simp] theorem State.modCore_dev (s : State) (c : Nat) (f : CoreRec → CoreRec) : (s.modCore c f).dev = s.dev := rfl
@[simp] theorem State.modCore_events (s : State) (c : Nat) (f : CoreRec → CoreRec) : (s.modCore c f).events = s.events := rfl
@[simp] theorem State.modCore_out (s : State) (c : Nat) (f : CoreRec → CoreRec) : (s.modCore c f).out = s.out := rfl
@[simp] theorem State.modCore_free (s : State) (c : Nat) (f : CoreRec → CoreRec) : (s.modCore c f).free = s.free := rfl
@[simp] theorem State.modCore_nextId (s : State) (c : Nat) (f : CoreRec → CoreRec) : (s.modCore c f).nextId = s.nextId := rfl

/-! modLaunch -/
@[simp] theorem State.modLaunch_st (s : State) (k : Nat) (f : Launch → Launch) : (s.modLaunch k f).st = s.st := rfl
@[simp] theorem State.modLaunch_gr (s : State) (k : Nat) (f : Launch → Launch) : (s.modLaunch k f).gr = s.gr := rfl
@[simp] theorem State.modLaunch_un (s : State) (k : Nat) (f : Launch → Launch) : (s.modLaunch k f).un = s.un := rfl
@[simp] theorem State.modLaunch_streams (s : State) (k : Nat) (f : Launch → Launch) : (s.modLaunch k f).streams = s.streams := rfl
@[simp] theorem State.modLaunch_groups (s : State) (k : Nat) (f : Launch → Launch) : (s.modLaunch k f).groups = s.groups := rfl
@[simp] theorem State.modLaunch_units (s : State) (k : Nat) (f : Launch → Launch) : (s.modLaunch k f).units = s.units := rfl
@[simp] theorem State.modLaunch_saved (s : State) (k : Nat) (f : Launch → Launch) : (s.modLaunch k f).saved = s.saved := rfl
@[simp] theorem State.modLaunch_overlays (s : State) (k : Nat) (f : Launch → Launch) : (s.modLaunch k f).overlays = s.overlays := rfl
@[simp] theorem State.modLaunch_tlb (s : State) (k : Nat) (f : Launch → Launch) : (s.modLaunch k f).tlb = s.tlb := rfl
@[simp] theorem State.modLaunch_l1 (s : State) (k : Nat) (f : Launch → Launch) : (s.modLaunch k f).l1 = s.l1 := rfl
@[simp] theorem State.modLaunch_lines (s : State) (k : Nat) (f : Launch → Launch) : (s.modLaunch k f).lines = s.lines := rfl
@[simp] theorem State.modLaunch_syncLines (s : State) (k : Nat) (f : Launch → Launch) : (s.modLaunch k f).syncLines = s.syncLines := rfl
@[simp] theorem State.modLaunch_cores (s : State) (k : Nat) (f : Launch → Launch) : (s.modLaunch k f).cores = s.cores := rfl
@[simp] theorem State.modLaunch_dies (s : State) (k : Nat) (f : Launch → Launch) : (s.modLaunch k f).dies = s.dies := rfl
@[simp] theorem State.modLaunch_clusters (s : State) (k : Nat) (f : Launch → Launch) : (s.modLaunch k f).clusters = s.clusters := rfl
@[simp] theorem State.modLaunch_ctxs (s : State) (k : Nat) (f : Launch → Launch) : (s.modLaunch k f).ctxs = s.ctxs := rfl
@[simp] theorem State.modLaunch_launches (s : State) (k : Nat) (f : Launch → Launch) : (s.modLaunch k f).launches = s.launches.map (fun x => if x.key = k then f x else x) := rfl
@[simp] theorem State.modLaunch_counters (s : State) (k : Nat) (f : Launch → Launch) : (s.modLaunch k f).counters = s.counters := rfl
@[simp] theorem State.modLaunch_cmds (s : State) (k : Nat) (f : Launch → Launch) : (s.modLaunch k f).cmds = s.cmds := rfl
@[simp] theorem State.modLaunch_stores (s : State) (k : Nat) (f : Launch → Launch) : (s.modLaunch k f).stores = s.stores := rfl
@[simp] theorem State.modLaunch_atomics (s : State) (k : Nat) (f : Launch → Launch) : (s.modLaunch k f).atomics = s.atomics := rfl
@[simp] theorem State.modLaunch_replies (s : State) (k : Nat) (f : Launch → Launch) : (s.modLaunch k f).replies = s.replies := rfl
@[simp] theorem State.modLaunch_requests (s : State) (k : Nat) (f : Launch → Launch) : (s.modLaunch k f).requests = s.requests := rfl
@[simp] theorem State.modLaunch_reductions (s : State) (k : Nat) (f : Launch → Launch) : (s.modLaunch k f).reductions = s.reductions := rfl
@[simp] theorem State.modLaunch_records (s : State) (k : Nat) (f : Launch → Launch) : (s.modLaunch k f).records = s.records := rfl
@[simp] theorem State.modLaunch_peerFaults (s : State) (k : Nat) (f : Launch → Launch) : (s.modLaunch k f).peerFaults = s.peerFaults := rfl
@[simp] theorem State.modLaunch_peerAsks (s : State) (k : Nat) (f : Launch → Launch) : (s.modLaunch k f).peerAsks = s.peerAsks := rfl
@[simp] theorem State.modLaunch_far (s : State) (k : Nat) (f : Launch → Launch) : (s.modLaunch k f).far = s.far := rfl
@[simp] theorem State.modLaunch_rgroups (s : State) (k : Nat) (f : Launch → Launch) : (s.modLaunch k f).rgroups = s.rgroups := rfl
@[simp] theorem State.modLaunch_pageCounts (s : State) (k : Nat) (f : Launch → Launch) : (s.modLaunch k f).pageCounts = s.pageCounts := rfl
@[simp] theorem State.modLaunch_submit (s : State) (k : Nat) (f : Launch → Launch) : (s.modLaunch k f).submit = s.submit := rfl
@[simp] theorem State.modLaunch_invals (s : State) (k : Nat) (f : Launch → Launch) : (s.modLaunch k f).invals = s.invals := rfl
@[simp] theorem State.modLaunch_poison (s : State) (k : Nat) (f : Launch → Launch) : (s.modLaunch k f).poison = s.poison := rfl
@[simp] theorem State.modLaunch_spoils (s : State) (k : Nat) (f : Launch → Launch) : (s.modLaunch k f).spoils = s.spoils := rfl
@[simp] theorem State.modLaunch_samples (s : State) (k : Nat) (f : Launch → Launch) : (s.modLaunch k f).samples = s.samples := rfl
@[simp] theorem State.modLaunch_mem (s : State) (k : Nat) (f : Launch → Launch) : (s.modLaunch k f).mem = s.mem := rfl
@[simp] theorem State.modLaunch_host (s : State) (k : Nat) (f : Launch → Launch) : (s.modLaunch k f).host = s.host := rfl
@[simp] theorem State.modLaunch_chip (s : State) (k : Nat) (f : Launch → Launch) : (s.modLaunch k f).chip = s.chip := rfl
@[simp] theorem State.modLaunch_dev (s : State) (k : Nat) (f : Launch → Launch) : (s.modLaunch k f).dev = s.dev := rfl
@[simp] theorem State.modLaunch_events (s : State) (k : Nat) (f : Launch → Launch) : (s.modLaunch k f).events = s.events := rfl
@[simp] theorem State.modLaunch_out (s : State) (k : Nat) (f : Launch → Launch) : (s.modLaunch k f).out = s.out := rfl
@[simp] theorem State.modLaunch_free (s : State) (k : Nat) (f : Launch → Launch) : (s.modLaunch k f).free = s.free := rfl
@[simp] theorem State.modLaunch_nextId (s : State) (k : Nat) (f : Launch → Launch) : (s.modLaunch k f).nextId = s.nextId := rfl

/-! modCmd -/
@[simp] theorem State.modCmd_st (s : State) (k : Nat) (f : Cmd → Cmd) : (s.modCmd k f).st = s.st := rfl
@[simp] theorem State.modCmd_gr (s : State) (k : Nat) (f : Cmd → Cmd) : (s.modCmd k f).gr = s.gr := rfl
@[simp] theorem State.modCmd_un (s : State) (k : Nat) (f : Cmd → Cmd) : (s.modCmd k f).un = s.un := rfl
@[simp] theorem State.modCmd_streams (s : State) (k : Nat) (f : Cmd → Cmd) : (s.modCmd k f).streams = s.streams := rfl
@[simp] theorem State.modCmd_groups (s : State) (k : Nat) (f : Cmd → Cmd) : (s.modCmd k f).groups = s.groups := rfl
@[simp] theorem State.modCmd_units (s : State) (k : Nat) (f : Cmd → Cmd) : (s.modCmd k f).units = s.units := rfl
@[simp] theorem State.modCmd_saved (s : State) (k : Nat) (f : Cmd → Cmd) : (s.modCmd k f).saved = s.saved := rfl
@[simp] theorem State.modCmd_overlays (s : State) (k : Nat) (f : Cmd → Cmd) : (s.modCmd k f).overlays = s.overlays := rfl
@[simp] theorem State.modCmd_tlb (s : State) (k : Nat) (f : Cmd → Cmd) : (s.modCmd k f).tlb = s.tlb := rfl
@[simp] theorem State.modCmd_l1 (s : State) (k : Nat) (f : Cmd → Cmd) : (s.modCmd k f).l1 = s.l1 := rfl
@[simp] theorem State.modCmd_lines (s : State) (k : Nat) (f : Cmd → Cmd) : (s.modCmd k f).lines = s.lines := rfl
@[simp] theorem State.modCmd_syncLines (s : State) (k : Nat) (f : Cmd → Cmd) : (s.modCmd k f).syncLines = s.syncLines := rfl
@[simp] theorem State.modCmd_cores (s : State) (k : Nat) (f : Cmd → Cmd) : (s.modCmd k f).cores = s.cores := rfl
@[simp] theorem State.modCmd_dies (s : State) (k : Nat) (f : Cmd → Cmd) : (s.modCmd k f).dies = s.dies := rfl
@[simp] theorem State.modCmd_clusters (s : State) (k : Nat) (f : Cmd → Cmd) : (s.modCmd k f).clusters = s.clusters := rfl
@[simp] theorem State.modCmd_ctxs (s : State) (k : Nat) (f : Cmd → Cmd) : (s.modCmd k f).ctxs = s.ctxs := rfl
@[simp] theorem State.modCmd_launches (s : State) (k : Nat) (f : Cmd → Cmd) : (s.modCmd k f).launches = s.launches := rfl
@[simp] theorem State.modCmd_counters (s : State) (k : Nat) (f : Cmd → Cmd) : (s.modCmd k f).counters = s.counters := rfl
@[simp] theorem State.modCmd_cmds (s : State) (k : Nat) (f : Cmd → Cmd) : (s.modCmd k f).cmds = s.cmds.map (fun c => if c.id = k then f c else c) := rfl
@[simp] theorem State.modCmd_stores (s : State) (k : Nat) (f : Cmd → Cmd) : (s.modCmd k f).stores = s.stores := rfl
@[simp] theorem State.modCmd_atomics (s : State) (k : Nat) (f : Cmd → Cmd) : (s.modCmd k f).atomics = s.atomics := rfl
@[simp] theorem State.modCmd_replies (s : State) (k : Nat) (f : Cmd → Cmd) : (s.modCmd k f).replies = s.replies := rfl
@[simp] theorem State.modCmd_requests (s : State) (k : Nat) (f : Cmd → Cmd) : (s.modCmd k f).requests = s.requests := rfl
@[simp] theorem State.modCmd_reductions (s : State) (k : Nat) (f : Cmd → Cmd) : (s.modCmd k f).reductions = s.reductions := rfl
@[simp] theorem State.modCmd_records (s : State) (k : Nat) (f : Cmd → Cmd) : (s.modCmd k f).records = s.records := rfl
@[simp] theorem State.modCmd_peerFaults (s : State) (k : Nat) (f : Cmd → Cmd) : (s.modCmd k f).peerFaults = s.peerFaults := rfl
@[simp] theorem State.modCmd_peerAsks (s : State) (k : Nat) (f : Cmd → Cmd) : (s.modCmd k f).peerAsks = s.peerAsks := rfl
@[simp] theorem State.modCmd_far (s : State) (k : Nat) (f : Cmd → Cmd) : (s.modCmd k f).far = s.far := rfl
@[simp] theorem State.modCmd_rgroups (s : State) (k : Nat) (f : Cmd → Cmd) : (s.modCmd k f).rgroups = s.rgroups := rfl
@[simp] theorem State.modCmd_pageCounts (s : State) (k : Nat) (f : Cmd → Cmd) : (s.modCmd k f).pageCounts = s.pageCounts := rfl
@[simp] theorem State.modCmd_submit (s : State) (k : Nat) (f : Cmd → Cmd) : (s.modCmd k f).submit = s.submit := rfl
@[simp] theorem State.modCmd_invals (s : State) (k : Nat) (f : Cmd → Cmd) : (s.modCmd k f).invals = s.invals := rfl
@[simp] theorem State.modCmd_poison (s : State) (k : Nat) (f : Cmd → Cmd) : (s.modCmd k f).poison = s.poison := rfl
@[simp] theorem State.modCmd_spoils (s : State) (k : Nat) (f : Cmd → Cmd) : (s.modCmd k f).spoils = s.spoils := rfl
@[simp] theorem State.modCmd_samples (s : State) (k : Nat) (f : Cmd → Cmd) : (s.modCmd k f).samples = s.samples := rfl
@[simp] theorem State.modCmd_mem (s : State) (k : Nat) (f : Cmd → Cmd) : (s.modCmd k f).mem = s.mem := rfl
@[simp] theorem State.modCmd_host (s : State) (k : Nat) (f : Cmd → Cmd) : (s.modCmd k f).host = s.host := rfl
@[simp] theorem State.modCmd_chip (s : State) (k : Nat) (f : Cmd → Cmd) : (s.modCmd k f).chip = s.chip := rfl
@[simp] theorem State.modCmd_dev (s : State) (k : Nat) (f : Cmd → Cmd) : (s.modCmd k f).dev = s.dev := rfl
@[simp] theorem State.modCmd_events (s : State) (k : Nat) (f : Cmd → Cmd) : (s.modCmd k f).events = s.events := rfl
@[simp] theorem State.modCmd_out (s : State) (k : Nat) (f : Cmd → Cmd) : (s.modCmd k f).out = s.out := rfl
@[simp] theorem State.modCmd_free (s : State) (k : Nat) (f : Cmd → Cmd) : (s.modCmd k f).free = s.free := rfl
@[simp] theorem State.modCmd_nextId (s : State) (k : Nat) (f : Cmd → Cmd) : (s.modCmd k f).nextId = s.nextId := rfl

/-! useFree -/
@[simp] theorem State.useFree_st (s : State) (n : Nat) : (s.useFree n).st = s.st := rfl
@[simp] theorem State.useFree_gr (s : State) (n : Nat) : (s.useFree n).gr = s.gr := rfl
@[simp] theorem State.useFree_un (s : State) (n : Nat) : (s.useFree n).un = s.un := rfl
@[simp] theorem State.useFree_streams (s : State) (n : Nat) : (s.useFree n).streams = s.streams := rfl
@[simp] theorem State.useFree_groups (s : State) (n : Nat) : (s.useFree n).groups = s.groups := rfl
@[simp] theorem State.useFree_units (s : State) (n : Nat) : (s.useFree n).units = s.units := rfl
@[simp] theorem State.useFree_saved (s : State) (n : Nat) : (s.useFree n).saved = s.saved := rfl
@[simp] theorem State.useFree_overlays (s : State) (n : Nat) : (s.useFree n).overlays = s.overlays := rfl
@[simp] theorem State.useFree_tlb (s : State) (n : Nat) : (s.useFree n).tlb = s.tlb := rfl
@[simp] theorem State.useFree_l1 (s : State) (n : Nat) : (s.useFree n).l1 = s.l1 := rfl
@[simp] theorem State.useFree_lines (s : State) (n : Nat) : (s.useFree n).lines = s.lines := rfl
@[simp] theorem State.useFree_syncLines (s : State) (n : Nat) : (s.useFree n).syncLines = s.syncLines := rfl
@[simp] theorem State.useFree_cores (s : State) (n : Nat) : (s.useFree n).cores = s.cores := rfl
@[simp] theorem State.useFree_dies (s : State) (n : Nat) : (s.useFree n).dies = s.dies := rfl
@[simp] theorem State.useFree_clusters (s : State) (n : Nat) : (s.useFree n).clusters = s.clusters := rfl
@[simp] theorem State.useFree_ctxs (s : State) (n : Nat) : (s.useFree n).ctxs = s.ctxs := rfl
@[simp] theorem State.useFree_launches (s : State) (n : Nat) : (s.useFree n).launches = s.launches := rfl
@[simp] theorem State.useFree_counters (s : State) (n : Nat) : (s.useFree n).counters = s.counters := rfl
@[simp] theorem State.useFree_cmds (s : State) (n : Nat) : (s.useFree n).cmds = s.cmds := rfl
@[simp] theorem State.useFree_stores (s : State) (n : Nat) : (s.useFree n).stores = s.stores := rfl
@[simp] theorem State.useFree_atomics (s : State) (n : Nat) : (s.useFree n).atomics = s.atomics := rfl
@[simp] theorem State.useFree_replies (s : State) (n : Nat) : (s.useFree n).replies = s.replies := rfl
@[simp] theorem State.useFree_requests (s : State) (n : Nat) : (s.useFree n).requests = s.requests := rfl
@[simp] theorem State.useFree_reductions (s : State) (n : Nat) : (s.useFree n).reductions = s.reductions := rfl
@[simp] theorem State.useFree_records (s : State) (n : Nat) : (s.useFree n).records = s.records := rfl
@[simp] theorem State.useFree_peerFaults (s : State) (n : Nat) : (s.useFree n).peerFaults = s.peerFaults := rfl
@[simp] theorem State.useFree_peerAsks (s : State) (n : Nat) : (s.useFree n).peerAsks = s.peerAsks := rfl
@[simp] theorem State.useFree_far (s : State) (n : Nat) : (s.useFree n).far = s.far := rfl
@[simp] theorem State.useFree_rgroups (s : State) (n : Nat) : (s.useFree n).rgroups = s.rgroups := rfl
@[simp] theorem State.useFree_pageCounts (s : State) (n : Nat) : (s.useFree n).pageCounts = s.pageCounts := rfl
@[simp] theorem State.useFree_submit (s : State) (n : Nat) : (s.useFree n).submit = s.submit := rfl
@[simp] theorem State.useFree_invals (s : State) (n : Nat) : (s.useFree n).invals = s.invals := rfl
@[simp] theorem State.useFree_poison (s : State) (n : Nat) : (s.useFree n).poison = s.poison := rfl
@[simp] theorem State.useFree_spoils (s : State) (n : Nat) : (s.useFree n).spoils = s.spoils := rfl
@[simp] theorem State.useFree_samples (s : State) (n : Nat) : (s.useFree n).samples = s.samples := rfl
@[simp] theorem State.useFree_mem (s : State) (n : Nat) : (s.useFree n).mem = s.mem := rfl
@[simp] theorem State.useFree_host (s : State) (n : Nat) : (s.useFree n).host = s.host := rfl
@[simp] theorem State.useFree_chip (s : State) (n : Nat) : (s.useFree n).chip = s.chip := rfl
@[simp] theorem State.useFree_dev (s : State) (n : Nat) : (s.useFree n).dev = s.dev := rfl
@[simp] theorem State.useFree_events (s : State) (n : Nat) : (s.useFree n).events = s.events := rfl
@[simp] theorem State.useFree_out (s : State) (n : Nat) : (s.useFree n).out = s.out := rfl
@[simp] theorem State.useFree_free (s : State) (n : Nat) : (s.useFree n).free = s.free + n := rfl
@[simp] theorem State.useFree_nextId (s : State) (n : Nat) : (s.useFree n).nextId = s.nextId := rfl

/-! dropL1 -/
@[simp] theorem State.dropL1_st (s : State) (c : Nat) : (s.dropL1 c).st = s.st := rfl
@[simp] theorem State.dropL1_gr (s : State) (c : Nat) : (s.dropL1 c).gr = s.gr := rfl
@[simp] theorem State.dropL1_un (s : State) (c : Nat) : (s.dropL1 c).un = s.un := rfl
@[simp] theorem State.dropL1_streams (s : State) (c : Nat) : (s.dropL1 c).streams = s.streams := rfl
@[simp] theorem State.dropL1_groups (s : State) (c : Nat) : (s.dropL1 c).groups = s.groups := rfl
@[simp] theorem State.dropL1_units (s : State) (c : Nat) : (s.dropL1 c).units = s.units := rfl
@[simp] theorem State.dropL1_saved (s : State) (c : Nat) : (s.dropL1 c).saved = s.saved := rfl
@[simp] theorem State.dropL1_overlays (s : State) (c : Nat) : (s.dropL1 c).overlays = s.overlays := rfl
@[simp] theorem State.dropL1_tlb (s : State) (c : Nat) : (s.dropL1 c).tlb = s.tlb := rfl
@[simp] theorem State.dropL1_l1 (s : State) (c : Nat) : (s.dropL1 c).l1 = s.l1.filter (fun x => x.core != c) := rfl
@[simp] theorem State.dropL1_lines (s : State) (c : Nat) : (s.dropL1 c).lines = s.lines := rfl
@[simp] theorem State.dropL1_syncLines (s : State) (c : Nat) : (s.dropL1 c).syncLines = s.syncLines := rfl
@[simp] theorem State.dropL1_cores (s : State) (c : Nat) : (s.dropL1 c).cores = s.cores := rfl
@[simp] theorem State.dropL1_dies (s : State) (c : Nat) : (s.dropL1 c).dies = s.dies := rfl
@[simp] theorem State.dropL1_clusters (s : State) (c : Nat) : (s.dropL1 c).clusters = s.clusters := rfl
@[simp] theorem State.dropL1_ctxs (s : State) (c : Nat) : (s.dropL1 c).ctxs = s.ctxs := rfl
@[simp] theorem State.dropL1_launches (s : State) (c : Nat) : (s.dropL1 c).launches = s.launches := rfl
@[simp] theorem State.dropL1_counters (s : State) (c : Nat) : (s.dropL1 c).counters = s.counters := rfl
@[simp] theorem State.dropL1_cmds (s : State) (c : Nat) : (s.dropL1 c).cmds = s.cmds := rfl
@[simp] theorem State.dropL1_stores (s : State) (c : Nat) : (s.dropL1 c).stores = s.stores := rfl
@[simp] theorem State.dropL1_atomics (s : State) (c : Nat) : (s.dropL1 c).atomics = s.atomics := rfl
@[simp] theorem State.dropL1_replies (s : State) (c : Nat) : (s.dropL1 c).replies = s.replies := rfl
@[simp] theorem State.dropL1_requests (s : State) (c : Nat) : (s.dropL1 c).requests = s.requests := rfl
@[simp] theorem State.dropL1_reductions (s : State) (c : Nat) : (s.dropL1 c).reductions = s.reductions := rfl
@[simp] theorem State.dropL1_records (s : State) (c : Nat) : (s.dropL1 c).records = s.records := rfl
@[simp] theorem State.dropL1_peerFaults (s : State) (c : Nat) : (s.dropL1 c).peerFaults = s.peerFaults := rfl
@[simp] theorem State.dropL1_peerAsks (s : State) (c : Nat) : (s.dropL1 c).peerAsks = s.peerAsks := rfl
@[simp] theorem State.dropL1_far (s : State) (c : Nat) : (s.dropL1 c).far = s.far := rfl
@[simp] theorem State.dropL1_rgroups (s : State) (c : Nat) : (s.dropL1 c).rgroups = s.rgroups := rfl
@[simp] theorem State.dropL1_pageCounts (s : State) (c : Nat) : (s.dropL1 c).pageCounts = s.pageCounts := rfl
@[simp] theorem State.dropL1_submit (s : State) (c : Nat) : (s.dropL1 c).submit = s.submit := rfl
@[simp] theorem State.dropL1_invals (s : State) (c : Nat) : (s.dropL1 c).invals = s.invals := rfl
@[simp] theorem State.dropL1_poison (s : State) (c : Nat) : (s.dropL1 c).poison = s.poison := rfl
@[simp] theorem State.dropL1_spoils (s : State) (c : Nat) : (s.dropL1 c).spoils = s.spoils := rfl
@[simp] theorem State.dropL1_samples (s : State) (c : Nat) : (s.dropL1 c).samples = s.samples := rfl
@[simp] theorem State.dropL1_mem (s : State) (c : Nat) : (s.dropL1 c).mem = s.mem := rfl
@[simp] theorem State.dropL1_host (s : State) (c : Nat) : (s.dropL1 c).host = s.host := rfl
@[simp] theorem State.dropL1_chip (s : State) (c : Nat) : (s.dropL1 c).chip = s.chip := rfl
@[simp] theorem State.dropL1_dev (s : State) (c : Nat) : (s.dropL1 c).dev = s.dev := rfl
@[simp] theorem State.dropL1_events (s : State) (c : Nat) : (s.dropL1 c).events = s.events := rfl
@[simp] theorem State.dropL1_out (s : State) (c : Nat) : (s.dropL1 c).out = s.out := rfl
@[simp] theorem State.dropL1_free (s : State) (c : Nat) : (s.dropL1 c).free = s.free := rfl
@[simp] theorem State.dropL1_nextId (s : State) (c : Nat) : (s.dropL1 c).nextId = s.nextId := rfl

/-! The accessors of a group's lanes and of a stream's scalar registers. -/
@[simp] theorem State.setSreg_gr (s : State) (n : Nat) (v : Word) : (s.setSreg n v).gr = s.gr := by unfold State.setSreg; split <;> rfl
@[simp] theorem State.setSreg_mem (s : State) (n : Nat) (v : Word) : (s.setSreg n v).mem = s.mem := by unfold State.setSreg; split <;> rfl
@[simp] theorem State.setSreg_host (s : State) (n : Nat) (v : Word) : (s.setSreg n v).host = s.host := by unfold State.setSreg; split <;> rfl
@[simp] theorem State.mapLanes_st (s : State) (m : Mask) (f : Nat → Lane → Lane) : (s.mapLanes m f).st = s.st := rfl
@[simp] theorem State.mapLanes_mem (s : State) (m : Mask) (f : Nat → Lane → Lane) : (s.mapLanes m f).mem = s.mem := rfl
@[simp] theorem State.mapLanes_host (s : State) (m : Mask) (f : Nat → Lane → Lane) : (s.mapLanes m f).host = s.host := rfl
@[simp] theorem State.mapLanes_un (s : State) (m : Mask) (f : Nat → Lane → Lane) : (s.mapLanes m f).un = s.un := rfl
@[simp] theorem State.mapLanes_streams (s : State) (m : Mask) (f : Nat → Lane → Lane) : (s.mapLanes m f).streams = s.streams := rfl

end Sys2Proof.Machine
end

