-- ==== Sys2Proof/Laws/Operations.lean ====
section
/-!
SUPPORT. What each shared operation does, said once: the outcomes of an instruction, releases, the choice of the issuing stream, records found by their number, registers, and bytes of memory.
-/
namespace Sys2Proof.Machine

/-! ## Outcomes -/

theorem run_trap (s u : State) (c : Cause) (t : Mask) (hl : s.landed = true) (ho : s.owedBank = none) : s.run (.trap c t u) = .next (u.takeTrap c t [] TrapInfo.plain) := by
  simp [State.run, State.finish, hl, State.trapUnlessOwed, ho]
theorem runN_trap (s u : State) (c : Cause) (t : Mask) (hl : s.landed = true) (ho : s.owedBank = none) : s.runN (.trap c t u) = .next (u.takeTrap c t [] TrapInfo.plain) := by
  simp [State.runN, State.finish, hl, State.trapUnlessOwed, ho]
theorem run_trapRec (s u : State) (c : Cause) (t : Mask) (r : List (Nat × Word)) (hl : s.landed = true) (ho : s.owedBank = none) : s.run (.trapRec c t r u) = .next (u.takeTrap c t r TrapInfo.plain) := by
  simp [State.run, State.finish, hl, State.trapUnlessOwed, ho]
theorem run_trapWith (s u : State) (c : Cause) (t : Mask) (x : TrapInfo) (hl : s.landed = true) (ho : s.owedBank = none) : s.run (.trapWith c t x u) = .next (u.takeTrap c t [] x) := by
  simp [State.run, State.finish, hl, State.trapUnlessOwed, ho]
theorem run_hold (s u : State) (hl : s.landed = true) : s.run (.hold u) = .next u := by
  simp [State.run, State.finish, hl]
theorem runN_hold (s u : State) (hl : s.landed = true) : s.runN (.hold u) = .next u := by
  simp [State.runN, State.finish, hl]

/-- An instruction that moves its stream leaves the state that MovesTo describes. -/
theorem run_moved (s u : State) (hl : s.landed = true) (h : u.st.sid = s.st.sid) :
    s.run (.moved u) = .next { u with st := u.st.retire, cores := (u.countRetired s).cores } := by
  have e : s.run (.moved u) = .next { u with st := (if u.st.sid = s.st.sid then u.st.retire else u.st), cores := (u.countRetired s).cores } := by
    rw [State.run, if_pos hl]; rfl
  rw [e, if_pos h]

theorem runN_moved (s u : State) (hl : s.landed = true) (h : u.st.sid = s.st.sid) (h2 : u.st.retire.sid = s.st.sid) :
    s.runN (.moved u) = .next ({ u with st := u.st.retire, cores := (u.countRetired s).cores } : State).markRestart := by
  have e : u.settle s = { u with st := u.st.retire, cores := (u.countRetired s).cores } := by
    have e2 : u.settle s = { u with st := (if u.st.sid = s.st.sid then u.st.retire else u.st), cores := (u.countRetired s).cores } := rfl
    rw [e2, if_pos h]
  unfold State.runN State.finish
  simp only [e]
  simp [h2, hl]

/-! ## Releases and the issuing stream -/

theorem focus_self (s : State) : s.focus s.st.sid = s := by simp [State.focus]

theorem stream?_self (s : State) : s.stream? s.st.sid = some s.st := by simp [State.stream?, State.allStreams]

theorem group?_self (s : State) (h : s.gr.live = true) : s.group? s.gr.gid = some s.gr := by simp [State.group?, State.allGroups, h]

/-- With no quantum RED held there is nothing to send. -/
theorem flushHeld_idle (s : State) (h : s.st.held = []) : s.flushHeld s.st.sid = s := by
  unfold State.flushHeld
  simp [stream?_self, h]

/-- A release with nothing on its way goes on at once. -/
theorem released_quiet (s : State) (f : State → Verdict) (h : s.quiet) : s.released f = f s := by
  unfold State.released
  simp [flushHeld_idle s h.2, h.1]

theorem modStream_own (s : State) (f : Stream → Stream) (h : ∀ x ∈ s.streams, x.sid ≠ s.st.sid) : s.modStream s.st.sid f = s.modSt f := by
  have e : s.streams.map (fun x => if x.sid = s.st.sid then f x else x) = s.streams := by
    conv => rhs; rw [← List.map_id s.streams]
    exact List.map_congr_left (fun x hx => if_neg (h x hx))
  unfold State.modStream State.mapStreams State.modSt
  simp [e]

/-! ## Records found by their number -/

theorem find?_map_keep {α : Type} (k : α → Nat) (n : Nat) (f : α → α) (hf : ∀ x, k (f x) = k x) (l : List α) :
    (l.map (fun x => if k x = n then f x else x)).find? (fun x => k x == n) = (l.find? (fun x => k x == n)).map f := by
  induction l with
  | nil => rfl
  | cons a r ih =>
    by_cases h : k a = n
    · have h2 : k (f a) = n := (hf a).trans h
      simp [List.find?, h, h2]
    · have hb : (k a == n) = false := by simpa using h
      simp only [List.map_cons, h, if_false, List.find?, hb]
      exact ih

theorem dieRec_modDie (s : State) (d : Nat) (f : DieRec → DieRec) (hf : ∀ x, (f x).die = x.die) (r : DieRec) (h : s.dies.find? (fun x => x.die == d) = some r) :
    (s.modDie d f).dieRec d = f r := by
  unfold State.dieRec State.modDie
  simp [find?_map_keep (fun x : DieRec => x.die) d f hf, h]

theorem ctxRec_modCtx (s : State) (c : Nat) (f : Ctx → Ctx) (hf : ∀ x, (f x).ctx = x.ctx) : (s.modCtx c f).ctxRec c = (s.ctxRec c).map f := by
  unfold State.ctxRec State.modCtx
  exact find?_map_keep (fun x : Ctx => x.ctx) c f hf _

theorem cmd?_modCmd (s : State) (id : Nat) (f : Cmd → Cmd) (hf : ∀ x, (f x).id = x.id) : (s.modCmd id f).cmd? id = (s.cmd? id).map f := by
  unfold State.cmd? State.modCmd
  exact find?_map_keep (fun x : Cmd => x.id) id f hf _

/-! ## Registers -/

theorem sreg_setSreg (s : State) (n m : Nat) (v : Word) (hn : n < s.st.sregs.length) (h60 : n < 60) (hm : m < 60) :
    (s.setSreg n v).sreg m = if m = n then v else s.sreg m := by
  unfold State.setSreg State.sreg
  simp only [h60, hm, if_true]
  by_cases h : m = n
  · subst h; simp [List.getD, hn]
  · simp [List.getD, h, Ne.symm h]

theorem Lane.word_putWord (x : Lane) (allot a b : Nat) (v : Word) :
    (x.putWord allot a v).word allot b = if b % allot = a % allot then v else x.word allot b := by
  unfold Lane.putWord Lane.word Lane.putPos Lane.atPos
  exact sparseGet_put _ _ _ _ _

theorem Lane.putWord_window (x : Lane) (allot w : Nat) (v : Word) :
    (x.putWord allot w v).fb = x.fb ∧ (x.putWord allot w v).locals = x.locals ∧ (x.putWord allot w v).lowres = x.lowres ∧ (x.putWord allot w v).preds = x.preds :=
  ⟨rfl, rfl, rfl, rfl⟩

theorem Lane.setReg_window (x : Lane) (allot n : Nat) (v : Word) :
    (x.setReg allot n v).fb = x.fb ∧ (x.setReg allot n v).locals = x.locals ∧ (x.setReg allot n v).lowres = x.lowres ∧ (x.setReg allot n v).preds = x.preds := by
  unfold Lane.setReg
  split <;> exact ⟨rfl, rfl, rfl, rfl⟩

/-- Fields 56 to 63 discard what is written to them (R7). -/
theorem Lane.setReg_discard (x : Lane) (allot n : Nat) (v : Word) (h : 56 ≤ n) : x.setReg allot n v = x := by
  have e : x.winWord n = none := by
    unfold Lane.winWord
    rw [if_neg (by omega), if_neg (by omega)]
  simp [Lane.setReg, e]

theorem lane_mapLanes (s : State) (m : Mask) (f : Nat → Lane → Lane) (l : Nat) (h : l < s.gr.lanes.length) :
    (s.mapLanes m f).lane l = if m.has l then f l (s.lane l) else s.lane l := by
  simp [State.lane, State.mapLanes, List.getD, h]

/-! ## Lane sets -/

theorem Mask.mem_lanes (m : Mask) (l : Nat) : l ∈ m.lanes ↔ m.has l = true := by
  unfold Mask.lanes
  simp only [List.mem_filter, List.mem_range, and_iff_right_iff_imp]
  intro h
  by_contra hl
  rw [Mask.has, BitVec.getLsbD_of_ge m l (by omega)] at h
  exact Bool.noConfusion h

/-! ## Bytes of memory -/

/-- A byte put in HBM or host memory is read back, and every other byte there stays. -/
theorem byteAt_putByte (s : State) (l x : Loc) (v : Byte) (hl : l.plain 1) (hx : x.plain 1) :
    (s.putByte l v).byteAt x = if x = l then v else s.byteAt x := by
  cases l with
  | host a =>
    cases x with
    | host b => simp [State.putByte, State.byteAt, Memory.get_put]
    | dev b =>
      have hb : b < Config.hbmBytes := hx
      simp [State.putByte, State.byteAt, hb]
    | enc key b => exact hx.elim
  | dev a =>
    have ha : a < Config.hbmBytes := hl
    cases x with
    | host b => simp [State.putByte, State.byteAt, ha]
    | dev b =>
      have hb : b < Config.hbmBytes := hx
      simp [State.putByte, State.byteAt, ha, hb, Memory.get_put]
    | enc key b => exact hx.elim
  | enc key a => exact hl.elim

theorem plain_plus (l : Loc) (n i : Nat) (h : l.plain n) (hi : i < n) : (l.plus i).plain 1 := by
  cases l with
  | host a => trivial
  | dev a =>
    have h2 : a + n ≤ Config.hbmBytes := h
    show a + i + 1 ≤ Config.hbmBytes
    omega
  | enc key a => exact h.elim

theorem plus_inj (l : Loc) (i j : Nat) : l.plus i = l.plus j ↔ i = j := by
  cases l <;> simp [Loc.plus]

/-- Byte i of a value put stands at the i-th place, and no byte outside the n places changes. -/
theorem byteAt_putN (s : State) (l : Loc) (v n : Nat) (hl : l.plain n) :
    (∀ i, i < n → (s.putN l v n).byteAt (l.plus i) = byteOf v i) ∧ ∀ x : Loc, x.plain 1 → ¬ x.among l n → (s.putN l v n).byteAt x = s.byteAt x := by
  induction n with
  | zero => exact ⟨fun i hi => absurd hi (Nat.not_lt_zero i), fun _ _ _ => rfl⟩
  | succ k ih =>
    have hk : l.plain k := by
      cases l with
      | host a => trivial
      | dev a =>
        have h2 : a + (k + 1) ≤ Config.hbmBytes := hl
        show a + k ≤ Config.hbmBytes
        omega
      | enc key a => exact hl.elim
    have hlast := plain_plus l (k + 1) k hl (Nat.lt_succ_self k)
    refine ⟨fun i hi => ?_, fun x hx ho => ?_⟩
    · rw [State.putN, byteAt_putByte _ _ _ _ hlast (plain_plus l (k + 1) i hl hi)]
      by_cases h : i = k
      · simp [h]
      · rw [if_neg (fun e => h ((plus_inj l i k).1 e))]
        exact (ih hk).1 i (by omega)
    · rw [State.putN, byteAt_putByte _ _ _ _ hlast hx, if_neg (fun e => ho ⟨k, Nat.lt_succ_self k, e⟩)]
      exact (ih hk).2 x hx (fun ⟨i, hi, e⟩ => ho ⟨i, by omega, e⟩)

/-- A value put is read back, modulo its width. -/
theorem getN_putN (s : State) (l : Loc) (v n : Nat) (hl : l.plain n) : (s.putN l v n).getN l n = v % 2 ^ (8 * n) := by
  unfold State.getN
  rw [gatherLE_congr _ (byteOf v) n (fun i hi => (byteAt_putN s l v n hl).1 i hi)]
  exact byteOf_gather v n

/-- A byte put changes neither a stream nor a register: only memory, or the window that holds it. -/
theorem putByte_st (s : State) (l : Loc) (v : Byte) (hl : l.plain 1) : (s.putByte l v).st = s.st ∧ (s.putByte l v).gr = s.gr ∧ (s.putByte l v).un = s.un := by
  cases l with
  | host a => exact ⟨rfl, rfl, rfl⟩
  | dev a =>
    have ha : a < Config.hbmBytes := hl
    simp [State.putByte, ha]
  | enc key a => exact hl.elim

/-- Under one key a byte put is read back and no other byte changes (R392). -/
theorem byteAt_putByte_enc (s : State) (key a b : Nat) (v : Byte) :
    (s.putByte (.enc key a) v).byteAt (.enc key b) = if b = a then v else s.byteAt (.enc key b) := by
  simp only [State.putByte, State.byteAt, Memory.getEnc_putEnc]

theorem putChip_mem (s : State) (a : Nat) (c : ChipLoc) (v : Byte) : (s.putChip a c v).mem = s.mem ∧ (s.putChip a c v).host = s.host := by
  cases c <;> unfold State.putChip <;> dsimp only <;> split <;> first | exact ⟨rfl, rfl⟩ | (split <;> exact ⟨rfl, rfl⟩)

/-- Every write of a byte keeps the canonical form. -/
theorem putByte_memWf (s : State) (l : Loc) (v : Byte) (h : s.memWf) : (s.putByte l v).memWf := by
  cases l with
  | host a => exact ⟨h.1, Memory.wf_put _ _ _ h.2⟩
  | dev a =>
    unfold State.putByte State.memWf
    dsimp only
    split
    · exact ⟨Memory.wf_put _ _ _ h.1, h.2⟩
    · split
      · rw [(putChip_mem s a _ v).1, (putChip_mem s a _ v).2]
        exact h
      · exact h
  | enc key a =>
    have e : (s.putByte (.enc key a) v).mem = s.mem.putEnc key a v ∧ (s.putByte (.enc key a) v).host = s.host := ⟨by simp only [State.putByte], by simp only [State.putByte]⟩
    unfold State.memWf
    rw [e.1, e.2]
    exact ⟨Memory.wf_putEnc _ _ _ _ h.1, h.2⟩

theorem putN_memWf (s : State) (l : Loc) (v n : Nat) (h : s.memWf) : (s.putN l v n).memWf := by
  induction n with
  | zero => exact h
  | succ k ih => exact putByte_memWf _ _ _ ih

/-! ## Frames of memory -/

theorem sameMem_refl (s : State) : s.sameMem s := ⟨rfl, rfl⟩
theorem sameMem_trans (u t s : State) (a : u.sameMem t) (b : t.sameMem s) : u.sameMem s := ⟨a.1.trans b.1, a.2.trans b.2⟩

end Sys2Proof.Machine
end

