-- ==== Sys2Proof/Tests/Slice0.lean ====
section
/-!
SUPPORT. Tests: words computed from the encoding tables of the spec (R53, R54) and what they decode to; static well-formedness; single steps; and for each statement a state and operands that meet its hypotheses.
-/
namespace Sys2Proof.Tests
open Sys2Proof Sys2Proof.Machine

/-! One after the other: each of many theorems elaborated at once would have a stack of its own. -/
set_option Elab.async false

/-! Decoding: for each major opcode its words, with every field at a value of its own. -/

theorem test_decode_integer :
    [0x00000000, 0x02A51080, 0x02A51081, 0x02A51082, 0x02A51083, 0x02A51084, 0x02A51085, 0x02A51086, 0x02A51087, 0x04A51080, 0x04A51081, 0x04A51082,
     0x04A51083, 0x04A51084, 0x04A51085, 0x04A51086, 0x04A51087, 0x06A51080, 0x06A51081, 0x06A51082, 0x06A51083, 0x08A51080, 0x08A51081, 0x08A51082,
     0x08A51083, 0x08A51084, 0x08A51085, 0x08A51006, 0x08A51007, 0x0AA51000, 0x0AA51081, 0x0AA51082, 0x0AA51083].map decode =
      ([.nop, .iadd 5 10 8 16, .isub 5 10 8 16, .imin 5 10 8 16, .imax 5 10 8 16, .iminn 5 10 8 16, .imaxn 5 10 8 16, .iaddmn 5 10 8 16, .iabsd 5 10 8 16,
        .imul 5 10 8 16, .imulh 5 10 8 16, .imulhn 5 10 8 16, .imac 5 10 8 16, .idiv 5 10 8 16, .idivn 5 10 8 16, .irem 5 10 8 16, .iremn 5 10 8 16,
        .shl 5 10 8 16, .shr 5 10 8 16, .shra 5 10 8 16, .rotl 5 10 8 16, .and 5 10 8 16, .or 5 10 8 16, .xor 5 10 8 16, .andn 5 10 8 16, .orn 5 10 8 16,
        .xnor 5 10 8 16, .popc 5 10 8, .clz 5 10 8, .brev 5 10 8, .bfe 5 10 8 16, .bfen 5 10 8 16, .bfi 5 10 8 16] : List Instr).map .ok := by decide

theorem test_decode_immediates :
    [0x0CA51082, 0x0EA51082, 0x10A51082, 0x12A51082, 0x14A51082, 0x16A51002, 0x16A51042, 0x16A51082, 0x16A510C2, 0x18A53629, 0x1AA51000, 0x1AA51001,
     0x1AA50002, 0x1AA01083, 0x1AA50084].map decode =
      ([.iaddi 5 10 8 130, .imuli 5 10 8 130, .andi 5 10 8 130, .ori 5 10 8 130, .xori 5 10 8 130, .shli 5 10 8 2, .shri 5 10 8 2, .shrai 5 10 8 2,
        .rotli 5 10 8 2, .movi 5 10 13865, .mov 5 10 8, .movs 5 10 8, .movp 5 10, .pmov 5 8 16, .lsr 5 10 16] : List Instr).map .ok := by decide

theorem test_decode_predicates :
    [0x1CA99085, 0x1EA51000, 0x1EA51001, 0x1EA51002, 0x1EA51003, 0x1EA51004, 0x1EA50005, 0x1EA50006].map decode =
      ([.iset 5 1 3 8 16 5, .pand 5 10 8 0, .por 5 10 8 0, .pxor 5 10 8 0, .pandn 5 10 8 0, .pnot 5 10 8, .pset 5 10, .pclr 5 10] : List Instr).map .ok := by decide

theorem test_decode_floating :
    [0x20A51080, 0x20A51081, 0x20A51082, 0x20A51083, 0x20A51084, 0x20A51085, 0x20A51086, 0x20A51087, 0x22A99085].map decode =
      ([.fadd 5 10 8 16, .fsub 5 10 8 16, .fmul 5 10 8 16, .ffma 5 10 8 16, .fmin 5 10 8 16, .fmax 5 10 8 16, .faddmn 5 10 8 16, .fnfma 5 10 8 16,
        .fset 5 1 3 8 16 5] : List Instr).map .ok := by decide

theorem test_decode_halves_sfu_packs :
    [0x24A51080, 0x24A51081, 0x24A51082, 0x24A51083, 0x24A51084, 0x24A51085, 0x26A51000, 0x26A51001, 0x26A51002, 0x26A51003, 0x26A51004, 0x26A51005,
     0x26A51006, 0x26A51007, 0x28A510BA, 0x2AA51080, 0x2AA51001, 0x2AA51002, 0x2AA51083, 0x2AA51084, 0x2AA51085, 0x2AA51086].map decode =
      ([.hpadd 5 10 8 16, .hpsub 5 10 8 16, .hpmul 5 10 8 16, .hpfma 5 10 8 16, .hpmin 5 10 8 16, .hpmax 5 10 8 16, .frcp 5 10 8, .frsq 5 10 8, .fsqrt 5 10 8,
        .fex2 5 10 8, .flg2 5 10 8, .fsin 5 10 8, .fcos 5 10 8, .ftanh 5 10 8, .cvt 5 10 8 2 7 2, .pkh 5 10 8 16, .upkl 5 10 8, .upkh 5 10 8, .pkb 5 10 8 16,
        .upkb 5 10 8 16, .pkn 5 10 8 16, .upkn 5 10 8 16] : List Instr).map .ok := by decide

theorem test_decode_cross_lane :
    [0x2CA51080, 0x2CA51081, 0x2CA51082, 0x2CA51083, 0x2EA51000, 0x2EA51001, 0x2EA51002, 0x2EA51003, 0x30A51000, 0x30A51001, 0x30A51002, 0x30A51003,
     0x30A51004, 0x30A51005, 0x30A51086, 0x30A51007].map decode =
      ([.lpermAbs 5 10 8 16, .lpermBack 5 10 8 16, .lpermFwd 5 10 8 16, .lpermFlip 5 10 8 16, .lany 5 10 8, .lall 5 10 8, .lmask 5 10 8, .lsame 5 10 8,
        .rdxadd 5 10 8, .rdxmin 5 10 8, .rdxmax 5 10 8, .scanadd 5 10 8, .scanaddx 5 10 8, .rank 5 10 8, .count 5 10 8 16, .frdxadd 5 10 8] : List Instr).map .ok := by decide

theorem test_decode_memory :
    [0x32A61038, 0x34A61038, 0x36A61017, 0x36A61117, 0x38A61038, 0x3AA61038, 0x3CA61017, 0x3EA51017].map decode =
      ([.ld 5 12 8 0 7 0, .st 5 12 8 0 7 0, .lds 5 12 8 2 7, .sts 5 12 8 2 7, .atom 5 12 8 0 7 0, .red 5 12 8 0 7 0, .satom 5 12 8 2 7, .objcall 5 10 8 2 7] : List Instr).map .ok := by decide

theorem test_decode_control :
    [0x40A2B77C, 0x42A2B77C, 0x44A2B77C, 0x46A2B77C, 0x48A01000, 0x49A01000, 0x4AA00000, 0x4C000003, 0x4EA00000].map decode =
      ([.bra 5 178044, .brau 5 178044, .joinat 5 178044, .call 5 178044, .callr 5 8, .callrU 8, .ret 5, .frame 3, .exit 5] : List Instr).map .ok := by decide

theorem test_decode_barrier_frame_trap :
    [0x50A0007C, 0x50A000FC, 0x50A0017C, 0x52A52082, 0x52A53082, 0x54A0007C, 0x56A00001, 0x58A01000, 0x58A01001, 0x70000000, 0x7E02B483, 0x7F065228].map decode =
      ([.bsync 5 124, .barv 5 124, .bwait 5 124, .xld 5 10 1 130, .xst 5 10 1 130, .trap 5 124, .bkpt 5 1, .objret 5 8, .objretErr 5 8, .hint,
        .extImmediate 177283, .extOperand 1 4 1 0 1 552] : List Instr).map .ok := by decide

theorem test_decode_scalar :
    [0x80000000, 0x82A51080, 0x82A51081, 0x82A51082, 0x82A51083, 0x82A51084, 0x82A51085, 0x82A51086, 0x82A51087, 0x84A51080, 0x84A51081, 0x84A51082,
     0x84A51083, 0x84A51084, 0x84A51085, 0x84A51086, 0x84A51007].map decode =
      ([.snop, .sadd 5 10 8 16, .ssub 5 10 8 16, .smin 5 10 8 16, .smax 5 10 8 16, .sminn 5 10 8 16, .smaxn 5 10 8 16, .smul 5 10 8 16, .smulh 5 10 8 16,
        .sand 5 10 8 16, .sor 5 10 8 16, .sxor 5 10 8 16, .sandn 5 10 8 16, .sshl 5 10 8 16, .sshr 5 10 8 16, .sshra 5 10 8 16, .spopc 5 10 8] : List Instr).map .ok := by decide

theorem test_decode_scalar_moves :
    [0x86A51082, 0x88A53629, 0x8AA51000, 0x8AA51001, 0x8AA50012, 0x8AA50013, 0x8AA51084].map decode =
      ([.saddi 5 10 8 130, .smovi 5 10 13865, .smov 5 10 8, .smov64 5 10 8, .srd 5 10 2, .swr 5 10 2, .slane 5 10 8 16] : List Instr).map .ok := by decide

theorem test_decode_uniform_predicates :
    [0x8CA99085, 0x8EA51000, 0x8EA51001, 0x8EA51002, 0x8EA51003, 0x8EA51004, 0x8EA50005, 0x8EA50006].map decode =
      ([.sset 5 1 3 8 16 5, .qand 5 10 8 0, .qor 5 10 8 0, .qxor 5 10 8 0, .qandn 5 10 8 0, .qnot 5 10 8, .qset 5 10, .qclr 5 10] : List Instr).map .ok := by decide

theorem test_decode_uniform_memory :
    [0x90A2B77C, 0x92A2B77C, 0x94A61038, 0x96A61038, 0x98A21080, 0x9AB10000, 0x9CA0377C, 0x9EA01000, 0x9EA01001, 0xA0BF2080].map decode =
      ([.sbra 5 178044, .jseg 5 178044, .sld 5 12 8 0 7 0, .sst 5 12 8 0 7 0, .tbset 5 4 8 16, .fence 5 4 1 0, .fmtset 5 14204, .setix 5 0 8, .addix 5 0 8,
        .barinit 5 124 1 16] : List Instr).map .ok := by decide

theorem test_decode_copies_matrix :
    [0xA2A51000, 0xA2A51001, 0xA2A51002, 0xA2A51003, 0xA2A51004, 0xA2A51005, 0xA2A51006, 0xA4A50000, 0xA4A50001, 0xA6A01000, 0xA6A01001, 0xA8A51000,
     0xA8A51081, 0xA8A00002, 0xA8A0184B, 0xA8A5180C, 0xA8A61005, 0xA8A51006].map decode =
      ([.cpG2s 5 10 8, .cpS2g 5 10 8, .cpG2g 5 10 8, .cpGath 5 10 8, .cpReg 5 10 8, .cpAcc 5 10 8, .cpMma 5 10 8, .bfc 5 10, .bfm 5 10, .waitc 5 8,
        .waitm 5 8, .mma 5 10 8, .mmag 5 10 8 16, .mmaf 5, .accz 5 12 9, .accrd 5 10 12 1, .accrs 5 12 8, .mmv 5 10 8] : List Instr).map .ok := by decide

theorem test_decode_code_objects_launch :
    [0xAAA01000, 0xAAB01001, 0xACA51000, 0xACA01001, 0xACA00002, 0xAEA51000, 0xAEA51011, 0xAEA0100A, 0xAEA0100B, 0xAEA51014, 0xB0A51000, 0xB0A51001,
     0xB0A51002, 0xB2A0377C].map decode =
      ([.cfetch 5 8, .cinv 5 4 8, .objdef 5 10 8, .objdel 5 8, .objend 5, .launch 5 10 8, .cntinc 5 10 8 2, .cntwait 5 8 1, .cancel 5 8 1, .cntrd 5 10 8 2,
        .credSum 5 10 8, .credMax 5 10 8, .credMin 5 10 8, .syscall 5 14204] : List Instr).map .ok := by decide

theorem test_decode_system :
    [0xB4A51000, 0xB4A01081, 0xB4A01082, 0xB4A01083, 0xB4A01084, 0xB4A01005, 0xB6A00000, 0xB6A00001, 0xB6A00002, 0xB8A00000, 0xBAA01000].map decode =
      ([.walknext 5 10 8, .tlbfill 5 8 16, .tlbdone 5 8 16, .tlbinv 5 8 16, .atsreq 5 8 16, .prireq 5 8, .rft 5, .tkill 5, .tend 5, .yield 5, .jsegr 5 8] : List Instr).map .ok := by decide
/-! Static well-formedness: an ill-formed term for each check, refused; and a term at the limit, accepted. -/

theorem test_wf_refuses : ([.idiv 0 8 9 10, .iset 0 0 12 8 9 0, .fset 0 0 12 8 9 0, .sset 0 0 8 8 9 0, .pand 0 12 0 0, .por 0 0 13 0, .pxor 0 0 0 13,
    .pandn 0 15 0 0, .pnot 0 0 13, .pset 0 12, .pclr 0 12, .qand 0 8 0 0, .qor 0 0 9 0, .qxor 0 0 0 9, .qandn 0 15 0 0, .qnot 0 0 9, .qset 0 8, .qclr 0 8,
    .lsr 0 8 5, .cvt 0 8 9 0 0 5, .cvt 0 8 9 0 2 2, .lmask 0 9 8, .lmask 0 56 8, .ld 0 9 8 0 3 0, .st 0 10 8 0 4 0, .lds 0 8 8 7 0, .sts 0 56 8 3 0,
    .sld 0 9 8 0 3 0, .sst 0 8 8 0 7 0, .atom 0 8 8 0 1 5, .atom 0 9 8 0 7 0, .red 0 8 8 0 6 0, .satom 0 8 8 0 3, .joinat 1 0, .joinat 12 0,
    .callr 0 9, .callrU 56, .jsegr 0 9, .frame 6, .smov64 0 8 9, .tbset 0 0 9 8, .mmag 0 8 9 8, .accrs 0 0 9, .cfetch 0 9, .launch 0 8 9, .cinv 0 3 8,
    .cinv 0 0 9, .cpG2s 0 8 12, .cpMma 0 8 8, .mma 0 8 4, .mmv 0 8 4, .accrd 0 9 0 0, .accrd 0 56 0 0, .objdef 0 8 4, .objcall 0 8 55 9 0, .credSum 0 8 4,
    .walknext 0 8 10, .prireq 0 10, .tlbdone 0 10 8, .tlbfill 0 8 10, .atsreq 0 10 8, .tlbinv 0 10 8, .srd 0 8 0x00C, .srd 0 8 0x110, .swr 0 8 0x003,
    .swr 0 8 0x019] : List Instr).all (fun i => !i.wf) = true := by decide

theorem test_wf_accepts : ([.iset 0 3 11 63 63 7, .sset 0 3 7 63 63 7, .pand 0 11 12 12, .qand 0 7 8 8, .lsr 0 63 4, .cvt 0 63 63 7 7 1, .cvt 0 63 63 7 1 4,
    .lmask 0 54 63, .ld 0 54 63 7 3 7, .st 0 52 63 7 4 7, .atom 0 63 63 7 5 5, .atom 0 62 63 7 7 7, .red 0 63 63 7 5 7, .joinat 13 0, .frame 5,
    .cinv 0 2 54, .cpG2s 0 63 56, .cpMma 0 63 48, .accrd 0 48 15 7, .objcall 0 63 54 63 7, .prireq 0 52, .srd 0 63 0x00B, .srd 0 63 0x10F,
    .swr 0 63 0x01A, .swr 0 63 0x200] : List Instr).all Instr.wf = true := by decide

/-! Steps after reset with a word placed. -/

def base : State := State.reset.withFetchWord 32 0

/-- base with its stream, its group and its unit changed. -/
def mk (f : Stream → Stream) (g : Group → Group := id) (u : UnitRec → UnitRec := id) : State :=
  { base with st := f base.st, gr := g base.gr, un := u base.un }

/-- base with a prefix before the word. -/
def pre (x : Ext) : State := mk (fun t => { t with ext := some x })
/-- base with the prefix W64. -/
def preW : State := pre (.opnd 0 0 true false false 0)
/-- A word of zeros as the last word of its segment. -/
def edge : State := mk (fun t => { t with pc := 0xFFC, hdr := 0x10000000 })
/-- base with two lanes, whose predicate 0 is false and true. -/
def two : State :=
  mk (fun t => { t with exm := 3, base := 3 })
    (fun g => { g with alive := 3, lanes := g.lanes.set 1 { Lane.start with preds := 1 } }) (fun u => { u with threads := 2 })

theorem test_step_iaddi :
    (match step (State.reset.withFetchWord 32 0x0C00000A) with
      | .next u => decide (u.reg 0 0 = 10) && decide (u.dev.clock = 1)
      | _ => false) = true := by decide +kernel

/-! States and operands that meet the hypotheses of the statements, clause by clause. -/

theorem wit_RoundTrip : encode (.iadd 15 63 63 63) = some 0x03FFFFF8 ∧ (encode (.callr 13 4)).isSome = true ∧ (encode (.callr 15 4)).isSome = true ∧
    decode 0x03FFFFF8 = .ok (.iadd 15 63 63 63) ∧ decode 0x01FFFFFF = .ok .nop := by decide

theorem wit_ReservedMajors :
    ([0x5A000000, 0x6FFFFFFF, 0x78000000, 0x7DFFFFFF, 0xBC000000, 0xEFFFFFFF, 0xF8000000, 0xFDFFFFFF] : List Word).all (fun w =>
      let m := (w.extractLsb' 25 6).toNat
      decide ((w.getLsbD 31 = false ∧ ((0x2D ≤ m ∧ m ≤ 0x37) ∨ (0x3C ≤ m ∧ m ≤ 0x3E))) ∨
        (w.getLsbD 31 = true ∧ ((0x1E ≤ m ∧ m ≤ 0x37) ∨ (0x3C ≤ m ∧ m ≤ 0x3E))))) = true := by decide

theorem wit_StepRunsDecoded : base.dev.phase = .running ∧ base.events = [] ∧ base.dueWork.isNone = true ∧ base.mayIssue = true ∧
    base.chosen.map (·.sid) = some 1 ∧
    (let t := (base.focus 1).enterSlot
     t.st.wave.isNone = true ∧ t.st.edged = false ∧ t.st.status = .runnable ∧ t.st.pos ≠ 0 ∧ t.st.fresh = false ∧ t.breakpoints = 0 ∧
     t.codeWord t.st.pc = some 0 ∧ (t.barred 0).isNone = true ∧ (t.owedTo 0).isNone = true ∧ decode 0 = .ok .nop) := by decide +kernel

theorem wit_StepOrder : base.dev.phase ≠ .stopped ∧ ({ base with events := [.migrationWindowEnd] } : State).events = .migrationWindowEnd :: [] ∧
    ({ base with dev := { base.dev with phase := .stopped } } : State).dev.phase = .stopped := by decide

/-- The slot of the running segment is marked and another stands beside it. -/
def marked : State := { base with overlays := base.overlays.map (fun o => { o with marked := true }) }

theorem wit_MarkedSlotsPinned : marked.marksPinned ∧ marked.overlays.length = 1 ∧ ∃ s', step marked = .next s' := by
  refine ⟨?_, by decide, _, rfl⟩
  unfold State.marksPinned
  decide +kernel

theorem wit_RegisterWrites : ({ Lane.start with locals := 40 } : Lane).winWord 47 ≠ none ∧ Lane.start.winWord 0 ≠ none ∧ Lane.start.winWord 55 ≠ none ∧
    Lane.start.winWord 56 = none ∧ base.st.sregs.length = 60 := by decide

theorem wit_IntegerArithmetic :
    (base.wide = false ∧ base.goesOn = true ∧ base.beyondIn (base.active 0) [55, 7, 48] = 0) ∧
    (preW.wide = true ∧ isPair 54 = true ∧ isPair 0 = true ∧ preW.goesOn = true ∧ preW.beyondIn (preW.active 0) (pairFields 54 6 48) = 0) ∧
    (preW.wide = true ∧ (isPair 56 && isPair 0 && isPair 0) = false ∧ (isPair 0 && isPair 1 && isPair 0) = false) ∧
    (preW.wide = true ∧ (isPair 8 && isPair 0 && isPair 0) = true ∧ preW.beyondIn (preW.active 0) (pairFields 8 0 0) ≠ 0) ∧
    (base.wide = false ∧ base.beyondIn (base.active 0) [0, 47, 0] ≠ 0) := by decide

theorem wit_IntegerMultiply : base.extC = none ∧ (pre (.opnd 5 0 false false false 0)).extC = some 5 ∧ base.goesOn = true ∧
    base.beyondIn (base.active 0) [0, 7, 55] = 0 ∧ (pre (.opnd 5 0 false false false 0)).beyondIn 1 [0, 7, 55, 5] = 0 := by decide

theorem wit_Immediates : base.st.ext = none ∧ (pre (.imm 0xFFFFFF)).st.ext = some (.imm 0xFFFFFF) ∧ base.goesOn = true ∧ base.beyondIn (base.active 0) [7, 0] = 0 := by decide

theorem wit_Moves : base.goesOn = true ∧ base.beyondIn (base.active 0) [7] = 0 ∧ base.beyondIn (base.active 0) [0, 7] = 0 ∧ (4#6).toNat < 5 := by decide

theorem wit_LanePredicates : base.wide = false ∧ base.goesOn = true ∧ (11#4).toNat < 12 ∧ base.beyondIn (base.active 0) [0, 7] = 0 ∧
    preW.wide = true ∧ isPair 6 = true ∧ preW.goesOn = true ∧ preW.beyondIn (preW.active 0) [6, 7, 0, 1] = 0 ∧ (12#4).toNat < 13 := by decide

theorem wit_FloatArithmetic : base.extC = none ∧ (pre (.opnd 7 0 false false false 0)).extC = some 7 ∧ base.goesOn = true ∧
    base.beyondIn (base.active 0) [0, 7] = 0 ∧ f32 0x7F800001 = .nan ∧ f32 0xFFFFFFFF = .nan ∧ f32 0x80000000 ≠ .nan := by decide

def fmtOf (w : Word) : State := mk (fun t => { t with fmt := w })

theorem wit_HalvesAndPacks : (halfKind (fmtOf 0).st.fmt).isSome = true ∧ (byteKind (fmtOf 0).st.fmt).isSome = true ∧ (fmtOf 0).extC = none ∧
    (fmtOf 0).goesOn = true ∧ (fmtOf 0).beyondIn 1 [0, 7, 55] = 0 ∧ (4#3).toNat < 5 ∧ (1#3).toNat < 2 := by decide

theorem wit_CrossLane : two.goesOn = true ∧ two.active 1 = 2 ∧ two.beyondIn (two.active 0) [0, 7, 55] = 0 ∧ isPair 54 = true := by decide

theorem wit_LaneTraps : base.wide = false ∧ base.beyondIn (base.active 0) [8, 0, 0] ≠ 0 ∧ base.beyondIn (base.active 0) [0, 0, 47] ≠ 0 := by decide

theorem wit_EndOfSegment : base.goesOn = true ∧ edge.st.exm ≠ 0 ∧ hdrN edge.st.hdr ≤ edge.st.pos ∧ (edge.st.pc + 4).toNat % 4096 = 0 ∧ edge.st.status = .runnable := by decide

theorem wit_UniformArithmetic : base.wide = false ∧ base.goesOn = true ∧ base.uniGuard 0 = true ∧ base.uniGuard 1 = false ∧ preW.wide = true ∧ isPair 54 = true ∧
    isPair 56 = false ∧ (isPair 54 && isPair 55) = false := by decide

theorem wit_UniformPredicates : (7#4).toNat < 8 ∧ (8#4).toNat < 9 ∧ base.wide = false ∧ preW.wide = true ∧ isPair 54 = true ∧ base.goesOn = true := by decide

theorem wit_SpecialReads : base.srdValue 0x10F = .ok 0 ∧ base.srdValue 0x00C = .error .illegal ∧ (base.lane ((base.sreg 0).toNat % 64)).beyond 7 = false ∧
    ((mk (fun t => { t with sregs := t.sregs.set 0 8 })).lane 8).beyond 7 = false ∧ base.goesOn = true := by decide

def priv : State := mk (fun t => { t with privileged := true })

theorem wit_SpecialValues : base.st.isPriv = false ∧ priv.st.privileged = true := by decide

theorem wit_SpecialWrites : priv.st.privileged = true ∧ base.goesOn = true ∧ base.st.isPriv = false ∧
    (let s := mk (fun t => { t with sregs := t.sregs.set 3 1 })
     ((s.sreg 3 &&& s.st.membership.setWidth 32) ≠ 0 ∨ s.st.exm.extractLsb' 32 32 ≠ 0) ∧ (s.writeExm false 1).st.exm ≠ 0) ∧
    (base.st.exm.setWidth 32 ≠ 0 ∧ (base.writeExm true 0).st.exm ≠ 0) ∧ (0x1FF#12).toNat < 0x200 ∧ (0x1FF#12).toNat ≠ 0x01A ∧ 0x200 ≤ (0x200#12).toNat := by decide

/-- A clause of two words, at the first of them. -/
def first : State := mk (fun t => { t with hdr := 0x20000000 })

theorem wit_Prefix : ¬ (first.st.ext.isSome = true ∨ hdrN first.st.hdr ≤ first.st.pos ∨ ((first.codeWord (first.st.pc + 4)).getD 0).extractLsb' 25 6 = 0x3F) ∧
    ((pre (.imm 0)).st.ext.isSome = true) ∧ hdrN base.st.hdr ≤ base.st.pos := by decide

theorem plain_iff (l : Loc) (n : Nat) : l.plain n ↔ (match l with
    | .dev a => decide (a + n ≤ Config.hbmBytes)
    | .host _ => true
    | .enc _ _ => false) = true := by
  cases l <;> simp [Loc.plain]

/-- Two lanes, with offsets 0x10 and 0xFF0 in field 0 and data in fields 1 to 4; translation register 1 is bound to 4 KiB at VA 0x1000, physical 0x200000. -/
def mem2 : State :=
  ((two.modGr (fun g => { g with fa := 0x100000, da := 0x110000 })).mapLanes 3 (fun l x => x.setRegs 64 0 [BitVec.ofNat 32 (if l = 0 then 0x10 else 0xFF0), 0x11223344, 0x55667788, 0x99AABBCC, 0xDDEEFF00])).modSt
    (fun t => { t with tb := t.tb.set 1 ⟨true, 0x1000, 0x1000, 0x200000, 0x1000, ⟨true, true, true⟩, false, none⟩, sregs := [0xFF0, 0x12345678, 0x9ABCDEF0] ++ List.replicate 57 0 })

theorem wit_LoadIssue : mem2.goesOn = true ∧ mem2.isWave = false ∧ sizeBase 4 0 = true ∧ mem2.outstanding mem2.gr.coreId + 64 ≤ 1536 ∧
    mem2.active 0 = 3 ∧ mem2.beyondIn (mem2.active 0) (accessFields 0 0 (regsOf 4)) = 0 ∧ mem2.reaches (mem2.active 0) 1 0 (Machine.sizeOf 4) needR ∧
    mem2.uniGuard 0 = true ∧ mem2.uniGuard 1 = false ∧ mem2.reachesAt 1 ((mem2.sreg 0).toNat + mem2.disp) (Machine.sizeOf 4) needR := by
  unfold State.reaches State.reachesAt
  decide +kernel

/-- A load of the first lane and one of both lanes are outstanding. -/
def loading : State :=
  mem2.modSt (fun t => { t with loads := [⟨1, false, .dev 0x200000, [⟨0, .dev 0x200010, 4, false, false, mem2.laneWords 0 5 1⟩, ⟨1, .dev 0x200018, 2, true, false, mem2.laneWords 1 5 1⟩], true, some 3, none⟩,
      ⟨2, true, .dev 0x200000, [⟨0, .dev 0x200010, 16, false, false, scalarWords 58 4⟩], false, none, none⟩], flags := t.flags.set 3 1 })

theorem wit_LoadReturn : loading.st.loads.length = 2 ∧ loading.st.gid = loading.gr.gid ∧ (∀ r ∈ loading.st.loads, ∀ x ∈ r.reads, x.undef = false ∧ x.loc.plain x.size) := by
  simp only [plain_iff]
  decide +kernel

theorem wit_StoreIssue : mem2.goesOn = true ∧ mem2.isWave = false ∧ sizeBase 4 0 = true ∧ mem2.outstanding mem2.gr.coreId + 64 * 2 ≤ 1536 ∧ (∀ y ∈ mem2.stores, y.id < mem2.nextId) ∧ mem2.quiet ∧ mem2.active 0 ≠ 0 ∧
    mem2.beyondIn (mem2.active 0) (accessFields 0 0 (regsOf 4)) = 0 ∧ mem2.reaches (mem2.active 0) 1 0 (Machine.sizeOf 4) needW ∧
    (∀ l ∈ (mem2.active 0).lanes, mem2.inArea mem2.gr.ctx (mem2.accessVa 1 0 l) = false) ∧ mem2.uniGuard 0 = true ∧ mem2.uniGuard 1 = false ∧
    mem2.reachesAt 1 ((mem2.sreg 0).toNat + mem2.disp) (Machine.sizeOf 4) needW ∧ mem2.inArea mem2.gr.ctx ((mem2.tbReg 1).va + ((mem2.sreg 0).toNat + mem2.disp).toNat) = false := by
  unfold State.reaches State.reachesAt State.quiet
  decide +kernel

/-- A store of four bytes is on its way, its last byte the first one's again. -/
def storing : State := { mem2 with stores := [⟨7, 1, 1, [(.dev 0x200010, 1), (.host 5, 2), (.dev 0x2FFFFFFFFF, 0), (.dev 0x200010, 9)], some 3, none, 0⟩], mem := [⟨0x200010, 4⟩] }

theorem wit_StorePerforms : (storing.stores.find? (fun y => y.id == 7)).isSome = true ∧ (∀ x ∈ storing.stores, ∀ w ∈ x.writes, w.1.plain 1) ∧ storing.memWf ∧
    ∃ t, exec (.storePerform 7) storing = .next t := by
  refine ⟨by decide, ?_, ?_, _, rfl⟩
  · simp only [plain_iff]
    decide
  · unfold State.memWf
    decide

/-- mem2 with a scratchpad of 4 KiB in its unit. -/
def pad : State := mem2.modUn (fun u => { u with scratch := 0x1000, cores := [⟨0, 0, 0x400, [⟨0x10, 0x77⟩], [], []⟩] })

theorem wit_ScratchAccess : pad.goesOn = true ∧ sizeBase 4 0 = true ∧ pad.beyondIn (pad.active 0) (accessFields 0 0 (regsOf 4)) = 0 ∧
    (∀ l ∈ (pad.active 0).lanes, pad.scratchGood (pad.laneOff 0 l) 16 = true ∧ (pad.laneOff 0 l).toNat % 16 = 0) ∧
    (∀ l ∈ (pad.active 0).lanes, pad.unsettledLoc (pad.scratchLoc 0 (pad.laneOff 0 l).toNat) 16 = false) ∧ pad.quiet ∧
    pad.atomLegal false true 2 7 0 = true ∧ (pad.active 1).lanes = [1] ∧ pad.beyondIn (pad.active 1) (accessFields 2 0 (pad.atomRegs 7)) = 0 ∧
    pad.scratchAt (pad.laneOff 0 1) pad.atomSize = some (0, 0xFF0) ∧ pad.scratchGood (pad.laneOff 0 1) pad.atomSize = true ∧
    (pad.laneOff 0 1).toNat % pad.atomSize = 0 ∧ pad.unsettledLoc (pad.scratchLoc 0 0xFF0) pad.atomSize = false := by
  unfold State.quiet
  decide +kernel

/-- A quantum RED is held. -/
def holding : State := mem2.modSt (fun t => { t with held := [⟨⟨0, .dev 0x200010, 4, 0, 5, 0, false, false, [], false, false⟩, 0, []⟩], heldFlags := [2] })

theorem wit_AtomicIssue : mem2.goesOn = true ∧ mem2.outstanding mem2.gr.coreId + 64 ≤ 1536 ∧ mem2.quiet ∧ mem2.active 0 ≠ 0 ∧
    mem2.beyondIn (mem2.active 0) (accessFields 2 0 (mem2.atomRegs 7)) = 0 ∧ mem2.reaches (mem2.active 0) 1 0 mem2.atomSize needRW ∧
    mem2.atomLegal false false 2 7 7 = true ∧ mem2.atomLegal true false 2 5 7 = true ∧ mem2.atomLegal true false 2 0 4 = true ∧ mem2.st.held = [] ∧
    (mem2.active 1).lanes = [1] ∧ mem2.active 1 ≠ 0 ∧ mem2.beyondIn (mem2.active 1) (accessFields 2 0 (mem2.atomRegs 0)) = 0 ∧ mem2.reaches (mem2.active 1) 1 0 mem2.atomSize needRW ∧
    holding.st.held ≠ [] ∧ holding.goesOn = true ∧ (holding.active 0 ≠ 0) ∧ holding.reaches (holding.active 0) 1 0 holding.atomSize needRW := by
  unfold State.reaches State.reachesAt State.quiet
  decide +kernel

/-- An atomic of one lane on its way, and one of two lanes. -/
def atomics : State := { mem2 with mem := [⟨0x200010, 4⟩], atomics := [⟨7, 1, 1, 0, [⟨0, .dev 0x200010, 8, 0, 5, 0, false, false, mem2.laneWords 0 2 2, false, false⟩], [3], none, []⟩,
  ⟨8, 1, 1, 0, [⟨0, .dev 0x200010, 4, 0, 5, 0, false, false, [], false, false⟩, ⟨1, .host 0x10, 4, 1, 5, 0, false, false, [], false, false⟩], [], none, []⟩], nextId := 9 }

theorem wit_AtomicPerforms : (∀ x ∈ atomics.atomics, (atomics.atomics.find? (fun y => y.id == x.id)) = some x ∧ x.gid = atomics.gr.gid ∧ ∀ q ∈ x.ops, q.undef = false ∧ q.loc.plain q.size) ∧
    ¬ (Loc.dev 0x20001C).plain 0x3000000000000 ∧ ((4 : Nat) = 4 ∨ 4 = 8) := by
  simp only [plain_iff]
  decide +kernel

def tlbAll (core va : Nat) : TlbEntry := ⟨core, 1, 0, va, 0x200000, .dev va, ⟨true, true, false⟩⟩
/-- The page tables of context 1 map VA 0x1000 to physical 0x200000 for reads, writes and fetches. -/
def paged : State :=
  { mem2 with
    mem := [(0x10000, 0x11001), (0x11000, 0x12001), (0x12000, 0x13001), (0x13000, 0x14001), (0x14008, 0x20001D)].foldl (fun m e => Memory.putN m e.1 e.2 8) []
    ctxs := [{ Ctx.fresh 1 with root := 0x10000 }] }

theorem wit_BindAndFence : isPair 54 = true ∧ isPair 55 = false ∧ paged.walkVa 1 0x1FFF = .page 0x200000 0x1000 ⟨true, true, true⟩ false false false ∧
    mem2.goesOn = true ∧ mem2.uniGuard 1 = false ∧ mem2.uniGuard 0 = true ∧ mem2.st.held = [] ∧ mem2.owing = false ∧ (∀ c ∈ mem2.ownCopies, c.isOver = true) ∧
    mem2.st.loads = [] ∧ (0#2) ≠ 1 ∧ 2 ≤ (2#3).toNat ∧ mem2.unwalked 0x5000 = false ∧
    ({ mem2 with streams := [Stream.start 9 9 (.walker 0) 0 1] } : State).unwalked 0x5000 = true := by decide +kernel

/-- two with the address 0x40 in a scalar pair and in a pair of each lane, and room for a frame. -/
def jump : State :=
  ((two.modGr (fun g => { g with faw := 256, allot := 128 })).mapLanes 3 (fun _ x => x.setRegs 128 2 [0x40, 0])).modSt
    (fun t => { t with sregs := [0x40, 0] ++ t.sregs.drop 2 })
/-- jump where its word is not the last of its clause, with uniform predicate 0 true. -/
def inside : State := jump.modSt (fun t => { t with hdr := 0x30000000, q := 1 })
/-- jump in a callee at depth 1. -/
def called : State := (jump.mapLanes 3 (fun _ x => x.call 128 0x44)).modSt (fun t => { t with dep := 1 })

theorem wit_Branches : jump.goesOn = true ∧ jump.leaves (jump.target 4) = false ∧ jump.active 2 = 0 ∧ (jump.active 0 ≠ 0 ∧ jump.st.exm.minus (jump.active 0) = 0) ∧
    (jump.active 1 ≠ 0 ∧ jump.st.exm.minus (jump.active 1) ≠ 0) ∧ jump.roomOnChip ∧ 13 ≤ (13#4).toNat ∧ jump.uniGuard 0 = true ∧ jump.uniGuard 1 = false ∧
    (1 ≤ (1#4).toNat ∧ (12#4).toNat ≤ 12) ∧ jump.leaves (jump.target 0x400) = true ∧ jump.lastWord = true ∧ jump.segPresent (jump.target 4) = true ∧
    inside.lastWord = false ∧ isPair 0 = true ∧ (jump.sregPair 0).toNat % 4 = 0 ∧ jump.segPresent ((jump.sregPair 0).setWidth 57) = true := by
  unfold State.roomOnChip
  decide +kernel

theorem wit_Calls : jump.goesOn = true ∧ jump.lastWord = true ∧ jump.st.faults = [] ∧ jump.active 2 = 0 ∧ isPair 2 = true ∧ jump.active 0 = jump.st.exm ∧
    (∀ l ∈ jump.st.exm.lanes, (jump.lane l).callBase + 57 < jump.gr.faw ∧ (jump.lane l).callBase + 58 - jump.gr.allot ≤ (jump.lane l).lowres) ∧
    jump.segPresent (jump.target 4) = true ∧ jump.beyondIn jump.st.exm [2, 3] = 0 ∧
    (∀ l ∈ jump.st.exm.lanes, (jump.regPair l 2).toNat % 4 = 0 ∧ (jump.regPair l 2).setWidth 57 = (jump.regPair jump.st.exm.lowest 2).setWidth 57 ∧
      jump.segPresent ((jump.regPair l 2).setWidth 57) = true) ∧
    jump.active 1 ≠ 0 ∧ jump.active 1 ≠ jump.st.exm ∧ jump.roomOnChip := by
  unfold State.roomOnChip
  decide +kernel

theorem wit_LinkageRoundTrip : 2 ≤ 16 ∧ (40 : Nat) % 8 = 0 ∧ (40 : Nat) ≤ 40 ∧ (0 : Nat) % 8 = 0 := by decide

theorem wit_Returns : called.goesOn = true ∧ (5#3).toNat < 6 ∧ 6 ≤ (6#3).toNat ∧ called.active 2 = 0 ∧ called.active 0 = called.st.exm ∧ called.st.faults = [] ∧
    called.st.dep ≠ 0 ∧ called.st.privileged = false ∧ called.segPresent 0x44 = true ∧
    (∀ l ∈ called.st.exm.lanes, retAddr (called.retWords l) = 0x44 ∧ (called.retWords l).1.toNat % 4 = 0 ∧ retLocals (called.retWords l).2 ≤ 40 ∧
      10 + retLocals (called.retWords l).2 ≤ (called.lane l).fb ∧ (called.lane l).lowres ≤ (called.lane l).fb - 10 - retLocals (called.retWords l).2) := by
  decide +kernel

theorem wit_Exits : two.goesOn = true ∧ two.st.exm.minus (two.active 1) ≠ 0 ∧ two.st.exm.minus (two.active 0) = 0 ∧ two.st.kind = .home ∧ two.st.privileged = false ∧
    two.st.stack = [] ∧ two.st.below = [] ∧ two.st.held = [] ∧ two.st.base = two.st.exm ∧ two.gr.uid = two.un.uid ∧ two.gr.alive ≠ 0 ∧ two.gr.alive.minus two.st.exm = 0 := by
  decide +kernel

theorem wit_TrapInstructions : two.active 1 ≠ 0 ∧ two.goesOn = true ∧ two.active 2 = 0 ∧ two.st.isPriv = false := by decide +kernel

/-- jump with a handler at 0x200, a save block at VA 0x1000, and its banked registers set. -/
def isOk {e a : Type} : Except e a → Bool
  | .ok _ => true
  | .error _ => false
def armed : State :=
  ({ jump with mem := paged.mem, ctxs := paged.ctxs.map (fun (x : Ctx) => { x with handler := some 0x200 }), cores := [{ CoreRec.start 0 with sbase := 0x1000 }] } : State).modSt
    (fun t => { t with tb := t.tb.set 7 ⟨true, 0x5000, 0x20, 0, 0, ⟨true, true, true⟩, true, none⟩, q := 0xFF, ix := [1, 2, 3, 4], sregs := (List.range 60).map (BitVec.ofNat 32) })
/-- armed in its handler after a trap of some lanes, at the handler's second word. -/
def handling (m : Mask) : State := (armed.takeTrap .trapi m [] TrapInfo.plain).modSt (fun t => { t with status := .runnable, hdr := 0x10000000, pos := 1, pc := 0x204 })

theorem wit_HandlerEntry : (2 : Mask) ≠ 0 ∧ (Cause.trapi ≠ .segAbsent) ∧ armed.st.kind = .home ∧ armed.st.privileged = false ∧ armed.st.status = .runnable ∧ armed.st.cancelAt = none ∧ armed.owedBank = none ∧ armed.trapEntry .trapi armed.trapWord = some 0x200 ∧
    (∀ l ∈ (2 : Mask).lanes, (armed.lane l).fb + 18 + (armed.lane l).locals + 57 < armed.gr.faw ∧ (armed.lane l).fb + 18 + (armed.lane l).locals + 58 - armed.gr.allot ≤ (armed.lane l).lowres) ∧
    (match ((armed.trapNoted .trapi 2 []).trapTaken .trapi 2 TrapInfo.plain 0x200).putBlock armed.bankWords with
      | .ok b => b.segPresent 0x200
      | .error _ => false) = true := by decide +kernel

theorem wit_HandlerReturn : (handling 2).st.privileged = true ∧ (handling 2).uniGuard 0 = true ∧ (handling 2).quiet ∧ (handling 2).landed = true ∧ (handling 2).st.pathd = (handling 2).st.trap.hpathd ∧
    (handling 2).st.dep = (handling 2).st.trap.hdep ∧ (handling 2).st.trap.pc.toNat % 4 = 0 ∧
    (∀ l ∈ ((handling 2).st.trap.mask &&& (handling 2).gr.alive).lanes, ((handling 2).lane l).lowres ≤ ((handling 2).lane l).fb - 18 - ((handling 2).lane l).trapL) ∧
    isOk (handling 2).leaveHandler = true := by
  unfold State.quiet
  decide +kernel

theorem wit_HandlerEnds : (handling 3).st.privileged = true ∧ (handling 3).uniGuard 0 = true ∧ (handling 3).quiet ∧ (handling 3).landed = true ∧ (handling 3).st.kind = .home ∧
    (handling 3).st.gid = (handling 3).gr.gid ∧ (handling 3).st.sid ≠ 0 ∧ (handling 3).gr.alive ≠ 0 ∧ (handling 3).st.exm = (handling 3).gr.alive ∧
    (handling 3).st.base = (handling 3).gr.alive ∧ (handling 3).st.trap.mask = (handling 3).gr.alive ∧ (handling 3).st.stack = [] ∧ (handling 3).st.below = [] ∧
    (handling 3).st.trap.hpathd = 0 := by
  unfold State.quiet
  decide +kernel

/-- two in a unit with two barriers; barrier 1 as given. -/
def barred (b : Barrier) : State := two.modUn (fun u => { u with nb := 2, cores := u.cores.map (fun (c : UnitCore) => { c with bars := [⟨false, false, 0, 9⟩, b] }) })
/-- jump with windows at 30 and index registers. -/
def framed : State := (jump.mapLanes 3 (fun _ x => { x with fb := 30, locals := 16 })).modSt (fun t => { t with ix := [5, 0xFFFFFFFF, 0, 0] })

theorem wit_Barriers :
    (∀ b ∈ ([⟨true, true, 7, 9⟩, ⟨false, false, 0, 9⟩] : List Barrier), (barred b).goesOn = true ∧ (barred b).isWave = false ∧ 1 < (barred b).un.nb ∧
      (((barred b).un.cores[(barred b).gr.coreIndex]?).map (fun c => decide (1 < c.bars.length))) = some true ∧
      (barred b).st.status = .runnable ∧ (barred b).st.cancelAt = none ∧ (barred b).active 1 ≠ 0 ∧ (barred b).owing = false ∧ (barred b).st.held = [] ∧
      (barred b).st.woken = false ∧ (barred b).active 2 = 0 ∧ (barred b).uniGuard 0 = true) ∧
    (barred ⟨true, true, 7, 9⟩).phasePassed 1 = true ∧ (barred ⟨false, false, 0, 9⟩).phasePassed 1 = false := by decide +kernel

theorem wit_FrameWords : framed.goesOn = true ∧ framed.st.faults = [] ∧ framed.st.ext = none ∧
    (∀ k ∈ [0xFF0, 45], ∀ l ∈ (framed.active 0).lanes, (framed.lane l).beyond 8 = false ∧ framed.xwordBad 0 (BitVec.ofNat 12 k) (framed.lane l) = false ∧
      (framed.lane l).lowres ≤ (framed.xword 0 (BitVec.ofNat 12 k) (framed.lane l)).toNat) := by decide +kernel

/-- pad with four tiles, FMT bf16 by bf16, and words in its first scalar registers. -/
def engines (ws : List Word) : State :=
  (pad.modGr (fun g => { g with acc := 4, tiles := List.replicate 4 ⟨.empty, []⟩, cmdseq := 5, cbatch := 7, mbatch := 9 })).modSt
    (fun t => { t with fmt := 0x733, sregs := ws ++ List.replicate (60 - ws.length) 0 })
/-- A 64 by 64 by 32 product after a copy of nothing. -/
def engCopy : State := engines ([0, 0, 0, 0, 0, 0, 0, 0] ++ [0x10, 0, 0, 0, 0, 0, 0, 0])
def engReg : State := engines [0, 0, 0x40040, 0, 4]
def engAcc : State := engines [0, 0, 0, 0, 16384]
def engMma : State := engines [0x10]
def engCred : State := engines [0, 0, 0, 0, 0, 3]
/-- A batch of a conjugator. -/
def engWave : State := { engMma with st := { engMma.st with kind := .wave 0 } }

theorem wit_EngineCommands_copies : engCopy.goesOn = true ∧ engCopy.isWave = false ∧ engCopy.uniGuard 0 = true ∧ (0#6).toNat % 8 = 0 ∧
    (∀ f ∈ [0, 1, 2, 3, 6], engCopy.cpCheck f (engCopy.descr 0 8) = none) ∧ engReg.cpCheck 4 (engReg.descr 0 8) = none ∧ engAcc.cpCheck 5 (engAcc.descr 0 8) = none ∧
    engMma.mmaCheck (engMma.descr 0 8) = none ∧ credCheck (engCred.descr 0 8) = none ∧
    (let m := mmaDesc (engCopy.descr 8 8)
     m.joint = false ∧ m.areg = false ∧ m.check engCopy.st.fmt engCopy.gr.tiles.length engCopy.un engCopy.gr.coreIndex (engCopy.classAhead engCopy.gr) = none) := by
  decide +kernel

theorem wit_EngineCommands_matrix :
    (let m := mmvDesc (engMma.descr 0 8)
     fmtA engMma.st.fmt = 3 ∧ fmtB engMma.st.fmt = 3 ∧ m.aoff % 4 = 0 ∧ m.astr % 4 = 0 ∧ m.yoff % 4 = 0 ∧ m.ystr % 4 = 0 ∧ m.b % 4 = 0 ∧ m.b < 2 ^ 57 ∧
     engMma.un.holds engMma.gr.coreIndex m.aoff m.v m.astr (2 * m.k) = true ∧ engMma.un.holds engMma.gr.coreIndex m.yoff m.v m.ystr (4 * m.n) = true) ∧
    isPair 2 = true ∧ (engMma.sreg 4).toNat ≤ 4096 ∧ (engMma.sregPair 2).toNat % 32 = 0 ∧ (engMma.sregPair 2).toNat < 2 ^ 57 ∧
    (nativeK (fmtA engMma.st.fmt) (fmtB engMma.st.fmt)).isSome = true ∧ (0#4).toNat + (3#4).toNat + 1 ≤ engMma.gr.tiles.length ∧
    drainSuits (engMma.classAhead engMma.gr 3) (fmtDrain engMma.st.fmt) = true ∧ (48#6).toNat % 8 = 0 ∧ (48#6).toNat ≤ 48 ∧
    engMma.beyondIn engMma.st.exm ((List.range 8).map (48 + ·)) = 0 ∧
    (engMma.un.locate engMma.gr.coreIndex 0 (63 * 0 + 64 * drainSize (fmtDrain engMma.st.fmt))).isSome = true ∧ (engMma.sregPair 2).toNat % 4096 = 0 ∧
    engMma.fetchWaits (engMma.sregPair 2).toNat = false ∧ engMma.fetchCheck (engMma.sregPair 2).toNat = .absent false ∧ vaPair (engMma.sreg 2) (engMma.sreg 3) % 128 = 0 ∧ engMma.quiet ∧
    engMma.uniGuard 1 = false ∧ (48#6).toNat % 16 = 0 ∧ (48#6).toNat < 56 ∧ engWave.goesOn = true ∧ engWave.isWave = true := by
  unfold State.quiet
  decide +kernel

/-- A command of engMma's stream in a given state, in its first batch of copies or matrix commands, which is closed. -/
def ordered (k : CmdKind) (rg : List Word) (m : Bool) (st : CmdState) : State :=
  let s := (engines ((List.replicate 20 0) ++ [8, 10])).issueCmd k rg (!m) m (fun c => { c with state := st })
  { s with events := [], gr := { s.gr with cbatch := 8, mbatch := 10 } }

theorem wit_EngineBatches :
    (∀ st ∈ ([.done, .failed .prot 5, .retired] : List CmdState), (ordered .accz [0, 1] true st).goesOn = true ∧ (ordered .accz [0, 1] true st).uniGuard 0 = true ∧
      (ordered .accz [0, 1] true st).uniGuard 1 = false) ∧
    (∀ c ∈ (ordered (.copy 0) [] false .done).covered true 8, c.state = .done) ∧ (ordered (.copy 0) [] false .done).covered true 8 ≠ [] ∧
    (∀ c ∈ (ordered .accz [0, 1] true (.failed .prot 5)).covered false 10, c.isOver = true ∧ c.state = .failed .prot 5) ∧
    (ordered .accz [0, 1] true (.failed .prot 5)).covered false 10 ≠ [] ∧
    (∃ c ∈ (ordered .accz [0, 1] true .retired).covered false 10, c.isOver = false) := by decide +kernel

/-- The first command of a state. -/
def firstCmd (s : State) (d : Cmd) : Cmd := s.cmds.headD d

theorem wit_EngineProgress :
    (∀ x ∈ ([(.accz, .retired), (.copy 0, .parked 0x5000), (.mma, .waiting), (.mmag, .accepted)] : List (CmdKind × CmdState)),
      ∃ c ∈ (ordered x.1 [0x600010, 48] true x.2).cmds, (ordered x.1 [0x600010, 48] true x.2).cmd? c.id = some c ∧ c.state = x.2 ∧ c.kind = x.1 ∧
        c.kind ≠ .launch ∧ (ordered x.1 [0x600010, 48] true x.2).window c.ctx 0x5000 = none ∧ c.sid = (ordered x.1 [0x600010, 48] true x.2).st.sid ∧ (c.w 2).toNat ≤ c.progress) ∧
    (∃ c ∈ (ordered .mma [0x10, 48] true .waiting).cmds, ({ (ordered .mma [0x10, 48] true .waiting) with
        cmds := (ordered .mma [0x10, 48] true .waiting).cmds.map (fun (x : Cmd) => { x with joint := [x.id] }) } : State).jointReady { c with joint := [c.id] } = true) ∧
    (∃ c ∈ (ordered .accz [1, 2] true .accepted).cmds, (ordered .accz [1, 2] true .accepted).matrixHead c.gid = some c ∧
      c.gid = (ordered .accz [1, 2] true .accepted).gr.gid) := by decide +kernel

/-- A copy of 16 bytes at VA 0x1010 to the start of the scratchpad window, accepted. -/
def copying : State :=
  { ordered (.copy 0) [0x1010, 0, 0, 0, 16, 0, 0, 0] false .accepted with mem := paged.mem ++ [⟨0x200010, 5⟩, ⟨0x20001F, 9⟩], ctxs := paged.ctxs }

theorem wit_CopyBytes : ∃ c ∈ copying.cmds, copying.cmd? c.id = some c ∧ c.kind = .copy 0 ∧ c.state = .accepted ∧ c.progress = 0 ∧ c.buf = [] ∧ cp2d 0 (c.w 7) = false ∧
    (c.w 7).getLsbD 5 = false ∧ copying.groupOf c.gid = copying.gr ∧
    (∀ k ∈ List.range (copyShape 0 c.regs).words, copying.cmdTrans c ((copyShape 0 c.regs).src + 4 * k) needR = .ok (.dev (0x200010 + 4 * k)) ∧ 0x200010 + 4 * k + 4 ≤ Config.hbmBytes) ∧
    ((copying.unitOf copying.gr.uid).coop = false ∧ (copyShape 0 c.regs).dst + 4 * (copyShape 0 c.regs).words ≤ (copying.unitOf copying.gr.uid).scratch ∧
      ((copying.unitOf copying.gr.uid).cores[copying.gr.coreIndex]?).map (fun k => decide (k.die < 4 ∧ k.core < 36 ∧ 0x400 ≤ k.base ∧
        k.base + (copying.unitOf copying.gr.uid).scratch ≤ 0x80000)) = some true) := by decide +kernel

/-- An MMV of one row by 64 rows of 32 elements at VA 0x200000, which die 0's engine has in its TLB; it may have been given B. -/
def vectored (b : Bool) : State :=
  let s := ordered .mmv [0x10010, 0, 0, 0x200000, 0, 0x100] true .accepted
  { s with ctxs := paged.ctxs, tlb := [tlbAll 42 0x200000], cmds := s.cmds.map (fun c => { c with buf := if b then List.replicate 4096 0 else [] }) }

theorem wit_MatrixResults_given : (vectored true).cmds.map (fun c => 4 * c.buf.length) = [4096 * 4] := by
  have h : (ordered .mmv [0x10010, 0, 0, 0x200000, 0, 0x100] true .accepted).cmds.length = 1 := by decide +kernel
  obtain ⟨c, hc⟩ := List.length_eq_one_iff.1 h
  simp only [vectored, hc, List.map_cons, List.map_nil, if_true, List.length_replicate]

theorem wit_MatrixResults :
    (∃ c ∈ (ordered .mma [0x10] true .accepted).cmds, (ordered .mma [0x10] true .accepted).matrixHead c.gid = some c ∧ c.kind = .mma ∧ c.state = .accepted ∧ c.progress = 0 ∧
      (mmaDesc c.regs).acc = false ∧ c.gid = (ordered .mma [0x10] true .accepted).gr.gid ∧ (ordered .mma [0x10] true .accepted).gr.live = true ∧
      (mmaDesc c.regs).slices c.fmt = 1 ∧ 0 < (mmaDesc c.regs).n ∧ (mmaDesc c.regs).tile < (ordered .mma [0x10] true .accepted).gr.tiles.length ∧
      (ordered .mma [0x10] true .accepted).operandHurt c (ordered .mma [0x10] true .accepted).gr ((ordered .mma [0x10] true .accepted).unitOf 1) (mmaDesc c.regs) = false ∧
      sparseGet 0 (ordered .mma [0x10] true .accepted).gr.classBy (mmaDesc c.regs).tile ≤ c.id ∧ (ordered .mma [0x10] true .accepted).gr.uid = 1) := by
  decide +kernel

theorem wit_MatrixResults_vector : ∀ b ∈ [false, true], (vectored b).cmds.length = 1 ∧ ∃ c ∈ (vectored b).cmds, c.kind = .mmv ∧ c.state = .accepted ∧ (mmvDesc c.regs).v = 1 ∧
    (let s := vectored b
     let d := mmvDesc c.regs
     let g := s.groupOf c.gid
     s.rowsHurt g (s.unitOf g.uid) d.aoff d.v d.astr (2 * d.k) = false ∧ s.rowsHurt g (s.unitOf g.uid) d.yoff d.v d.ystr (4 * d.n) = false ∧
     d.n * d.rowBytes (fmtB c.fmt) = 4096 * 4 ∧ (s.unitOf g.uid).coop = false ∧ d.yoff + 4 * d.n ≤ (s.unitOf g.uid).scratch ∧
     ((s.unitOf g.uid).cores[g.coreIndex]?).map (fun k => decide (k.die < 4 ∧ k.core < 36 ∧ 0x400 ≤ k.base ∧ k.base + (s.unitOf g.uid).scratch ≤ 0x80000)) = some true) := by
  decide +kernel

theorem wit_MatrixResults_pages : ∃ c ∈ (vectored false).cmds, (vectored false).cmd? c.id = some c ∧ c.buf = [] ∧ (mmvDesc c.regs).b % 4096 = 0 ∧
    ∀ j ∈ List.range 4, (vectored false).engWalk c.die c.ctx ((mmvDesc c.regs).b + 4096 * j) = vectored false ∧ (Loc.dev (0x200000 + 4096 * j)).homeDie = c.die ∧
      ((vectored false).engAsk c.die c.ctx ((mmvDesc c.regs).b + 4096 * j) needR c.id c.seesChip).struck (vectored false) true 4096 = .ok (.dev (0x200000 + 4096 * j)) := by
  decide +kernel


/-- engMma with the page tables of paged, the objects given, and room for their requests. -/
def objects (os : List ObjSlot) : State :=
  { engines [0x1010, 0, 0x1020, 0, 8, 1] with mem := paged.mem, ctxs := paged.ctxs.map (fun (c : Ctx) => { c with objects := os, overflow := 100 }) }
def obj0 : ObjSlot := ⟨0, 1, true, 1, 0x1010, 8, 0x1020, [], false⟩
/-- A request of lane 0 for object 0, and one for a handle of nothing. -/
def req0 : ObjRequest := ⟨30, 1, obj0.handle, 6, 7, 8, 0, 1, 0⟩
/-- Two lanes that call an object, and the same stream once its requests stand. -/
def calling : State := ((objects [obj0]).mapLanes 3 (fun _ x => x.setRegs 64 0 [7, 8, obj0.handle])).modSt (fun t => { t with sregs := t.sregs.set 30 obj0.handle })
def requested : State := { calling.modSt (fun t => { t with status := .waitRequests, objMask := 3, objDest := 5 }) with requests := [req0, { req0 with id := 31, handle := 0x1234 }] }
def replied (n : Nat) : State := { calling.modSt (fun t => { t with status := .waitReplies, objMask := BitVec.ofNat 64 n, objDest := 5 }) with replies := [⟨9, 1, 1, 77, none⟩] }
/-- A batch of object 0 with one buffered byte. -/
def wave0 : Wave := ⟨0, true, [], [req0], [], [(0x1010, 1)], 0, 0x1010, 8⟩
def waving : State := let s := objects [{ obj0 with running := true }]; { s with st := { s.st with kind := .wave 0, wave := some wave0 }, dev := { s.dev with clock := 0x100000 } }
def parkedWave : State := waving.modSt (fun t => { t with status := .parked, faults := [⟨0, 0x5000, false, false, false, false, some false, false, 0, 4, false⟩] })
def overlaid (va : Nat) : State :=
  ({ objects [] with overlays := [⟨0, 1, 0, [], false, 0, 0⟩, ⟨0, 1, 0x1000, [], false, 0, 0⟩, ⟨64, 1, 0x1000, [], false, 0, 0⟩] } : State).modSt (fun t => { t with sregs := t.sregs.set 10 (BitVec.ofNat 32 va) })
/-- A CFETCH of the page 0x1000 that has been accepted. -/
def fetching : State := let s := ordered .cfetch [0x1000, 0] false .accepted; { s with mem := paged.mem, ctxs := paged.ctxs, cmds := s.cmds.map (fun c => { c with arg := 0x1000 }) }

theorem wit_CodeOverlay :
    (∀ va ∈ [0, 0x1000], (overlaid va).goesOn = true ∧ isPair 10 = true ∧ (overlaid va).uniGuard 0 = true ∧ (overlaid va).owing = false ∧ (overlaid va).st.held = [] ∧
      ∃ o ∈ (overlaid va).overlays, o.ctx = (overlaid va).gr.ctx ∧ o.va = segOf (BitVec.ofNat 57 ((overlaid va).sregPair 10).toNat) ∧ (overlaid va).cinvReach 0 o.core = true ∧
        (overlaid va).pinned o = decide (va = 0)) ∧
    (∃ o ∈ (overlaid 0).overlays, (overlaid 0).cinvReach 0 o.core = false) ∧
    ((fetching.cmds.find? (fun x => x.kind = .cfetch && x.state = .accepted && x.ctx == 1 && x.arg == 0x1000 && x.core == 0)).map (fun c =>
        decide ((fetching.fetchAsk (dieOf 0) 1 0x1000 c.id c.priv).struck fetching true 4096 = .ok (.dev 0x200000)))) = some true ∧
    fetching.slotFor 0 1 0x1000 = none ∧ (fetching.overlays.filter (fun o => o.core == 0)).length < slotCount 0 ∧
    (let s := calling.modSt (fun t => { t with status := .waitPlaced })
     s.st ∈ s.allStreams ∧ s.gr ∈ s.allGroups ∧ s.gr.gid = s.st.gid ∧ s.gr.uid = s.un.uid ∧ (∀ z ∈ s.allStreams, z.status = .waitPlaced → segOf z.pc = 0) ∧
     (s.unitOf s.un.uid).cores ≠ [] ∧ ∀ c ∈ (s.unitOf s.un.uid).cores, (s.slotFor (coreNo c.die c.core) (s.unitOf s.un.uid).ctx 0).isSome = true) := by decide +kernel

theorem wit_Objects_calls : calling.goesOn = true ∧ calling.uniGuard 0 = true ∧ calling.isWave = false ∧ objCheck (calling.descr 0 8) = none ∧
    ((calling.ctxRec calling.gr.ctx).map (fun c => decide ((c.newObject (calling.descr 0 8) calling.gr.die).isSome = true ∧
      (c.objects.find? (fun x => x.handle == calling.sreg 30)).map (fun o => decide (o.queue = [] ∧ o.running = false)) = some true))) = some true ∧
    calling.object calling.gr.ctx (calling.sreg 30) ≠ none ∧ (0#6).toNat < 55 ∧ calling.active 0 ≠ 0 ∧ calling.beyondIn (calling.active 0) [0, 1, 2, 5] = 0 ∧
    calling.st.held = [] ∧ calling.owing = false ∧ requested.st.status = .waitRequests := by decide +kernel

theorem wit_Objects_room :
    let mine := requested.requests.filter (fun x => x.sid == requested.st.sid)
    mine ≠ [] ∧ requested.st.status = .waitRequests ∧ ∀ x ∈ mine, requested.objRoom x.ctx (x.handle.toNat / 2 ^ 30) (fun d => (mine.filter (fun y => y.handle.toNat / 2 ^ 30 == d)).length) = true := by
  have hs : ∀ (d : Nat) (n : Nat → Nat), ((List.range Config.dies).map (fun k => requested.queuedAt 1 k + requested.onTheWay 1 k + n k)).sum ≤ ((requested.ctxRec 1).map (·.overflow)).getD 0 →
      requested.objRoom 1 d n = true := fun d n h => by
    simp only [State.objRoom, Bool.or_eq_true, decide_eq_true_eq]
    exact .inr (Nat.le_trans (List.sum_le_sum fun d _ => Nat.sub_le _ _) h)
  have h1 : requested.requests.filter (fun x => x.sid == requested.st.sid) = [req0, { req0 with id := 31, handle := 0x1234 }] := by decide +kernel
  intro mine
  simp only [mine, h1]
  refine ⟨by decide, by decide +kernel, fun x hx => ?_⟩
  have hx' : x.ctx = 1 := by
    rcases List.mem_cons.1 hx with rfl | hx
    · rfl
    · rcases List.mem_cons.1 hx with rfl | hx
      · rfl
      · cases hx
  rw [hx']
  exact hs _ _ (by decide +kernel)

theorem wit_Objects_arrivals : (∀ r ∈ requested.requests, requested.requests.find? (fun x => x.id == r.id) = some r) ∧
    (requested.object 1 obj0.handle).isSome = true ∧ requested.object 1 0x1234 = none ∧
    (∀ m ∈ [2, 3], ∀ r ∈ (replied m).replies, (replied m).replies.find? (fun x => x.id == r.id) = some r ∧ r.sid = (replied m).st.sid ∧ (replied m).st.sid ≠ 0 ∧
      (replied m).st.objMask.has r.lane = true ∧ (decide ((replied m).st.objMask = Mask.one r.lane)) = decide (m = 2) ∧ r.lane < 64 ∧ r.error = none ∧
      (replied m).st.objErr = 0 ∧ (replied m).st.cancelAt = none ∧ (replied m).modx = 0 ∧ (replied m).st.gid = (replied m).gr.gid) := by decide +kernel

theorem wit_Objects_methods : waving.isWave = true ∧ waving.st.wave = some wave0 ∧ waving.goesOn = true ∧ waving.uniGuard 0 = true ∧ waving.beyondIn (waving.active 0) [0] = 0 ∧
    (∃ ws, waving.commitWrites wave0.buf = .ok ws ∧ ∀ x ∈ ws, x.1.plain 1) := by
  refine ⟨by decide, rfl, by decide, by decide, by decide +kernel, [(.dev 0x200010, 1)], by decide +kernel, ?_⟩
  simp only [plain_iff]
  decide

theorem wit_ObjectBatches :
    (let s := objects [{ obj0 with die := 0, queue := [req0] }]
     (s.freeConj 0).isSome = true ∧ ((oldest (s.heads 0)).map (fun x => decide ((s.ctxRec x.1).map (fun c => decide (x.2.1 ∈ c.objects)) = some true))) = some true) ∧
    waving.st.wave = some wave0 ∧ waving.isWave = true ∧ waving.st.sid ≠ 0 ∧ wave0.started = true ∧ wave0.start + 0x100000 ≤ waving.dev.clock.toNat ∧
    parkedWave.st.wave = some wave0 ∧ parkedWave.isWave = true ∧ parkedWave.st.status = .parked ∧ (∀ f ∈ parkedWave.st.faults, f.settled ≠ none) ∧
    (∃ f ∈ parkedWave.st.faults, f.settled = some false) := by decide +kernel

/-- A launch record of 32 words: one group of 8, 20 units, one tile's worth of nothing. -/
def recWords : List Word := [0, 5, 0x1000, 0, 0x2000, 0, 20, 8, 0, 0, 1, 64, 0, 0, 1000, 0] ++ List.replicate 16 (0 : Word)
def recBytes : List Byte := recWords.flatMap (fun w => leBytes 4 w.toNat)
/-- A device that takes launches of context 1 through page 7, whose queue 0 holds the records qs. -/
def intake (qs : List QueuedRec) : State :=
  { base with mem := paged.mem, ctxs := paged.ctxs.map (fun (c : Ctx) => { c with queues := c.queues.set 0 qs }), submit := [⟨7, 1, 3⟩],
              dies := base.dies.map (fun (d : DieRec) => { d with pairOk := true }) }
def waitingRec (v : Bool) (ws : List Word) : QueuedRec := ⟨9, LaunchRec.parse ws, v, 0, 0, false, 20, false⟩
/-- A launch of 100 units that has just fired. -/
def fired (chunks : List (List Nat)) : State :=
  { intake [] with launches := [⟨40, 0x90005, 1, LaunchRec.parse recWords, 0, 0, false, 0x1000, none, 100, chunks, [], [], 100, 0, 0, 0, 0, false, false, false⟩] }
/-- A LAUNCH accepted, its record in memory. -/
def launching : State :=
  let s := (engines [0x1000, 0]).issueCmd .launch [0x1000, 0] false false (fun c => { c with state := .accepted, arg := 20 })
  ({ s with mem := (List.range 32).foldl (fun m k => Memory.putN m (0x200000 + 4 * k) (recWords.getD k 0).toNat 4) paged.mem,
            ctxs := paged.ctxs, dies := (intake []).dies, events := [] } : State).modSt (fun t => { t with status := .waitAccept ((s.cmds.map (·.id)).getLastD 0), owed := [(20, (s.cmds.map (·.id)).getLastD 0)] })

theorem wit_LaunchIntake_doorbell :
    (intake []).submitPage 7 = some ⟨7, 1, 3⟩ ∧ ((intake []).ctxRec 1).map (fun c => decide (c.queues.length = 8 ∧ (c.queue 0).length < 64)) = some true ∧
    recBytes.length = 128 ∧ (intake []).accepting = true ∧
    (((intake (List.replicate 64 (waitingRec true recWords))).ctxRec 1).map (fun c => decide (c.queues.length = 8 ∧ 64 ≤ (c.queue 0).length))) = some true ∧
    (intake (List.replicate 64 (waitingRec true recWords))).accepting = true := by decide +kernel

theorem wit_LaunchIntake_validation :
    (intake []).refusal 1 (waitingRec false recWords).fields = none ∧ (intake []).refusal 1 (waitingRec false (recWords.set 7 0)).fields = some 2 ∧
    (∀ ws ∈ [recWords, recWords.set 7 0], ((intake [waitingRec false ws]).ctxRec 1).map (fun c => (c.queue 0).find? (fun x => !x.valid)) = some (some (waitingRec false ws)) ∧
      (intake [waitingRec false ws]).beneathCancelled 1 (waitingRec false ws) = false) := by decide +kernel

theorem wit_LaunchIntake_child :
    (launching.cmds.head?.map (fun c => decide (launching.cmd? c.id = some c ∧ c.kind = .launch ∧ c.state = .accepted ∧ c.buf = [] ∧ c.sid = launching.st.sid ∧ c.arg < 60 ∧
      launching.st.status = .waitAccept c.id ∧ (launching.ctxRec c.ctx).map (fun x => x.queues.length) = some 8 ∧
      ∀ k ∈ List.range 32, launching.cmdTrans c (vaPair (c.w 0) (c.w 1) + 4 * k) needR = .ok (.dev (0x200000 + 4 * k))))) = some true ∧ launching.accepting = true ∧
    launching.refusal 1 (launching.shaped 1 (LaunchRec.parse ((List.range 32).map (fun k => BitVec.ofNat 32 (launching.getN (.dev (0x200000 + 4 * k)) 4))))) = none ∧
    launching.counters = [] ∧ launching.saved = [] ∧ (launching.ctxRec 1).map (fun c => c.children.length) = some 0 ∧
    launching.cmds.head?.map (fun c => decide ((c.arg, c.id) ∈ launching.st.owed)) = some true := by decide +kernel

theorem wit_LaunchIntake_fire :
    (intake [waitingRec true recWords]).nextRecord 1 = some (0, waitingRec true recWords) ∧ (waitingRec true recWords).fields.dyn = false ∧
    (∀ ch ∈ [[[0, 4, 8], [1, 5], [2], []], [[], [], [2], []]], ∃ l ∈ (fired ch).launches, (fired ch).launches.find? (fun y => y.key == l.key) = some l ∧ l.asks 3 = true ∧ l.chunks.length = 4) ∧
    (∃ l ∈ (fired (dealt 100)).launches, (fired (dealt 100)).launches.find? (fun y => y.key == l.key) = some l ∧ l.nextUnit 0 ≠ none ∧
      (fired (dealt 100)).coresFor 0 l.ctx l.fields.nb (1024 * l.fields.scratch) 36 0 ((List.range l.fields.coreCount).map l.fields.coreGroups) ≠ none ∧
      (fired (dealt 100)).freeSlots l l.fields.groups ≠ none) := by decide +kernel

/-- A launch, a queued record, a graph of phase 3 and that phase, all live; s10 holds id, s11 holds 3. -/
def levels (id : Word) : State :=
  ({ base with launches := (fired []).launches, ctxs := paged.ctxs.map (fun (c : Ctx) => { c with queues := c.queues.set 0 [waitingRec true recWords] }),
               counters := [⟨1, 1, 0, 3, 2, false, false⟩, ⟨2, 1, 3, 0, 1, false, false⟩] } : State).modSt (fun t => { t with sregs := (t.sregs.set 10 id).set 11 3 })
/-- The group of base with all its lanes live, at a SYSCALL; and once the call has gone out. -/
def calledOut : State := (base.modUn (fun u => { u with sysSent := true, sysarr := 8 })).modSt (fun t => { t with status := .waitSyscall })

theorem wit_Levels :
    (∀ id ∈ [0x90005, 0], (levels (BitVec.ofNat 32 id)).goesOn = true ∧ (levels (BitVec.ofNat 32 id)).uniGuard 0 = true ∧ (levels (BitVec.ofNat 32 id)).owing = false ∧
      (levels (BitVec.ofNat 32 id)).st.held = []) ∧
    (levels 0x90005).level 1 0 ((levels 0x90005).sreg 10) = some (.launch 40) ∧ (levels 0).level 1 0 ((levels 0).sreg 10) = none ∧
    (levels 0).level 1 0 ((waitingRec true recWords).lid) ≠ none ∧ (levels 0).level 1 1 0x10000 = some (.counter 1 0) ∧ (levels 0).level 1 2 3 = some (.counter 2 3) ∧
    (levels 0).level 1 3 1 = some .job ∧ bumpCount 2 1 ≠ 0 ∧ bumpCount 2 (-2) = 0 ∧ ((levels 0).counter? 1 1 0).isSome = true ∧ (∀ y ∈ (levels 0).counters, y.kind = 1 → y.closed = false ∨ y.count ≠ 0) ∧
    ({ (levels 0) with launches := [] } : State).level 1 0 ((waitingRec true recWords).lid) = some (.queued 0 9) := by decide +kernel

theorem wit_Levels_syscall :
    base.goesOn = true ∧ base.uniGuard 0 = true ∧ base.isWave = false ∧ base.st.isPriv = false ∧ base.owing = false ∧ base.st.held = [] ∧ base.st.cancelAt = none ∧
    base.un.sysSent = false ∧ base.un.sysarr + base.st.exm.size = base.liveLanes base.un.uid ∧ base.st.gid = base.gr.gid ∧ base.gr.live = true ∧ base.gr.uid = base.un.uid ∧
    priv.goesOn = true ∧ priv.uniGuard 0 = true ∧ priv.st.isPriv = true ∧
    calledOut.un.live = true ∧ calledOut.un.sysSent = true ∧ (calledOut.sysWaiters calledOut.un.uid).map (fun w => decide (w.2.2 = calledOut.st)) = [true] ∧
    calledOut.st.gid = calledOut.gr.gid := by decide +kernel

/-- The last group of its unit with no lane left, and its launch of one unit; and that launch once the unit has ended. -/
def lastGroup : State :=
  { base.modUn (fun u => { u with launch := 40 }) with gr := { base.gr with alive := 0 }, launches := (fired []).launches.map (fun (l : Launch) => { l with units := 1, count := 1 }) }
def allEnded : State := { base with ctxs := paged.ctxs, launches := (fired []).launches.map (fun (l : Launch) => { l with ended := 100, count := 0 }) }
/-- A completion record of context 1 whose page the leader's engine has in its TLB, as a host page. -/
def recorded (b : Bool) : State :=
  { base with ctxs := paged.ctxs, records := [⟨1, 0x4000, [7, 1, 2, 3, 4, 5, 6, 8], b⟩], tlb := [⟨42, 1, 0, 0x4000, 4096, .host 0x9000, ⟨true, true, false⟩⟩] }
/-- A CRED of the words at 0x1010 to 0x1020 in a group of two members: accepted, or with its result to write. -/
def reducing (a : Nat) (b : List Word) : State :=
  let s := ordered (.cred 0) [0x1010, 0, 0x1020, 0, 2, 3, 5, 6] false .accepted
  { s with mem := paged.mem, ctxs := paged.ctxs, cmds := s.cmds.map (fun c => { c with arg := a, buf := b }), rgroups := [⟨5, 2, 1, 0, 1⟩] }

theorem wit_LaunchEnds_records :
    (∀ b ∈ [false, true], ∃ r, (recorded b).records = [r] ∧ r.begun = b ∧ r.words.length = 8 ∧ ((recorded b).ctxRec r.ctx).isSome = true ∧
      ∀ k ∈ List.range 8, ((recorded b).engAsk 0 r.ctx (r.va + 4 * k) needW 0 false).struck (recorded b) true 4 = .ok (.host (0x9000 + 4 * k))) := by
  intro b hb
  refine ⟨⟨1, 0x4000, [7, 1, 2, 3, 4, 5, 6, 8], b⟩, rfl, rfl, rfl, ?_⟩
  revert b
  decide +kernel

theorem wit_LaunchEnds :
    (lastGroup.group? lastGroup.gr.gid = some lastGroup.gr ∧ lastGroup.gr.gid ≠ 0 ∧ lastGroup.gr.alive = 0 ∧ lastGroup.gr.uid ≠ 0 ∧ lastGroup.stores = [] ∧ lastGroup.atomics = [] ∧
      lastGroup.cmds = [] ∧ ((lastGroup.ctxRec lastGroup.gr.ctx).map (·.profcap)).getD 0 = 0 ∧ lastGroup.unit? lastGroup.gr.uid = some lastGroup.un ∧
      (∀ h ∈ lastGroup.allGroups, h.live = true → h.uid = lastGroup.gr.uid → h.gid = lastGroup.gr.gid) ∧
      (lastGroup.launches.find? (fun y => y.key == lastGroup.un.launch)).isSome = true) ∧
    (∃ l ∈ allEnded.launches, l.key ≠ 0 ∧ allEnded.launches.find? (fun y => y.key == l.key) = some l ∧ (allEnded.ctxRec l.ctx).isSome = true ∧ l.units ≤ l.ended ∧ l.count = 0 ∧
      l.done = false ∧ l.status ≤ 3) ∧
    (∃ c ∈ (reducing 0 []).cmds, (reducing 0 []).cmd? c.id = some c ∧ c.kind = .cred 0 ∧ c.state = .accepted ∧ c.arg = 0 ∧ c.buf = [] ∧ c.credBytes = 4 ∧
      (reducing 0 []).rgroups.find? (fun x => x.rgrp == c.w 6 && x.ctx == c.ctx) = some ⟨5, 2, 1, 0, 1⟩ ∧ 2 ≤ credLimit (c.w 5) ∧
      (reducing 0 []).reductions = [] ∧ (1 : BitVec 12) ≠ (reducing 0 []).dev.id ∧ (reducing 0 []).cmdTrans c (vaPair (c.w 0) (c.w 1)) needR = .ok (.dev 0x200010)) ∧
    (∃ c ∈ (reducing 1 [9]).cmds, (reducing 1 [9]).cmd? c.id = some c ∧ c.kind = .cred 0 ∧ c.state = .accepted ∧ c.arg = 1 ∧ c.buf = [9] ∧ c.progress = 0 ∧
      (reducing 1 [9]).cmdTrans c (vaPair (c.w 2) (c.w 3)) needW = .ok (.dev 0x200020)) := by decide +kernel

/-- A walk that no slot has taken, one that slot 3 has, and one that an invalidation has covered. -/
def walk0 : WalkReq := ⟨5, 1, 0, 1, needR, [0], none, false, false, false⟩
def walks : List WalkReq := [walk0, { walk0 with tag := 6, taken := some 3, page := 2 }, { walk0 with tag := 7, taken := some 3, page := 3, stale := true }]
/-- Walker slot 3 on die 0 with these requests; lane 0 holds the record of walk 6 and an entry that maps the frame 0x200000. -/
def walking (rs : List WalkReq) : State :=
  let s := base.modSt (fun t => { t with kind := .walker 3 })
  { s.mapLanes 1 (fun _ x => x.setRegs 64 0 ((walks.getD 1 walk0).words ++ [0x20001D, 0, 0, 0])) with
    mem := paged.mem, ctxs := paged.ctxs, dies := base.dies.map (fun (d : DieRec) => if d.die = 0 then { d with walks := rs } else d) }
def answered : State := (walking walks).modSt (fun t => { t with peer := [⟨0, 0x2000, false, some (.done 0x20001D), false⟩] })
/-- The service pair with a TLBINV of two pages from va of context 1. -/
def pairing (va : Nat) : State :=
  { paged.modSt (fun t => { t with kind := .pair, sregs := ((t.sregs.set 8 (BitVec.ofNat 32 va)).set 10 1).set 12 2 }) with tlb := [⟨0, 1, 0, 0x1000, 4096, .dev 0x200000, ⟨true, true, false⟩⟩] }
/-- A stream that waits for a peer, and one that is parked on a page. -/
def awaiting : State := base.modSt (fun t => { t with status := .waitPeer, peer := [⟨0, 0x2000, false, none, false⟩] })
def parkedOn (h : Bool) : State := base.modSt (fun t => { t with status := .parked, faults := [⟨0, 0x5000, false, h, false, false, none, false, 0, 4, false⟩] })

theorem wit_Walks_slots :
    (walking walks).goesOn = true ∧ (walking walks).st.kind = .walker 3 ∧ (walking walks).uniGuard 0 = true ∧ isQuad 0 = true ∧ isQuad 4 = true ∧
    (walking walks).beyondIn (walking walks).st.exm (quadFields 0 ++ quadFields 4) = 0 ∧
    (((walking walks).dieRec (walking walks).gr.die).walks.filter (fun r => r.taken.isNone)).take 8 ≠ [] ∧ ((walking []).dieRec 0).walks = [] ∧
    (walking walks).recordLanes 0 = [0] ∧ (walking walks).recordLanes 48 = [] ∧ isQuad 48 = true ∧ (walking walks).beyondIn (walking walks).st.exm (quadFields 48 ++ quadFields 4) = 0 ∧ (walking walks).st.peer = [] ∧
    answered.recordLanes 0 = [0] ∧ answered.peerAnswer 0 false = some (.done 0x20001D) ∧ (walking walks).recordTag 0 0 = some 6 ∧ (walking walks).dev.pageReqs = [] ∧
    ((walking walks).dieRec 0).walks.find? (fun x => x.tag == 7) = some { walk0 with tag := 7, taken := some 3, page := 3, stale := true } ∧
    ((walking walks).dieRec 0).walks.find? (fun x => x.tag == 5) = some walk0 ∧ walk0.filled none 0x20001D 0 ≠ none := by decide +kernel

theorem wit_Walks_room : (walking walks).pageRoom = true ∧ ∃ s : State, s.pageRoom = false ∧ s.recordLanes 0 = [0] ∧ s.st.peer = [] ∧ s.st.kind = .walker 3 := by
  refine ⟨decide_eq_true (Nat.zero_le _), { walking walks with dev := { base.dev with pageReqs := List.replicate (Config.pageRequests + 1) (1, 0) } }, ?_, ?_, rfl, rfl⟩
  · simp [State.pageRoom]
  · decide +kernel

theorem wit_Walks_invalidation :
    (∀ va ∈ [0x1000, 0x1008], (pairing va).goesOn = true ∧ (pairing va).st.kind = .pair ∧ (pairing va).st.privileged = false ∧ (pairing va).uniGuard 0 = true ∧
      (pairing va).owing = false ∧ (∀ x ∈ (pairing va).st :: (pairing va).streams, x.held = []) ∧
      decide (vaPair ((pairing va).sreg 8) ((pairing va).sreg 9) % 2 ^ 57 % 4096 = 0) = decide (va = 0x1000)) ∧
    (pairing 0x1000).st.gid = (pairing 0x1000).gr.gid ∧
    awaiting.st.sid ≠ 0 ∧ awaiting.st.status = .waitPeer ∧ awaiting.st.peer = [⟨0, 0x2000, false, none, false⟩] ∧
    (let s : State := { base with invals := [⟨3, 1, 0, 0, 3⟩] }
     s.invals.find? (fun x => x.id == 3) = some ⟨3, 1, 0, 0, 3⟩ ∧ s.stores = [] ∧ s.atomics = [] ∧ ∀ x ∈ s.allStreams, x.loads = []) := by decide +kernel

theorem wit_Walks_repairs :
    (∀ h ∈ [true, false], (parkedOn h).st.sid ≠ 0 ∧ (parkedOn h).st.gid = (parkedOn h).gr.gid ∧ (parkedOn h).st.kind = .home ∧ (parkedOn h).st.status = .parked ∧
      (parkedOn h).st.faults = [⟨0, 0x5000, false, h, false, false, none, false, 0, 4, false⟩] ∧ (parkedOn h).cmds = [] ∧ (∀ x ∈ (parkedOn h).allStreams, x.status ≠ .waitPlaced)) ∧
    paged.leafOfPage 1 0x1000 = some 0x14008 ∧ 0x14008 + 8 ≤ Config.hbmBytes ∧ paged.keyOf 1 ((paged.mem.getN 0x14008 8).testBit 8) = none ∧
    (let e := paged.mem.getN 0x14008 8
     e.testBit 0 = true ∧ e.testBit 5 = false ∧ e.testBit 6 = false ∧ e.testBit 7 = false ∧ pteFrame e = 0x200000) ∧
    paged.stores = [] ∧ paged.atomics = [] ∧ ∀ x ∈ paged.allStreams, x.held = [] := by decide +kernel

/-- The stream of base at a clause with this header, flag 0 pending where p. -/
def atClause (pc h : Nat) (p : Bool) (es : List PathEntry) : State :=
  { mk (fun t => { t with pc := BitVec.ofNat 57 pc, pos := 0, stack := es, flags := if p then t.flags.set 0 1 else t.flags }) with
    overlays := [⟨0, 1, pc / 4096 * 4096, [(pc % 4096, BitVec.ofNat 32 h)], false, 0, 0⟩] }
def pend0 : PathEntry := ⟨false, 0x40, 0, 0xF0, 0⟩
/-- Lane 0 of a group whose frame area stands at VA 0x1000, with its window as given. -/
def resident (allot fb lowres : Nat) : State :=
  paged.modGr (fun g => { g with lanes := g.lanes.set 0 { Lane.start with fb := fb, lowres := lowres, col := [(lowres % allot, 77)] }, allot := allot, fa := 0x1000, faw := 256 })
def waitingSpill : State := (resident 256 40 32).modSt (fun t => { t with status := .waitSpill, demand := [⟨0, false, 0, 32, []⟩] })
def entering : State := (handling 3).modSt (fun t => { t with status := .entryParked, pos := 0, pc := 0x200, faults := [] })
def parkedIn (ok : Bool) : State := armed.modSt (fun t => { t with status := .parked, faults := [⟨0, 0x5000, false, false, false, false, some ok, false, 0, 4, false⟩] })

theorem wit_PathEvents_clauses :
    (∀ x ∈ ([(0xFF8, 0xF0000000, false, []), (0x40, 0x20000080, false, []), (0x40, 0x20010000, true, []), (0x40, 0x20000040, false, [pend0])] : List (Nat × Nat × Bool × List PathEntry)),
      let s := atClause x.1 x.2.1 x.2.2.1 x.2.2.2
      s.st.exm ≠ 0 ∧ s.st.kind = .home ∧ s.st.privileged = false ∧ s.st.below = [] ∧ s.st.status = .runnable ∧ s.st.cancelAt = none ∧ s.st.stack = x.2.2.2 ∧
      (s.slotFor s.gr.coreId s.gr.ctx (segOf s.st.pc)).map (fun o => sparseGet 0#32 o.words (s.st.pc.toNat % 4096 / 4 * 4)) = some (BitVec.ofNat 32 x.2.1) ∧
      decide (0xFFC < s.st.pc.toNat % 4096 + 4 * hdrN (BitVec.ofNat 32 x.2.1)) = decide (x.1 = 0xFF8) ∧
      decide (hdrWait (BitVec.ofNat 32 x.2.1) &&& s.st.pending ≠ 0) = x.2.2.1) ∧
    (let s := atClause 0x40 0x20000040 false [pend0]
     pend0.join = false ∧ pend0.addr = s.st.pc ∧ pend0.depth = s.st.dep ∧ pend0.fmt = s.st.fmt ∧ hdrConv 0x20000040 = true) ∧ hdrMark 0x20000080 = true := by decide +kernel

theorem wit_PathEvents_streams :
    (let s : State := { mk (fun t => { t with idle := 256, promoted := none }) with dev := base.dev }
     s.st.sid ≠ 0 ∧ s.st.status = .runnable ∧ s.st.promoted = none ∧ 256 ≤ s.st.idle) ∧
    (∀ ok ∈ [true, false], (parkedIn ok).st.sid ≠ 0 ∧ (parkedIn ok).st.status = .parked ∧ (parkedIn ok).st.faults = [⟨0, 0x5000, false, false, false, false, some ok, false, 0, 4, false⟩] ∧
      (parkedIn ok).st.exm.has 0 = true) ∧
    (entering.st.sid ≠ 0 ∧ entering.st.status = .entryParked ∧ entering.st.faults = [] ∧ entering.segPresent entering.st.pc = true ∧ entering.st.cancelAt = none ∧
      ∀ l ∈ entering.st.exm.lanes, (entering.lane l).fb + 18 + (entering.lane l).locals + 58 - entering.gr.allot ≤ (entering.lane l).lowres) ∧
    (waitingSpill.st.sid ≠ 0 ∧ waitingSpill.st.status = .waitSpill ∧ waitingSpill.st.demand = [⟨0, false, 0, 32, []⟩] ∧
      (match waitingSpill.refillTo waitingSpill.st.sid waitingSpill.gr 0 (waitingSpill.lane 0) 0 32 128 with
        | .ok _ => true
        | .error _ => false) = true) ∧
    ((handling 3).st.privileged = true ∧ (handling 3).st.kind = .home ∧ (handling 3).st.gid = (handling 3).gr.gid ∧ (handling 3).confidential (handling 3).gr.ctx = false ∧ (handling 3).gr.alive ≠ 0) := by decide +kernel

theorem wit_PathEvents_frames :
    (let s := resident 64 101 100
     let x := s.gr.lanes.getD 0 Lane.start
     s.gr.live = true ∧ 0 < s.gr.lanes.length ∧ s.gr.allot - x.resident < 64 ∧ x.fb = x.lowres + 1 ∧ (∀ k ∈ List.range 256, s.window s.gr.ctx (s.gr.spillVa 0 k) = none) ∧ s.areaLoc s.gr.gid s.gr 0 (s.gr.spillVa 0 x.lowres) true = .ok (.dev 0x200C80)) ∧
    (let s := resident 256 40 32
     let x := s.gr.lanes.getD 0 Lane.start
     s.gr.live = true ∧ 0 < s.gr.lanes.length ∧ x.fb - x.lowres < 64 ∧ 32 ≤ x.lowres ∧ 96 ≤ s.gr.allot - x.resident ∧
     ∀ k ∈ List.range 32, s.areaLoc s.gr.gid s.gr 0 (s.gr.spillVa 0 (x.lowres - 32 + k)) false = .ok (.dev (0x200000 + 32 * k))) := by decide +kernel

/-- The unit of base, whose frame area and save area the TLBs translate; it may have a store on its way. -/
def saver (p : List PendStore) : State :=
  { base with tlb := [tlbAll 0 0x200000, tlbAll 42 0x400000], gr := { base.gr with fa := 0x200000, faw := 64 }, cores := [{ CoreRec.start 0 with sbase := 0x300000 }], ctxs := paged.ctxs, stores := p }
def askedSave (s : State) (precise : Bool) : State :=
  let q := s.modUnit s.un.uid (fun x => { x with saveVa := 0x400000, saving := some precise, saveWait := none })
  if precise then q.boundaries [s.st.sid] else q
def savedUnit : SavedUnit := ⟨base.un, [(saver []).gr], [base.st], [], [], 0, none, false⟩
/-- saver with its unit saved, none placed. -/
def away : State := { saver [] with st := Stream.none, gr := Group.none, un := UnitRec.none, saved := [savedUnit] }
/-- A stream that a CANCEL reached 65,536 cycles ago, and another of its unit. -/
def slow : State := { base with st := { base.st with cancelAt := some 0 }, streams := [{ base.st with sid := 2 }], dev := { base.dev with clock := 65536 } }

theorem wit_Preemption_asks :
    (saver []).un.uid ≠ 0 ∧ (saver []).un.live = true ∧ (saver []).un.saving = none ∧ (saver []).gr.live = true ∧ (saver []).st.sid ≠ 0 ∧ (saver []).st.gid = (saver []).gr.gid ∧
    (saver []).st.held = [] ∧ (saver []).unitStreams (saver []).un.uid = [(saver []).st] ∧ (saver []).recordOrder (saver []).un.uid = [(saver []).st.sid] ∧ (saver []).streams = [] ∧
    (∀ precise ∈ [true, false], (askedSave (saver []) precise).settled 1 = true ∧ (askedSave (saver [⟨9, 1, 1, [], none, none, 0⟩]) precise).settled 1 = false) ∧
    (saver []).un.uid = 1 ∧ (saver []).gr.gid = 1 := by decide +kernel

theorem wit_Preemption_saves :
    (saver []).debuggable 1 = true ∧ 
    ({ (saver []) with ctxs := [{ Ctx.fresh 1 with key := some 0 }] } : State).debuggable 1 = false := by decide +kernel

theorem wit_Preemption_saved_preempt : isOk ((askedSave (saver []) false).saveUnit ((askedSave (saver []) false).unitOf 1) false) = true := by decide +kernel

theorem wit_Preemption_saved_stop : isOk ((askedSave (saver []) true).saveUnit ((askedSave (saver []) true).unitOf 1) true) = true := by decide +kernel

theorem wit_Preemption_held : ∀ p ∈ [false, true], (let s := askedSave ({ (saver []) with tlb := [tlbAll 42 0x400000] } : State) p
    s.settled 1 = true ∧ isOk (s.saveUnit (s.unitOf 1) p) = false) := by decide +kernel

theorem wit_Preemption_restarts :
    away.saved.filter (fun x => x.unit.uid == savedUnit.unit.uid) = [savedUnit] ∧ away.debuggable savedUnit.unit.ctx = true ∧
    (∀ step ∈ [true, false],
      let w : SavedUnit := { savedUnit with queued := some (0, 0, step), unit := { savedUnit.unit with saveWait := none } }
      let s1 := away.modSaved savedUnit.unit.uid (fun y => { y with queued := some (0, 0, step), unit := { y.unit with saveWait := none } })
      (match s1.restartPlaces w 0 0 with
        | some x => isOk (s1.restoreUnit { w.wakeCmds with queued := none } x.1 x.2 step)
        | none => false) = true ∧ s1.restartPlaces w 0 36 = none) := by decide +kernel

theorem wit_Preemption_others :
    base.st.keepsPlace = false ∧ base.st.ext = none ∧ base.st.restart.pathd ≤ base.st.pathd ∧ base.st.sregs.length = 60 ∧ base.st.ix.length = 4 ∧ base.st.tb.length = 8 ∧
    (away.ctxRec 1).map (·.suspended) = some false ∧ (∀ u ∈ away.allUnits, u.live = true → u.uid ≠ 0 → u.ctx ≠ 1) ∧
    (({ away with ctxs := away.ctxs.map (fun (c : Ctx) => { c with suspended := true }) } : State).ctxRec 1).map (·.suspended) = some true ∧
    slow.st.cancelAt = some 0 ∧ 0 + 65536 ≤ slow.dev.clock.toNat ∧ slow.st.status ≠ .waitReplies ∧ (∀ x ∈ slow.streams, x.sid ≠ slow.st.sid) ∧
    (∀ u ∈ (slow.modStream slow.st.sid (fun x => { x with status := .stopped })).allUnits, (slow.modStream slow.st.sid (fun x => { x with status := .stopped })).allStopped u = false) := by decide +kernel

/-- A start that passes with the pairs of dies 1 and 3, and one that fails at a step. -/
def passing : StartReport := ⟨none, 0, 0, 1, 2, 3, [], [false, true, false, true]⟩
def failing : StartReport := { passing with failedStep := some 7 }
/-- base with a leader on die 0, context 1, and the pair of die 1 waiting since cycle 0. -/
def led (clock : Nat) : State :=
  { base with ctxs := paged.ctxs, dies := base.dies.map (fun (d : DieRec) => { d with pairOk := true, pairBist := true }), dev := { base.dev with clock := BitVec.ofNat 64 clock, leader := 0 } }
/-- A cluster that nothing stands on. -/
def cluster9 (trace : List (List Word)) (gated : Bool) : Cluster := ⟨9, trace, 0x300000, 4, 0, 3, gated, 0, 0⟩
def clustered (c : Cluster) : State := { led 40000 with clusters := [c], cores := [CoreRec.start (coreNo 1 20)] }
/-- A code object of one segment of zeros, its last clause short enough to end with the segment. -/
def imageOf (magic : Nat) : List Byte :=
  [magic, 0, 1, 0, 0, 0, 0x80, 0x80, 0x80, 0x80, 0x80, 0, 0x80, 0, 0x80, 4].flatMap (leBytes 4) ++ List.replicate 64 0 ++ leBytes 4 4096 ++
    List.replicate (4096 - 132) 0 ++ List.replicate 4083 0 ++ [0x30] ++ List.replicate 12 0

theorem wit_DeviceEvents_starts :
    startFailure passing [] passing.pairs = none ∧ startFailure failing [] failing.pairs = some 7 ∧ State.reset.dev.phase = .reset ∧ 2 ≤ ({ State.reset.dev with failures := 2 } : Device).failures ∧
    (∀ skip ∈ [[1, 2], [1, 2, 4]], startFailure passing skip (led 0).bistPairs = none) ∧ ((led 0).ctxRec 1).isSome = true := by decide +kernel

/-- A start whose one image has no authentic key, whichever hash the fuses hold of the two. -/
def forged (h : BitVec 512) : StartReport := { passing with rootHash := h, images := [⟨[], 0, [], [], 0⟩] }
theorem wit_DeviceEvents_forged : ∃ h, authenticImages (forged h) = false ∧ startFailure (forged h) [] (forged h).pairs = some 4 := by
  have h : ∃ h, authenticImages (forged h) = false := by
    by_cases e : Config.sha512 [] = 0
    · exact ⟨1, by simp [authenticImages, forged, e]⟩
    · exact ⟨0, by simp [authenticImages, forged]; exact fun h => absurd h e⟩
  obtain ⟨x, hx⟩ := h
  exact ⟨x, hx, by simp [startFailure, hx]; simp [forged, passing]⟩

theorem wit_DeviceEvents_dies :
    (∀ n ∈ [0, 1], ((led 20000000).dies.find? (fun x => x.die == n)).map (fun d => decide (d.die = n ∧ d.pairOk = true)) = some true) ∧
    (led 0).dev.leader = 0 ∧ (led 20000000).claims 1 = true ∧ (∀ x ∈ (led 20000000).dies, x.pairOk = true → x.hb = 0) ∧
    (led 0).st.sid ≠ 0 ∧ (led 0).st.gid = (led 0).gr.gid ∧ (led 0).st.kind = .home := by decide +kernel

theorem wit_DeviceEvents_clusters :
    (∀ c ∈ [cluster9 [] false, cluster9 [[7]] false, cluster9 [] true], (clustered c).clusters.find? (fun x => x.cluster == c.cluster) = some c ∧ c.ringCap ≠ 0 ∧
      c.ring + 64 * (c.drained % c.ringCap) + 4 ≤ Config.hbmBytes ∧ c.wakeAt ≤ (clustered c).dev.clock.toNat) ∧
    (clustered (cluster9 [] false)).idle (cluster9 [] false) 36000 = true ∧ (clustered (cluster9 [] false)).idle (cluster9 [] false) 6000 = true ∧
    (((clustered (cluster9 [[7]] false)).coreRec (coreNo 1 20)).map (fun x => decide (x.core = coreNo 1 20 ∧ clusterOf x.core = 9 ∧ x.ecnt.length = 16))) = some true := by decide +kernel

theorem imageOf_length (magic : Nat) : (imageOf magic).length = 8192 := by
  simp only [imageOf, List.length_append, List.length_replicate, List.length_flatMap, leBytes, List.length_map, List.length_range, List.map_cons, List.map_nil,
    List.sum_cons, List.sum_nil, List.length_cons, List.length_nil]
  rfl

theorem wit_DeviceEvents_objects : ∃ c, (led 0).ctxRec 1 = some c ∧ c.ctx = 1 ∧ (ObjHeader.parse (imageOf 5)).check (imageOf 5) c 0x10000000 = 1 ∧
    (ObjHeader.parse (imageOf 0x4A424F51)).check (imageOf 0x4A424F51) c 0x10000000 = 0 := by
  refine ⟨(led 0).ctxs.headD (Ctx.fresh 0), by decide +kernel, by decide +kernel, ?_, ?_⟩
  all_goals
    simp only [ObjHeader.check, imageOf_length]
    decide +kernel

theorem wit_DeviceEvents_placement :
    ((led 0).ctxRec 1).map (fun c => ((led 0).install c 0x10000000 [0x400000, 0x401000, 0x402000, 0x403000, 0x404000] (ObjHeader.parse (imageOf 0x4A424F51)) (imageOf 0x4A424F51)).isSome) = some true := by decide +kernel

/-- mem2 with a7 holding an even and an odd offset. -/
def awry : State := pad.mapLanes 3 (fun l x => x.setRegs 64 7 [BitVec.ofNat 32 (0x10 + l)])

theorem mask_spec (p out : Mask) (f : Nat → Bool) (h : ∀ l ∈ List.range 64, out.has l = (p.has l && f l)) : ∀ l, out.has l = (p.has l && f l) := by
  intro l
  by_cases hl : l < 64
  · exact h l (List.mem_range.2 hl)
  · have big : ∀ m : Mask, m.has l = false := fun m => BitVec.getLsbD_of_ge m l (by omega)
    rw [big, big, Bool.false_and]

theorem wit_LaneTraps_access :
    awry.isWave = false ∧ sizeBase 7 0 = false ∧ sizeBase 2 0 = true ∧ awry.active 0 = 3 ∧ (3 : Mask) ≠ 0 ∧ awry.beyondIn (awry.active 0) (accessFields 0 8 (regsOf 2)) ≠ 0 ∧
    (∀ a ∈ [1, 7], awry.beyondIn (awry.active 0) (accessFields 0 a (regsOf 2)) = 0) ∧
    (∀ x ∈ [(1, 3), (7, 0)], ∀ l, Mask.has (BitVec.ofNat 64 x.2) l = ((awry.active 0).has l && !awry.offsetOk 1 (awry.laneOff (BitVec.ofNat 6 x.1) l) (Machine.sizeOf 2))) ∧
    (∀ l, (2 : Mask).has l = ((awry.active 0).has l && !decide (((awry.tbReg 1).va + (awry.laneOff 7 l).toNat) % Machine.sizeOf 2 = 0))) ∧
    (∀ x ∈ [(1, 3), (7, 0)], ∀ l, Mask.has (BitVec.ofNat 64 x.2) l = ((awry.active 0).has l && !awry.scratchGood (awry.laneOff (BitVec.ofNat 6 x.1) l) (Machine.sizeOf 2))) ∧
    (∀ l, (2 : Mask).has l = ((awry.active 0).has l && !decide ((awry.laneOff 7 l).toNat % Machine.sizeOf 2 = 0))) := by
  refine ⟨by decide +kernel, by decide +kernel, by decide +kernel, by decide +kernel, by decide +kernel, by decide +kernel, by decide +kernel, ?_, mask_spec _ _ _ (by decide +kernel), ?_,
    mask_spec _ _ _ (by decide +kernel)⟩
  all_goals
    intro x hx
    apply mask_spec
    revert x
    decide +kernel

/-! Witnesses of clauses that were added later. -/

/-- base with the word w at its place, and LAUNCHes that owe registers. -/
def coded (w : Word) (owed : List (Nat × Nat)) : State :=
  { base with st := { base.st with owed := owed }, overlays := base.overlays.map (fun o => { o with words := [(base.st.pc.toNat % 4096, w)] }) }

theorem wit_StepRunsDecoded_held : ∀ x ∈ ([(0xB6000000, [], some .priv, none), (0x82028C38, [(5, 77)], none, some 77)] : List (Word × List (Nat × Nat) × Option Cause × Option Nat)),
    (let s := coded x.1 x.2.1
     let t := (s.focus 1).enterSlot
     s.dev.phase = .running ∧ s.events = [] ∧ s.dueWork.isNone = true ∧ s.mayIssue = true ∧ s.chosen.map (·.sid) = some 1 ∧
     t.st.wave.isNone = true ∧ t.st.edged = false ∧ t.st.status = .runnable ∧ t.st.pos ≠ 0 ∧ t.st.fresh = false ∧ t.breakpoints = 0 ∧
     t.codeWord t.st.pc = some x.1 ∧ t.barred x.1 = x.2.2.1 ∧ t.owedTo x.1 = x.2.2.2 ∧ isOk (decode x.1) = true) := by decide +kernel

/-- Two commands of one batch, the first done, the second failed. -/
def secondFailed : State :=
  let s := ordered .accz [0, 1] true .done
  { s with cmds := s.cmds ++ s.cmds.map (fun c => { c with id := c.id + 1, seq := c.seq + 1, state := .failed .prot 5 }) }

theorem wit_EngineBatches_first : secondFailed.goesOn = true ∧ secondFailed.uniGuard 0 = true ∧ secondFailed.owedBank = none ∧ (∀ c ∈ secondFailed.covered false 10, c.isOver = true) ∧
    (secondFailed.covered false 10).map (·.state) = [.done, .failed .prot 5] := by decide +kernel

/-- A CP.MMA of 16 bytes from VA 0x1010 with its matrix part, both retired: the part has AREG. -/
def paired : State :=
  let s := ordered (.copy 6) [0x1010, 0, 0, 0, 16, 0, 0, 0] false .retired
  { s with cmds := s.cmds ++ s.cmds.map (fun c => { c with id := c.id + 1, kind := .mma, arg := c.id, cbatch := none, mbatch := some 9, regs := [0x200010, 48] }) }
/-- The matrix part of a CP.MMA that waits for its copy. -/
def handing (done : Bool) : State :=
  let s := ordered .mma [0x10] true .waiting
  { s with cmds := s.cmds.map (fun c => { c with arg := 90 }) ++ s.cmds.map (fun c => { c with id := 90, kind := .copy 6, state := if done then .done else .accepted }) }

theorem wit_EngineProgress_accept :
    (∃ c ∈ (ordered .mma [0x200010, 48] true .retired).cmds, (ordered .mma [0x200010, 48] true .retired).cmd? c.id = some c ∧ c.state = .retired ∧ c.kind = .mma ∧ (c.w 0).getLsbD 21 = true ∧
      c.sid = (ordered .mma [0x200010, 48] true .retired).st.sid) ∧
    (∃ c ∈ (ordered .accrd [48, 0, 1] true .retired).cmds, (ordered .accrd [48, 0, 1] true .retired).cmd? c.id = some c ∧ c.state = .retired ∧ c.kind = .accrd ∧
      c.sid = (ordered .accrd [48, 0, 1] true .retired).st.sid) ∧
    (∃ c ∈ paired.cmds, paired.cmd? c.id = some c ∧ c.state = .retired ∧ c.sid = paired.st.sid ∧ c.kind = .copy 6 ∧ (copyShape 6 c.regs).words ≠ 0 ∧
      ∃ m ∈ paired.cmds, m.id ≠ c.id ∧ m.arg = c.id ∧ m.kind = .mma ∧ m.state = .retired ∧ m.gid = c.gid ∧ m.seq = c.seq ∧ m.cbatch = none ∧ (m.w 0).getLsbD 21 = true) := by
  decide +kernel

theorem wit_EngineProgress_waiting :
    (∃ c ∈ (ordered (.copy 0) [] true (.parked 0x5000)).cmds, (ordered (.copy 0) [] true (.parked 0x5000)).ofPair c = false) ∧
    (∀ d ∈ [true, false], ∃ c ∈ (handing d).cmds, (handing d).cmd? c.id = some c ∧ c.state = .waiting ∧ c.kind = .mma ∧ (c.w 0).getLsbD 22 = false ∧
      decide (∀ k ∈ (handing d).cmds, k.id = c.arg → k.state = .done) = d) ∧
    (ordered .accz [1, 2] true .accepted).gr.classBy = [] := by decide +kernel

/-- An MMAG of one entry at VA 0x200000, whose page die 0's engine has in its TLB, with the first two words of the entry given. -/
def tabled (a b : Nat) : State :=
  let s := ordered .mmag [0x200000, 0, 1] true .accepted
  { s with ctxs := paged.ctxs, tlb := [tlbAll 42 0x200000], mem := Memory.putN (Memory.putN [] 0x200000 a 4) 0x200004 b 4 }

theorem wit_EngineProgress_entries : ∀ x ∈ ([(0, 0, some .mshape), (1, 0x200000, none), (1, 0, some .mshape)] : List (Nat × Nat × Option Cause)),
    ∃ c ∈ (tabled x.1 x.2.1).cmds, (tabled x.1 x.2.1).cmd? c.id = some c ∧ c.kind = .mmag ∧ c.state = .accepted ∧ c.progress < (c.w 2).toNat ∧ c.buf = [] ∧
      (let s := tabled x.1 x.2.1
       let va := vaPair (c.w 0) (c.w 1) + 32 * c.progress
       (∀ k ∈ List.range 8, s.engWalk c.die c.ctx (va + 4 * k) = s ∧ s.cmdTrans c (va + 4 * k) needR = .ok (.dev (0x200000 + 4 * k))) ∧
       (let r := s.entryWords c.id va 9
        let d := mmagDesc (r.2.getD [])
        let g := r.1.groupOf c.gid
        r.2.isSome = true ∧ d.m = x.1 ∧ d.check c.fmt g.tiles.length (r.1.unitOf g.uid) g.coreIndex (r.1.classAt g c) = x.2.2 ∧
        r.1.operandHurt c g (r.1.unitOf g.uid) d = false)) := by decide +kernel

theorem wit_CopyBytes_pages :
    let s : State := { copying with tlb := [⟨42, 1, 0, 0x1000, 4096, .dev 0x200000, ⟨true, true, false⟩⟩] }
    ∃ c ∈ s.cmds, s.cmd? c.id = some c ∧ (∀ k ∈ List.range (copyShape 0 c.regs).words, s.engWalk c.die c.ctx ((copyShape 0 c.regs).src + 4 * k) = s ∧
        s.cmdTrans c ((copyShape 0 c.regs).src + 4 * k) needR = .ok (.dev (0x200010 + 4 * k)) ∧ 0x200010 + 4 * k + 4 ≤ Config.hbmBytes) ∧
      (∀ k ∈ List.range (copyShape 0 c.regs).words, ((s.scrLoc c ((copyShape 0 c.regs).dst + 4 * k)).map (fun l => s.poisoned true l 4)) = some false) := by decide +kernel

/-- A table with every index taken. -/
def fullTable : List ObjSlot := (List.range 4096).map (fun i => { obj0 with idx := i })
theorem fullTable_none (n i : Nat) (h : i + n ≤ 4096) : lowestIdx fullTable n i = none := by
  induction n generalizing i with
  | zero => rfl
  | succ k ih =>
    have : fullTable.any (fun o => o.idx == i && (o.live || o.ending)) = true :=
      List.any_eq_true.2 ⟨{ obj0 with idx := i }, List.mem_map.2 ⟨i, List.mem_range.2 (by omega), rfl⟩, by simp [obj0]⟩
    simp only [lowestIdx, this, if_true]
    exact ih (i + 1) (by omega)

theorem wit_Objects_full : ((objects []).ctxRec 1).isSome = true ∧ ∀ (c : Ctx) (w : List Word), ({ c with objects := fullTable } : Ctx).newObject w 0 = none := by
  refine ⟨by decide +kernel, fun c w => ?_⟩
  simp only [Ctx.newObject, fullTable_none 4096 0 (by decide), Option.map_none]

theorem wit_Objects_lanes :
    calling.goesOn = true ∧ calling.isWave = false ∧ (0#6).toNat < 55 ∧ calling.active 0 ≠ 0 ∧ (calling.modSt (fun t => { t with exm := 1 })).active 1 = 0 ∧ (calling.modSt (fun t => { t with exm := 1 })).goesOn = true ∧ calling.owedBank = none ∧ calling.st.held = [] ∧
    calling.modx.getLsbD 1 = false ∧ waving.beyondIn (waving.active 0) [0] = 0 ∧
    ((calling.ctxRec calling.gr.ctx).map (fun c => (c.objects.find? (fun x => x.handle == obj0.handle)).map (fun o => decide (o.queue = [] ∧ o.running = false)))) = some (some true) ∧
    (requested.requests.filter (fun x => x.sid == requested.st.sid)).length = 2 := by decide +kernel

/-- The object obj0 on die 0, whose table and state stand at VA 0x1000: method 6 of it is the code at VA 0x3000, which stands in the overlay of the core given. -/
def withMethod (s : State) (core : Nat) : State :=
  { s with mem := Memory.putN paged.mem 0x200050 0x3000 8, overlays := s.overlays ++ [⟨core, 1, 0x3000, [], false, 0, 0⟩] }
def startable : State := withMethod (objects [{ obj0 with die := 0, queue := [req0, { req0 with id := 31, method := 5 }] }]) 36
/-- A batch whose page fault has been repaired, in a context that rests or not. -/
def repairedWave (rests : Bool) : State :=
  let s := (withMethod waving 0).modSt (fun t => { t with status := .parked, faults := [⟨0, 0x5000, false, false, false, false, some true, false, 0, 4, false⟩] })
  { s with ctxs := s.ctxs.map (fun (c : Ctx) => { c with suspended := rests }), un := if rests then UnitRec.none else s.un }
/-- What methodReady asks of a batch of obj0 on the core of a state's stream. -/
def ready (s : State) (w : Wave) : Bool :=
  let table := (((s.ctxRec s.gr.ctx).bind (fun c => c.objects.find? (fun o => o.idx == w.obj))).map (·.table)).getD 0 + 8 * ((w.reqs[0]?).map (fun (r : ObjRequest) => r.method.toNat)).getD 0
  decide (s.translate s.gr.coreId s.gr.ctx table needR = .ok (.dev 0x200050)) && s.getN (.dev 0x200050) 8 == 0x3000 && s.segPresent 0x3000 &&
    (List.range w.stateSize).all (fun i => decide (s.translate s.gr.coreId s.gr.ctx (w.stateVa + i) needRW = .ok (.dev (0x200010 + i))))

theorem wit_ObjectBatches_start :
    (∃ o ∈ (startable.ctxRec 1).elim [] (·.objects), o.queue = [req0, { req0 with id := 31, method := 5 }] ∧ (batchOf o).length = 1 ∧ startable.freeConj 0 = some 0 ∧
      oldest (startable.heads 0) = some (1, o, req0) ∧ (∀ x ∈ (startable.ctxRec 1).elim [] (·.objects), x.idx = o.idx → x = o) ∧
      (∀ x ∈ startable.allStreams, x.sid < startable.nextId) ∧ (∀ g ∈ startable.allGroups, g.gid < startable.nextId) ∧
      (let q := (startable.placeWave 0 0 1 o).focus (startable.nextId + 1)
       (q.st.wave.map (fun w => ready q w)) = some true)) := by decide +kernel

theorem wit_ObjectBatches_rerun : ∀ b ∈ [true, false], (repairedWave b).st.wave = some wave0 ∧ (repairedWave b).isWave = true ∧ (repairedWave b).st.sid ≠ 0 ∧ (repairedWave b).st.status = .parked ∧
    (∀ f ∈ (repairedWave b).st.faults, f.settled = some true) ∧ (repairedWave b).batchesRest (repairedWave b).gr.ctx = b ∧
    (b = false → ready ((repairedWave b).modSt (fun x => { x with status := .runnable })) wave0 = true) := by decide +kernel

theorem wit_Levels_streams :
    let goes : Stream → Bool := fun x => decide (x.status = .runnable ∨ (x.status = .entryParked ∧ x.faults = []) ∨ x.heldAtIssue = true ∨ x.status = .waitReplies)
    goes base.st = true ∧ goes { base.st with status := .entryParked } = true ∧ goes { base.st with status := .waitSpill } = true ∧ goes { base.st with status := .waitReplies } = true ∧
    goes { base.st with status := .waitBarrier 0 } = false := by decide +kernel

/-- launching, whose die's engine has the record's page in its TLB. -/
def launchingHit : State := { launching with tlb := [⟨42, 1, 0, 0x1000, 4096, .dev 0x200000, ⟨true, true, false⟩⟩] }

theorem wit_LaunchIntake_child_hit : ∃ c ∈ launchingHit.cmds, launchingHit.cmd? c.id = some c ∧ c.kind = .launch ∧ c.state = .accepted ∧ c.buf = [] ∧ c.dropped = false ∧ launchingHit.accepting = true ∧
    (∀ k ∈ List.range 32, launchingHit.engWalk c.die c.ctx (vaPair (c.w 0) (c.w 1) + 4 * k) = launchingHit ∧
      launchingHit.cmdTrans c (vaPair (c.w 0) (c.w 1) + 4 * k) needR = .ok (.dev (0x200000 + 4 * k))) := by decide +kernel

theorem wit_LaunchIntake_child_level : ∀ y : QueuedRec, y.graphid = 0 → y.phaseid = 0 → launchingHit.beneathCancelled 1 y = false := by
  intro y h1 h2
  have hc : launchingHit.counters = [] := by decide +kernel
  simp [State.beneathCancelled, hc]

theorem wit_LaunchIntake_dies :
    (let s := fired [[], [1, 5], [], []]
     s.launches.map (fun l => decide (l.nextUnit 1 = some 8 ∧ s.tryDie l 0 = none ∧ (s.freeSlots l l.fields.groups).isSome = true ∧
       (s.coresFor 1 l.ctx l.fields.nb (1024 * l.fields.scratch) 36 0 ((List.range l.fields.coreCount).map l.fields.coreGroups)).isSome = true)) = [true] ∧ ∀ y ∈ s.ctxs, y.suspended = false) ∧
    (let s := fired [[], [], [], []]
     s.launches.map (fun l => decide (∀ e ∈ List.range 4, s.tryDie l e = none ∧ l.asks e = false)) = [true]) := by decide +kernel

theorem wit_Walks_filled : (walk0.filled none 0x20001D 0).isSome = true ∧ ((walking walks).dieRec 0).walks.find? (fun x => x.tag == 5) = some walk0 ∧
    (0x20001D : Nat).testBit 0 = true ∧ (0x20001D : Nat).testBit 5 = false ∧ (0x20001D : Nat).testBit 6 = false ∧ pteFrame 0x20001D < Config.hbmBytes ∧
    (0x20001C : Nat).testBit 0 = false ∧ (0x2000000 + 0x21 + 0x1000 : Nat).testBit 5 = true ∧ pteFrame (0x2000000 + 0x21 + 0x1000) / 4096 % 16 ≠ 0 := by decide +kernel

theorem wit_Walks_waiting : (let s : State := base.modSt (fun t => { t with status := .waitWalk, peer := [⟨64, 0x2000, true, none, true⟩] })
    s.st.sid ≠ 0 ∧ s.st.status = .waitWalk ∧ s.st.peer = [⟨64, 0x2000, true, none, true⟩]) := by decide +kernel

theorem wit_Walks_bound : (let s := paged.modSt (fun t => { t with tb := t.tb.set 0 (paged.bindTb 1 0x1000 0) })
    s.st.gid = s.gr.gid ∧ s.st.tb.any (fun t => t.bound && coversRun 0x1000 1 t.va t.limit) = true) := by decide +kernel

theorem wit_PathEvents_slots :
    (let s := atClause 0x40 0x20000080 false []
     s.st.marked = false ∧ s.st.fresh = false ∧ (s.slotOf s.st s.gr.coreId s.gr.ctx (segOf s.st.pc)).isSome = true) ∧
    (let s := (atClause 0x40 0x20000080 false []).modSt (fun t => { t with fresh := true })
     (s.slotFor s.gr.coreId s.gr.ctx (segOf s.st.pc)).isSome = true) ∧
    (parkedIn false).owedBank = none ∧
    (match entering.putBlock entering.st.bank with
      | .ok b => b.segPresent entering.st.pc && entering.st.exm.lanes.all (fun l => decide ((b.lane l).fb + 18 + (b.lane l).locals + 58 - b.gr.allot ≤ (b.lane l).lowres))
      | .error _ => false) = true := by decide +kernel

theorem wit_PathEvents_hits :
    let s : State := { (resident 256 40 32) with tlb := (resident 256 40 32).tlb ++ [⟨(resident 256 40 32).gr.coreId, 1, 0, 0x1000, 4096, .dev 0x200000, ⟨true, true, false⟩⟩] }
    ∀ k ∈ List.range 32, (s.tlbHit s.gr.coreId s.gr.ctx (s.gr.spillVa 0 k)).isSome = true ∧ s.areaLoc s.gr.gid s.gr 0 (s.gr.spillVa 0 k) false = .ok (.dev (0x200000 + 32 * k)) := by decide +kernel

theorem wit_Preemption_join : (let x : Stream := { base.st with status := .waitJoin }
    x.status = .waitJoin ∧ x.keepsPlace = true) ∧ savedUnit.dropped = false ∧ away.debuggable savedUnit.unit.ctx = true := by decide +kernel

theorem wit_DeviceEvents_warm : (∃ k, startFailure failing (if base.dev.authMeas = some (measOf failing) then [1, 2, 4] else [1, 2]) base.bistPairs = some k) ∧
    (∃ k, startFailure failing [] failing.pairs = some k ∧ 7 ≤ k) := by
  refine ⟨⟨7, ?_⟩, ⟨7, ?_, ?_⟩⟩ <;> decide +kernel

theorem wit_StorePerforms_encrypted : (let s : State := { storing with stores := storing.stores.map (fun x => { x with writes := [(.enc 5 0x1000, 7), (.enc 5 0x1001, 8)] }) }
    s.stores.map (·.id) = [7] ∧ ∀ x ∈ s.stores, ∀ w ∈ x.writes, w.1 = .enc 5 w.1.num) := by decide +kernel

/-- Two regions of one IADD and one ISUB: a clause each under a JOINAT to the region's end, BSYNC 0 between them, EXIT last (R44, R45, R347; the words of R53 and R54). -/
theorem test_umell_template : templateCode [{ words := [0x02A51080], depth := 0, cross := false, unordered := false }, { words := [0x02A51081], depth := 0, cross := false, unordered := false }] 64 =
    [0x1000FF00, 0x44000003, 0x1000FF00, 0x02A51080, 0x1000FF00, 0x50000000, 0x1000FF00, 0x44000003, 0x1000FF00, 0x02A51081, 0x1000FF00, 0x4E000000] := by decide +kernel

end Sys2Proof.Tests
end

section
/-!
SUPPORT. The lane shapes of R74 in the terms of Safety.lean: what an instruction of each shape writes, and what it traps with. The hypothesis he names the shape of an instruction; exec gives it by rfl.
-/
namespace Sys2Proof.Machine

variable {i : Instr} {s : State} {g : BitVec 4} {d a b : BitVec 6} {legal : Bool} {fields : List Nat} {v : Nat → List (Nat × Word)}

/-- The shape of R74: a function of the lane that writes the registers of a list. -/
theorem laneWrites_perLane {f : Nat → Lane → Lane} (he : exec i s = s.run (s.perLane g legal fields f)) (hl : legal = true)
    (hf : ∀ l x, f l x = (v l).foldl (fun y w => y.setReg s.gr.allot w.1 w.2) x) : LaneWrites i s g fields v := by
  intro hgo hb
  have hfun : f = fun l x => (v l).foldl (fun y w => y.setReg s.gr.allot w.1 w.2) x := funext fun l => funext (hf l)
  rw [Retires, he, run_perLane s g legal fields f hl hgo hb, hfun]
  rfl

theorem laneWrites_alu1 {f : Word → Word} (he : exec i s = s.run (s.alu1 g d a f)) (hv : ∀ l, v l = [(d.toNat, f (s.reg l a.toNat))]) :
    LaneWrites i s g [d.toNat, a.toNat] v :=
  laneWrites_perLane he rfl (fun l _ => by rw [hv l]; rfl)

theorem laneWrites_alu2 {f : Word → Word → Word} (he : exec i s = s.run (s.alu2 g d a b f))
    (hv : ∀ l, v l = [(d.toNat, f (s.reg l a.toNat) (s.reg l b.toNat))]) : LaneWrites i s g [d.toNat, a.toNat, b.toNat] v :=
  laneWrites_perLane he rfl (fun l _ => by rw [hv l]; rfl)

theorem laneWrites_alu3 {f : Word → Word → Word → Word} (he : exec i s = s.run (s.alu3 g d a b f))
    (hv : ∀ l, v l = [(d.toNat, f (s.reg l d.toNat) (s.reg l a.toNat) (s.reg l b.toNat))]) : LaneWrites i s g [d.toNat, a.toNat, b.toNat] v :=
  laneWrites_perLane he rfl (fun l _ => by rw [hv l]; rfl)

theorem alu2x_narrow (f : Word → Word → Word) (h : Pair → Pair → Pair) (hw : s.wide = false) : s.alu2x g d a b f h = s.alu2 g d a b f := by
  simp [State.alu2x, hw]

theorem alu2x_wide (f : Word → Word → Word) (h : Pair → Pair → Pair) (hw : s.wide = true) : s.alu2x g d a b f h = s.alu2w g d a b h := by
  simp [State.alu2x, hw]

/-- A W64 consumer without W64 is the 32-bit operation (R75). -/
theorem laneWrites_alu2x_narrow {f : Word → Word → Word} {h : Pair → Pair → Pair} (he : exec i s = s.run (s.alu2x g d a b f h)) (hw : s.wide = false)
    (hv : ∀ l, v l = [(d.toNat, f (s.reg l a.toNat) (s.reg l b.toNat))]) : LaneWrites i s g [d.toNat, a.toNat, b.toNat] v :=
  laneWrites_alu2 (he.trans (by rw [alu2x_narrow f h hw])) hv

/-- A W64 consumer under W64 writes both words of the pair (R4, R75). -/
theorem laneWrites_alu2x_wide {f : Word → Word → Word} {h : Pair → Pair → Pair} (he : exec i s = s.run (s.alu2x g d a b f h)) (hw : s.wide = true)
    (hd : isPair d.toNat = true) (ha : isPair a.toNat = true) (hb : isPair b.toNat = true)
    (hv : ∀ l, v l = pairWords d (h (s.regPair l a.toNat) (s.regPair l b.toNat))) : LaneWrites i s g (pairFields d a b) v :=
  laneWrites_perLane (he.trans (by rw [alu2x_wide f h hw]; rfl)) (by simp [hd, ha, hb]) (fun l _ => by rw [hv l]; rfl)

/-- The static check of R74 fails: ILLEGAL for EXM. -/
theorem traps_illegal {f : Nat → Lane → Lane} (he : exec i s = s.run (s.perLane g legal fields f)) (hl : legal = false) :
    Traps i s .illegal s.st.exm := by
  intro hld ho
  rw [he, ← run_trap s s .illegal s.st.exm hld ho]
  simp [State.perLane, hl]

/-- A local beyond L in some lane of the guard: REG_BOUND for those lanes (R8, R74). -/
theorem traps_regBound {f : Nat → Lane → Lane} (he : exec i s = s.run (s.perLane g legal fields f)) (hl : legal = true)
    (hb : s.beyondIn (s.active g) fields ≠ 0) : Traps i s .regBound (s.beyondIn (s.active g) fields) := by
  intro hld ho
  rw [he, ← run_trap s s .regBound _ hld ho, State.perLane, hl, if_neg (by decide), if_pos hb]

/-- The traps of a W64 consumer: ILLEGAL where a pair is misaligned, REG_BOUND at either width (R9, R75). -/
theorem traps_alu2x {f : Word → Word → Word} {h : Pair → Pair → Pair} (he : exec i s = s.run (s.alu2x g d a b f h)) :
    (s.wide = true → (isPair d.toNat && isPair a.toNat && isPair b.toNat) = false → Traps i s .illegal s.st.exm) ∧
    (s.wide = true → (isPair d.toNat && isPair a.toNat && isPair b.toNat) = true → s.beyondIn (s.active g) (pairFields d a b) ≠ 0 →
      Traps i s .regBound (s.beyondIn (s.active g) (pairFields d a b))) ∧
    (s.wide = false → s.beyondIn (s.active g) [d.toNat, a.toNat, b.toNat] ≠ 0 →
      Traps i s .regBound (s.beyondIn (s.active g) [d.toNat, a.toNat, b.toNat])) := by
  have wide (hw : s.wide = true) : exec i s = s.run (s.alu2w g d a b h) := by rw [he, alu2x_wide f h hw]
  have narrow (hw : s.wide = false) : exec i s = s.run (s.alu2 g d a b f) := by rw [he, alu2x_narrow f h hw]
  exact ⟨fun hw hp => traps_illegal (wide hw) hp, fun hw hp hb => traps_regBound (wide hw) hp hb, fun hw hb => traps_regBound (narrow hw) rfl hb⟩

end Sys2Proof.Machine
end

section
/-!
SUPPORT. The integer operations of Flags.lean bit by bit and as arithmetic (R81 to R84).
-/
namespace Sys2Proof.Machine

/-! Shifts (R81) -/

/-- SHRA divides by the power of two, towards minus infinity. -/
theorem shra_eq_div (a b : Word) : shra a b = BitVec.ofInt 32 (a.toInt / 2 ^ (b.toNat % 32)) := by
  rw [shra, BitVec.sshiftRight, Int.shiftRight_eq_div_pow]
  norm_cast

theorem rotl_eq_rotateLeft (a b : Word) : rotl a b = a.rotateLeft (b.toNat % 32) := by
  have hlt : b.toNat % 32 < 32 := Nat.mod_lt _ (by decide)
  rw [rotl, BitVec.rotateLeft_def, Nat.mod_mod]
  by_cases h0 : b.toNat % 32 = 0
  · simp [h0, BitVec.ushiftRight_eq_zero]
  · rw [Nat.mod_eq_of_lt (show 32 - b.toNat % 32 < 32 by omega)]

/-- The count of a shift by an immediate is the immediate. -/
theorem shiftCount_setWidth (n : BitVec 5) : (n.setWidth 32 : Word).toNat % 32 = n.toNat := by
  rw [BitVec.toNat_setWidth]
  omega

/-! Counts (R82) -/

theorem popCount_toNat (a : Word) : (popCount a).toNat = (List.range 32).countP (fun k => a.getLsbD k) := by
  have h : (List.range 32).countP a.getLsbD ≤ 32 := List.countP_le_length
  rw [popCount, BitVec.toNat_ofNat, Nat.mod_eq_of_lt (by omega)]

/-- The length of the run of places below n, from the highest down, at which p fails. -/
def failsFromTop (p : Nat → Bool) (n : Nat) : Nat := ((List.range n).reverse.takeWhile (fun i => !p i)).length

theorem failsFromTop_succ (p : Nat → Bool) (n : Nat) : failsFromTop p (n + 1) = if p n then 0 else failsFromTop p n + 1 := by
  cases h : p n <;> simp [failsFromTop, List.range_succ, h]

/-- The run ends below the lowest place or at one where p holds. -/
theorem failsFromTop_spec (p : Nat → Bool) (n : Nat) :
    failsFromTop p n ≤ n ∧ (∀ i, n - failsFromTop p n ≤ i → i < n → p i = false) ∧ (∀ i, i + 1 + failsFromTop p n = n → p i = true) := by
  induction n with
  | zero => exact ⟨Nat.le_refl 0, fun i _ h => absurd h (Nat.not_lt_zero i), fun i h => by omega⟩
  | succ n ih =>
    obtain ⟨hle, hfalse, htrue⟩ := ih
    rw [failsFromTop_succ]
    cases hp : p n with
    | true =>
      simp only [if_true]
      refine ⟨Nat.zero_le _, fun i h1 h2 => by omega, fun i h => ?_⟩
      obtain rfl : i = n := by omega
      exact hp
    | false =>
      simp only [Bool.false_eq_true, if_false]
      refine ⟨by omega, fun i h1 h2 => ?_, fun i h => htrue i (by omega)⟩
      rcases Nat.lt_succ_iff_lt_or_eq.1 h2 with h | rfl
      · exact hfalse i (by omega) h
      · exact hp

theorem leadingZeros_toNat (a : Word) : (leadingZeros a).toNat = failsFromTop a.getLsbD 32 := by
  have h := (failsFromTop_spec a.getLsbD 32).1
  exact Nat.mod_eq_of_lt (Nat.lt_of_le_of_lt h (by decide))

/-! Bit fields (R83) -/

/-- A word built by setting, below n, the bits at which p holds. -/
theorem getLsbD_setBits (p : Nat → Bool) (n i : Nat) (hi : i < 32) :
    ((List.range n).foldl (fun r k => if p k then r ||| ((1#32) <<< k) else r) 0#32).getLsbD i = (decide (i < n) && p i) := by
  induction n with
  | zero => simp
  | succ n ih =>
    have hbit : ((1#32) <<< n).getLsbD i = decide (i = n) := by
      rw [← BitVec.twoPow_eq, BitVec.getLsbD_twoPow]
      grind
    rw [List.range_succ, List.foldl_append, List.foldl_cons, List.foldl_nil]
    by_cases hin : i = n
    · subst hin
      cases hp : p i <;> simp [ih, hbit, hp]
    · have hlt : i ≤ n ↔ i < n := by omega
      cases hp : p n <;> simp [ih, hbit, hin, hlt]

theorem getLsbD_bitReverse (a : Word) (i : Nat) (hi : i < 32) : (bitReverse a).getLsbD i = a.getLsbD (31 - i) := by
  rw [bitReverse, getLsbD_setBits (fun k => a.getLsbD (31 - k)) 32 i hi]
  simp [hi]

/-- The word of n low ones. -/
theorem getLsbD_lowOnes (n i : Nat) (hi : i < 32) : (BitVec.ofNat 32 (2 ^ n - 1)).getLsbD i = decide (i < n) := by
  rw [BitVec.getLsbD_ofNat, Nat.testBit_two_pow_sub_one]
  simp [hi]

theorem getLsbD_fieldMask (p n i : Nat) (hi : i < 32) :
    (BitVec.ofNat 32 ((2 ^ n - 1) <<< p)).getLsbD i = decide (p ≤ i ∧ i < p + n) := by
  rw [BitVec.getLsbD_ofNat, Nat.testBit_shiftLeft, Nat.testBit_two_pow_sub_one]
  grind

/-- A field ends within the word (R83). -/
theorem bitField_bound (b : Word) (h : (bitField b).2 ≠ 0) : (bitField b).1 + (bitField b).2 ≤ 32 := by
  simp only [bitField] at h ⊢
  omega

theorem getLsbD_bfeU (a b : Word) (i : Nat) (hi : i < 32) :
    (bfeU a b).getLsbD i = (decide (i < (bitField b).2) && a.getLsbD ((bitField b).1 + i)) := by
  rw [bfeU]
  split
  · next h => simp [h]
  · rw [BitVec.getLsbD_and, getLsbD_lowOnes _ i hi, BitVec.getLsbD_ushiftRight, Bool.and_comm]

theorem getLsbD_bfeS (a b : Word) (i : Nat) (hi : i < 32) :
    (bfeS a b).getLsbD i = (decide ((bitField b).2 ≠ 0) && a.getLsbD ((bitField b).1 + min i ((bitField b).2 - 1))) := by
  rw [bfeS]
  split
  · next h => simp [h]
  · next h =>
    have hb := bitField_bound b h
    generalize (bitField b).1 = p at *
    generalize (bitField b).2 = n at *
    rw [BitVec.getLsbD_sshiftRight, BitVec.msb_eq_getLsbD_last]
    simp only [BitVec.getLsbD_shiftLeft, BitVec.getLsbD_ushiftRight]
    by_cases hin : i < n
    · rw [if_pos (by omega), Nat.min_eq_left (by omega), show 32 - n + i - (32 - n) = i by omega]
      simp [h, hi, show 32 - n + i < 32 by omega]
    · rw [if_neg (by omega), Nat.min_eq_right (by omega), show 32 - 1 - (32 - n) = n - 1 by omega]
      simp [h, hi, show ¬ 31 < 32 - n by omega]

theorem getLsbD_bfi (d a b : Word) (i : Nat) (hi : i < 32) :
    (bfi d a b).getLsbD i =
      if (bitField b).1 ≤ i ∧ i < (bitField b).1 + (bitField b).2 then a.getLsbD (i - (bitField b).1) else d.getLsbD i := by
  rw [bfi]
  split
  · next h => rw [if_neg (by omega)]
  · simp only [BitVec.getLsbD_or, BitVec.getLsbD_and, BitVec.getLsbD_not, getLsbD_fieldMask _ _ i hi, BitVec.getLsbD_shiftLeft]
    by_cases hin : (bitField b).1 ≤ i ∧ i < (bitField b).1 + (bitField b).2
    · simp [hin, hi]
    · simp [hin, hi]

/-! Immediates (R48, R50) -/

theorem joinImm_toNat {w : Nat} (x : BitVec 24) (i : BitVec w) (hw : w ≤ 32) : (joinImm x i).toNat = (x.toNat * 2 ^ w + i.toNat) % 2 ^ 32 := by
  have hi : i.toNat < 2 ^ 32 := Nat.lt_of_lt_of_le i.isLt (Nat.pow_le_pow_right (by decide) hw)
  have hx : x.toNat < 2 ^ 32 := by omega
  rw [joinImm, BitVec.toNat_or, BitVec.toNat_shiftLeft, BitVec.toNat_setWidth, BitVec.toNat_setWidth, Nat.mod_eq_of_lt hx, ← Nat.shiftLeft_eq,
    Nat.shiftLeft_add_eq_or_of_lt i.isLt, Nat.or_mod_two_pow]

variable {s : State} {w : Nat}

theorem immS_plain (i : BitVec w) (h : s.extImm = none) : s.immS i = i.signExtend 32 := by simp [State.immS, h]

theorem immZ_plain (i : BitVec w) (h : s.extImm = none) : s.immZ i = i.setWidth 32 := by simp [State.immZ, h]

theorem immS_extended (i : BitVec w) {x : BitVec 24} (h : s.extImm = some x) : s.immS i = joinImm x i := by simp [State.immS, h]

theorem immZ_extended (i : BitVec w) {x : BitVec 24} (h : s.extImm = some x) : s.immZ i = joinImm x i := by simp [State.immZ, h]

end Sys2Proof.Machine
end

section
/-!
The integer instructions of lane registers: O10, O12, O13.
-/
namespace Sys2Proof.Machine

/-- Settles O10: each form is a shape of R74, completed and trapped by that shape's lemma. -/
theorem integerArithmetic : Obligations.IntegerArithmetic := by
  intro s g d a b
  refine ⟨fun hw => ?narrow, fun hw hd ha hb => ?wide, laneWrites_alu3 rfl (fun _ => rfl), laneWrites_alu2 rfl (fun _ => rfl), ?traps, fun hbound => ?bound⟩
  case narrow =>
    exact ⟨laneWrites_alu2x_narrow rfl hw (fun _ => rfl), laneWrites_alu2x_narrow rfl hw (fun _ => rfl),
      laneWrites_alu2x_narrow rfl hw (fun _ => rfl), laneWrites_alu2x_narrow rfl hw (fun _ => rfl),
      laneWrites_alu2x_narrow rfl hw (fun _ => rfl), laneWrites_alu2x_narrow rfl hw (fun _ => rfl)⟩
  case wide =>
    exact ⟨laneWrites_alu2x_wide rfl hw hd ha hb (fun _ => rfl), laneWrites_alu2x_wide rfl hw hd ha hb (fun _ => rfl),
      laneWrites_alu2x_wide rfl hw hd ha hb (fun _ => rfl), laneWrites_alu2x_wide rfl hw hd ha hb (fun _ => rfl),
      laneWrites_alu2x_wide rfl hw hd ha hb (fun _ => rfl), laneWrites_alu2x_wide rfl hw hd ha hb (fun _ => rfl)⟩
  case traps =>
    rintro i (rfl | rfl | rfl | rfl | rfl | rfl)
    · exact traps_alu2x (i := .iadd g d a b) rfl
    · exact traps_alu2x (i := .isub g d a b) rfl
    · exact traps_alu2x (i := .imin g d a b) rfl
    · exact traps_alu2x (i := .imax g d a b) rfl
    · exact traps_alu2x (i := .iminn g d a b) rfl
    · exact traps_alu2x (i := .imaxn g d a b) rfl
  case bound => exact ⟨traps_regBound rfl rfl hbound, traps_regBound rfl rfl hbound⟩

/-- Settles O12: the two-register and one-register shapes of R74, and the bit lemmas of the operations. -/
theorem shiftsAndLogic : Obligations.ShiftsAndLogic := by
  refine ⟨fun s g d a b => ?_, fun d a b i hi => ?_⟩
  · exact ⟨laneWrites_alu2 rfl (fun _ => rfl),
      laneWrites_alu2 rfl (fun _ => rfl),
      laneWrites_alu2 rfl (fun _ => by rw [shra_eq_div]),
      laneWrites_alu2 rfl (fun _ => by rw [rotl_eq_rotateLeft]),
      laneWrites_alu2 rfl (fun _ => rfl),
      laneWrites_alu2 rfl (fun _ => rfl),
      laneWrites_alu2 rfl (fun _ => rfl),
      laneWrites_alu2 rfl (fun _ => rfl),
      laneWrites_alu2 rfl (fun _ => rfl),
      laneWrites_alu2 rfl (fun _ => rfl),
      laneWrites_alu1 rfl (fun _ => rfl),
      laneWrites_alu1 rfl (fun _ => rfl),
      laneWrites_alu1 rfl (fun _ => rfl),
      laneWrites_alu2 rfl (fun _ => rfl),
      laneWrites_alu2 rfl (fun _ => rfl),
      laneWrites_alu3 rfl (fun _ => rfl)⟩
  · obtain ⟨hle, hfalse, htrue⟩ := failsFromTop_spec a.getLsbD 32
    rw [leadingZeros_toNat]
    exact ⟨popCount_toNat a, hle, fun h => hfalse i h hi, htrue i, getLsbD_bitReverse a i hi, getLsbD_bfeS a b i hi, getLsbD_bfeU a b i hi,
      getLsbD_bfi d a b i hi⟩

/-- Settles O13: the one-register shape of R74 with the immediate as the second operand, and the two readings of an immediate. -/
theorem immediates : Obligations.Immediates := by
  intro s g d a i n
  refine ⟨laneWrites_alu1 rfl (fun _ => rfl),
    laneWrites_alu1 rfl (fun _ => rfl),
    laneWrites_alu1 rfl (fun _ => rfl),
    laneWrites_alu1 rfl (fun _ => rfl),
    laneWrites_alu1 rfl (fun _ => rfl),
    laneWrites_alu1 rfl (fun _ => by rw [shl, shiftCount_setWidth]),
    laneWrites_alu1 rfl (fun _ => by rw [shr, shiftCount_setWidth]),
    laneWrites_alu1 rfl (fun _ => by rw [shra, shiftCount_setWidth]),
    laneWrites_alu1 rfl (fun _ => by rw [rotl_eq_rotateLeft, shiftCount_setWidth]), fun hext => ?_, fun x hext => ?_⟩
  · have himm : s.extImm = none := by simp [State.extImm, hext]
    exact ⟨immS_plain i himm, immZ_plain i himm⟩
  · have himm : s.extImm = some x := by simp [State.extImm, hext]
    rw [immS_extended i himm, immZ_extended i himm]
    exact ⟨joinImm_toNat x i (by decide), rfl⟩

end Sys2Proof.Machine
end

section
/-!
SUPPORT. The decoder and the encoder against each other (R42, R47, R53 to R55): the fields of a word, the word of an instruction, and the majors that no format takes.
-/
namespace Sys2Proof

open BitVec (extractLsb'_append_eq_of_le extractLsb'_append_eq_right extractLsb'_append_extractLsb'_eq_extractLsb' extractLsb'_eq_self)

/-- Bit i of a word stands in the field that covers it (R42). -/
theorem getLsbD_join (f : Fields) (i : Nat) : f.join.getLsbD i =
    if i < 3 then f.fn.getLsbD i else if i < 9 then f.b.getLsbD (i - 3) else if i < 15 then f.a.getLsbD (i - 9) else if i < 21 then f.d.getLsbD (i - 15)
    else if i < 25 then f.g.getLsbD (i - 21) else if i < 31 then f.maj.getLsbD (i - 25) else f.s.getLsbD (i - 31) := by
  show (f.s ++ f.maj ++ f.g ++ f.d ++ f.a ++ f.b ++ f.fn : BitVec (1 + 6 + 4 + 6 + 6 + 6 + 3)).getLsbD i = _
  simp only [BitVec.getLsbD_append, Nat.sub_sub]
  grind

/-- A field of a word that was put together is that field. -/
theorem split_join (f : Fields) : Fields.split f.join = f := by
  obtain ⟨s, maj, g, d, a, b, fn⟩ := f
  simp only [Fields.split, Fields.mk.injEq]
  refine ⟨?_, ?_, ?_, ?_, ?_, ?_, ?_⟩ <;>
  · apply BitVec.eq_of_getLsbD_eq
    intro i hi
    rw [BitVec.getLsbD_extractLsb', getLsbD_join]
    grind

/-- The instruction that a word of i stands for: CALLR under guard 13 is the word of CALLR.U (R133). -/
def Instr.canonical (i : Instr) : Instr :=
  match i with
  | .callr g a => if g = 13 then .callrU a else .callr g a
  | j => j

/-- Decoding the fields of an instruction gives it back; a field that the format cuts is put together again. -/
theorem decodeFields_encodeFields (i : Instr) (f : Fields) (h : encodeFields i = some f) : decodeFields f = .ok i.canonical := by
  cases i <;> cases h
  case callr g a => exact (apply_ite Except.ok (g = 13) (Instr.callrU a) (.callr g a)).symm
  case shli | shri | shrai | rotli | lds | sts | bsync | barv | bwait | xld | xst | extImmediate | extOperand =>
    simp [decodeFields, decodeLane, decodeExt, Instr.canonical, extractLsb'_append_eq_of_le (v := 4) (w := 2), extractLsb'_append_eq_of_le (v := 3) (w := 3),
      extractLsb'_append_eq_of_le (v := 2) (w := 4), extractLsb'_append_eq_of_le (v := 1) (w := 3), extractLsb'_append_eq_of_le (v := 2) (w := 1),
      extractLsb'_append_eq_of_le (v := 1) (w := 1), extractLsb'_append_eq_right (w := 4) (w' := 2), extractLsb'_append_eq_right (w := 3) (w' := 3),
      extractLsb'_append_eq_right (w := 2) (w' := 4), extractLsb'_append_eq_right (w := 1) (w' := 3), extractLsb'_append_eq_right (w := 2) (w' := 1),
      extractLsb'_append_eq_right (w := 1) (w' := 1), extractLsb'_append_extractLsb'_eq_extractLsb' (w := 5) (len₂ := 2) (len₁ := 3),
      extractLsb'_append_extractLsb'_eq_extractLsb' (w := 7) (len₂ := 4) (len₁ := 3),
      extractLsb'_append_extractLsb'_eq_extractLsb' (w := 12) (len₂ := 3) (len₁ := 6),
      extractLsb'_append_extractLsb'_eq_extractLsb' (w := 12) (len₂ := 9) (len₁ := 3),
      extractLsb'_append_extractLsb'_eq_extractLsb' (w := 24) (len₂ := 3) (len₁ := 6),
      extractLsb'_append_extractLsb'_eq_extractLsb' (w := 24) (len₂ := 9) (len₁ := 6),
      extractLsb'_append_extractLsb'_eq_extractLsb' (w := 24) (len₂ := 15) (len₁ := 6),
      extractLsb'_append_extractLsb'_eq_extractLsb' (w := 24) (len₂ := 21) (len₁ := 3),
      extractLsb'_append_extractLsb'_eq_extractLsb' (w := 6) (len₂ := 3) (len₁ := 3), extractLsb'_eq_self]
  all_goals
    refine Eq.trans (b := .ok _) rfl ?_
    simp [Instr.canonical, extractLsb'_append_eq_of_le (v := 3) (w := 3), extractLsb'_append_eq_of_le (v := 2) (w := 4),
      extractLsb'_append_eq_of_le (v := 1) (w := 1), extractLsb'_append_eq_of_le (v := 5) (w := 1), extractLsb'_append_eq_of_le (v := 3) (w := 2),
      extractLsb'_append_eq_right (w := 4) (w' := 2), extractLsb'_append_eq_right (w := 3) (w' := 3), extractLsb'_append_eq_right (w := 2) (w' := 4),
      extractLsb'_append_eq_right (w := 1) (w' := 5), extractLsb'_append_eq_right (w := 1) (w' := 1), extractLsb'_append_eq_right (w := 5) (w' := 1),
      extractLsb'_append_eq_right (w := 3) (w' := 2), extractLsb'_append_extractLsb'_eq_extractLsb' (w := 8) (len₂ := 5) (len₁ := 3),
      extractLsb'_append_extractLsb'_eq_extractLsb' (w := 9) (len₂ := 6) (len₁ := 3),
      extractLsb'_append_extractLsb'_eq_extractLsb' (w := 15) (len₂ := 6) (len₁ := 6),
      extractLsb'_append_extractLsb'_eq_extractLsb' (w := 15) (len₂ := 12) (len₁ := 3),
      extractLsb'_append_extractLsb'_eq_extractLsb' (w := 21) (len₂ := 6) (len₁ := 6),
      extractLsb'_append_extractLsb'_eq_extractLsb' (w := 21) (len₂ := 12) (len₁ := 6),
      extractLsb'_append_extractLsb'_eq_extractLsb' (w := 21) (len₂ := 18) (len₁ := 3),
      extractLsb'_append_extractLsb'_eq_extractLsb' (w := 12) (len₂ := 6) (len₁ := 6),
      extractLsb'_append_extractLsb'_eq_extractLsb' (w := 7) (len₂ := 6) (len₁ := 1), extractLsb'_eq_self]

/-- An instruction that has a word and is the one that its word decodes to. -/
def Instr.Coded (i : Instr) : Prop := (∃ f, encodeFields i = some f) ∧ i.canonical = i

theorem coded_of_decodeLane {f : Fields} {i : Instr} (h : decodeLane f = .ok i) : i.Coded := by
  revert h
  fun_cases decodeLane f
  case case126 hg =>
    rintro ⟨⟩
    exact ⟨⟨_, rfl⟩, if_neg hg⟩
  all_goals
    rintro ⟨⟩
  all_goals
    exact ⟨⟨_, rfl⟩, rfl⟩

theorem coded_of_decodeUniform {f : Fields} {i : Instr} (h : decodeUniform f = .ok i) : i.Coded := by
  revert h
  fun_cases decodeUniform f
  all_goals
    rintro ⟨⟩
  all_goals
    exact ⟨⟨_, rfl⟩, rfl⟩

theorem coded_decodeExt (f : Fields) : (decodeExt f).Coded := by
  fun_cases decodeExt f <;> exact ⟨⟨_, rfl⟩, rfl⟩

theorem coded_of_decodeFields {f : Fields} {i : Instr} (h : decodeFields f = .ok i) : i.Coded := by
  revert h
  fun_cases decodeFields f
  case case5 =>
    rintro ⟨⟩
    exact coded_decodeExt f
  case case6 => exact coded_of_decodeLane
  case case7 => exact coded_of_decodeUniform
  all_goals
    rintro ⟨⟩
    exact ⟨⟨_, rfl⟩, rfl⟩

theorem decode_of_encode {i : Instr} {w : Word} (h : encode i = some w) : decode w = .ok i.canonical := by
  obtain ⟨f, hf, rfl⟩ := Option.map_eq_some_iff.1 h
  rw [decode, split_join]
  exact decodeFields_encodeFields i f hf

/-- The words that decode to i decode as the word of i does. -/
theorem encode_of_decode {w : Word} {i : Instr} (h : decode w = .ok i) : ∃ v, encode i = some v ∧ decode v = .ok i := by
  obtain ⟨⟨f, hf⟩, hcanon⟩ := coded_of_decodeFields h
  have he : encode i = some f.join := by rw [encode, hf, Option.map_some]
  exact ⟨f.join, he, hcanon ▸ decode_of_encode he⟩

/-! Reserved major opcodes (R47, R55) -/

theorem decodeLane_reserved {f : Fields} (h : (0x2D ≤ f.maj.toNat ∧ f.maj.toNat ≤ 0x37) ∨ (0x3C ≤ f.maj.toNat ∧ f.maj.toNat ≤ 0x3E)) :
    decodeLane f = .error .reservedMajor := by
  fun_cases decodeLane f <;> simp_all

theorem decodeUniform_reserved {f : Fields} (h : (0x1E ≤ f.maj.toNat ∧ f.maj.toNat ≤ 0x37) ∨ (0x3C ≤ f.maj.toNat ∧ f.maj.toNat ≤ 0x3E)) :
    decodeUniform f = .error .reservedMajor := by
  fun_cases decodeUniform f <;> simp_all

/-- Neither EXT nor the hint region is a reserved major: such a word goes to the decoder of its set. -/
theorem decodeFields_reserved {f : Fields} (h : (0x1E ≤ f.maj.toNat ∧ f.maj.toNat ≤ 0x37) ∨ (0x3C ≤ f.maj.toNat ∧ f.maj.toNat ≤ 0x3E)) :
    decodeFields f = if f.s = 0#1 then decodeLane f else decodeUniform f := by
  fun_cases decodeFields f <;> simp_all

end Sys2Proof
end

section
/-!
Encoding: O1, O3.
-/
namespace Sys2Proof.Machine

/-- Settles O1: the fields of a word that is put together are those put in, field by field. -/
theorem roundTrip : Obligations.RoundTrip :=
  ⟨fun _ _ h => decode_of_encode h, fun _ _ h => encode_of_decode h⟩

/-- Settles O3: the decoders of both sets have no alternative for a reserved major. -/
theorem reservedMajors : Obligations.ReservedMajors := by
  intro w m h
  have hs : (Fields.split w).s = 0#1 ↔ w.getLsbD 31 = false := by
    show w.extractLsb' 31 1 = 0#1 ↔ _
    rw [BitVec.getLsbD_eq_extractLsb']
    generalize w.extractLsb' 31 1 = b
    revert b
    decide
  have hm : (Fields.split w).maj.toNat = m := rfl
  rcases h with ⟨hlane, hmaj⟩ | ⟨huni, hmaj⟩
  · rw [decode, decodeFields_reserved (by omega), if_pos (hs.2 hlane)]
    exact decodeLane_reserved hmaj
  · rw [decode, decodeFields_reserved (by omega), if_neg (by simp [hs, huni])]
    exact decodeUniform_reserved hmaj

end Sys2Proof.Machine
end

section
/-!
The step and the states that it starts from: O2, O4, O5, O6, O7.
-/
namespace Sys2Proof.Machine

/-! What a step ends with -/

theorem marksPinned_dropMarked (s : State) : s.dropMarked.marksPinned := by
  intro o ho hm
  have hkeep : (!o.marked || s.pinned o) = true := (List.mem_filter.1 ho).2
  rw [hm] at hkeep
  exact hkeep

/-- A cycle ends with the drop of the marked slots that nothing pins. -/
theorem marksPinned_tick (s : State) (n : Nat) : (s.tick n).marksPinned := marksPinned_dropMarked _

/-- An outcome that leaves no marked slot without a pin. -/
def Pins (o : Host.Outcome State Fault Refusal) : Prop := ∀ t, o = .next t → t.marksPinned

theorem pins_tick (s : State) (n : Nat) : Pins (.next (s.tick n)) := by
  rintro t ⟨⟩
  exact marksPinned_tick s n

theorem pins_fault (f : Fault) : Pins (.fault f) := by
  rintro t ⟨⟩

theorem pins_refused (r : Refusal) : Pins (.refused r) := by
  rintro t ⟨⟩

theorem pins_cycle (o : Host.Outcome State Fault Refusal) : Pins (cycle o) := by
  cases o with
  | next s => exact pins_tick s 0
  | fault f => exact pins_fault f
  | refused r => exact pins_refused r

theorem pins_issueCycle (sid gid : Nat) (o : Host.Outcome State Fault Refusal) : Pins (issueCycle sid gid o) := by
  cases o with
  | next s =>
    unfold issueCycle
    dsimp only
    split
    · exact pins_tick _ _
    · exact pins_tick _ _
  | fault f => exact pins_fault f
  | refused r => exact pins_refused r

theorem pins_issueStep (s : State) : Pins s.issueStep := by
  unfold State.issueStep
  split
  · exact pins_tick s 0
  · split
    · exact pins_tick _ 0
    · exact pins_issueCycle _ _ _

theorem pins_step (s : State) : Pins (step s) := by
  unfold step
  split
  · exact pins_fault _
  · split
    · exact pins_cycle _
    · split
      · exact pins_cycle _
      · exact pins_issueStep s

/-- Settles O6: whatever a step did, its cycle ends with the drop of the marked slots that nothing pins. -/
theorem markedSlotsPinned : Obligations.MarkedSlotsPinned := fun s s' _ h => pins_step s s' h

/-! The order of a step -/

theorem step_event (s : State) (i : Instr) (r : List Instr) (hp : s.dev.phase ≠ .stopped) (he : s.events = i :: r) :
    step s = cycle (exec i { s with events := r }) := by
  unfold step
  split
  · next h => exact absurd h hp
  · simp [he]

theorem step_stopped (s : State) (hp : s.dev.phase = .stopped) : step s = .fault .moduleStopped := by
  unfold step
  rw [hp]

theorem step_issues (s : State) (x : Stream) (hp : s.dev.phase = .running) (he : s.events = []) (hd : s.dueWork = none) (hm : s.mayIssue = true)
    (hc : s.chosen = some x) :
    step s = match s.issue x with
      | .done t => .next (t.tick 0)
      | .run i t => issueCycle x.sid x.gid (exec i t) := by
  unfold step
  simp [hp, he, hd, State.issueStep, hm, hc] <;> rfl

/-- Settles O5: the two first cases of a step. -/
theorem stepOrder : Obligations.StepOrder := by
  refine ⟨fun s i r hp he => ?_, step_stopped⟩
  rw [step_event s i r hp he]
  cases exec i { s with events := r } <;> rfl

/-! The fetch of a word -/

/-- The slot alone changes. -/
theorem enterSlot_st (s : State) : ∃ n, s.enterSlot.st = { s.st with slot := n } := by
  unfold State.enterSlot
  split
  · exact ⟨_, rfl⟩
  · exact ⟨s.st.slot, rfl⟩

/-- A stream that stands in its clause, with nothing else to do first, fetches the next word. -/
theorem issue_fetchWord (s : State) (x : Stream) (hw : (s.focus x.sid).enterSlot.st.wave = none) (hx : (s.focus x.sid).enterSlot.st.edged = false)
    (hr : (s.focus x.sid).enterSlot.st.status = .runnable) (hp : (s.focus x.sid).enterSlot.st.pos ≠ 0) : s.issue x = (s.focus x.sid).fetchWord := by
  obtain ⟨n, hn⟩ := enterSlot_st (s.focus x.sid)
  rw [hn] at hw hx hr hp
  dsimp only at hw hx hr hp
  simp [State.issue, hw, hx, hr, hp]

/-- What a fetched word does, with no breakpoint there. -/
theorem fetchWord_word (s : State) (w : Word) (hf : s.enterSlot.st.fresh = false) (hb : s.enterSlot.breakpoints = 0)
    (hw : s.enterSlot.codeWord s.enterSlot.st.pc = some w) :
    s.fetchWord = match s.enterSlot.barred w with
      | some c => .done (s.enterSlot.takeTrap c s.enterSlot.st.exm [] TrapInfo.plain)
      | none =>
        match decode w, s.enterSlot.owedTo w with
        | .error _, _ => .done (s.enterSlot.takeTrap .illegal s.enterSlot.st.exm [] TrapInfo.plain)
        | .ok _, some id => .done (s.enterSlot.modSt (fun x => { x with status := .waitAccept id }))
        | .ok i, none => .run i s.enterSlot := by
  obtain ⟨n, hn⟩ := enterSlot_st s
  have hfresh : s.st.fresh = false := by rw [hn] at hf; exact hf
  unfold State.fetchWord
  simp [hfresh, hb, hw] <;> rfl

/-- Settles O4: the issue of the chosen stream reaches the fetched word, whose three outcomes are its three parts. -/
theorem stepRunsDecoded : Obligations.StepRunsDecoded := by
  rintro s x w i hp he hd hm hc _ rfl hwave hedged hrun hpos hfresh hbreak hword
  have hissue := (issue_fetchWord s x hwave hedged hrun hpos).trans (fetchWord_word _ w hfresh hbreak hword)
  have hstep := step_issues s x hp he hd hm hc
  rw [hissue] at hstep
  refine ⟨fun hbar howed hdec => ?_, fun c hbar => ?_, fun id hbar howed hdec => ?_⟩
  · rw [hstep]
    simp only [hbar, howed, hdec]
    cases exec i (s.focus x.sid).enterSlot with
    | next u =>
      simp only [issueCycle]
      split <;> rfl
    | fault f => rfl
    | refused r => rfl
  · rw [hstep]
    simp only [hbar]
  · rw [hstep]
    simp only [hbar, howed, hdec]

/-! The states that a step starts from -/

theorem getD_replicate {α : Type} (n k : Nat) (a b : α) (h : k < n) : (List.replicate n a).getD k b = a := by
  simp [List.getD, h]

/-- Settles O7: the state after reset and a stream's first state, read off their definitions. -/
theorem startStates : Obligations.StartStates := by
  refine ⟨⟨?_, ⟨rfl, rfl⟩, rfl, rfl, rfl, rfl, rfl, rfl, rfl⟩, fun sid gid pc m => ?_⟩
  · intro o ho
    exact absurd ho List.not_mem_nil
  · refine ⟨rfl, rfl, rfl, rfl, rfl, rfl, rfl, rfl, fun n hn => getD_replicate 60 n 0 1 hn, fun n hn => getD_replicate 4 n 0 1 hn, fun n hn => ?_, rfl, rfl,
      rfl, rfl, fun _ _ => rfl⟩
    exact (List.getElem?_replicate ..).trans (if_pos hn)

/-- Settles O2: each word is decoded. -/
theorem writtenWords : Obligations.WrittenWords := by
  refine ⟨by decide, by decide, by decide, by decide, by decide, by decide, by decide⟩

end Sys2Proof.Machine
end

section
/-!
Registers written and the frame of a lane instruction: O8, O9.
-/
namespace Sys2Proof.Machine

/-! A lane register written -/

theorem setReg_of_winWord {x : Lane} {n w : Nat} (allot : Nat) (v : Word) (h : x.winWord n = some w) : x.setReg allot n v = x.putWord allot w v := by
  simp [Lane.setReg, h]

theorem atPos_putWord (x : Lane) (allot w pos : Nat) (v : Word) : (x.putWord allot w v).atPos pos = if pos = w % allot then v else x.atPos pos :=
  sparseGet_put _ _ _ _ _

/-- A word of the column at a place that no window word of the field has stays. -/
theorem atPos_setReg (x : Lane) (allot n pos : Nat) (v : Word) (h : ∀ k, x.winWord n = some k → k % allot ≠ pos) :
    (x.setReg allot n v).atPos pos = x.atPos pos := by
  cases hw : x.winWord n with
  | none => simp [Lane.setReg, hw]
  | some w => rw [setReg_of_winWord allot v hw, atPos_putWord, if_neg (h w hw).symm]

/-- The column is all of a lane that a register write changes. -/
theorem setReg_col (x : Lane) (allot n : Nat) (v : Word) : { x.setReg allot n v with col := x.col } = x := by
  cases hw : x.winWord n with
  | none => simp [Lane.setReg, hw]
  | some w => rw [setReg_of_winWord allot v hw, Lane.putWord, Lane.putPos]

theorem winWord_setReg (x : Lane) (allot n m : Nat) (v : Word) : (x.setReg allot n v).winWord m = x.winWord m := by
  obtain ⟨hfb, hlocals, -, -⟩ := Lane.setReg_window x allot n v
  simp only [Lane.winWord, hfb, hlocals]

/-! A scalar register written -/

theorem sreg_setSreg_ne (s : State) (n m : Nat) (v : Word) (h : m ≠ n) : (s.setSreg n v).sreg m = s.sreg m := by
  unfold State.setSreg
  split
  · simp [State.sreg, List.getD, Ne.symm h]
  · rfl

theorem setSreg_discard (s : State) (n : Nat) (v : Word) (h : 60 ≤ n) : s.setSreg n v = s := if_neg (by omega)

/-- Settles O8: the two register files, each by the case of a field that names a word and the case of one that does not. -/
theorem registerWrites : Obligations.RegisterWrites := by
  refine ⟨fun x allot n v => ⟨fun w hw => ?_, Lane.setReg_discard x allot n v, setReg_col x allot n v⟩, fun s n m v hlen => ⟨fun hn => ?_, ?_, ?_⟩⟩
  · rw [setReg_of_winWord allot v hw]
    exact ⟨by rw [Lane.word_putWord, if_pos rfl], fun pos hpos => by rw [atPos_putWord, if_neg hpos]⟩
  · rw [sreg_setSreg s n n v (by omega) hn hn, if_pos rfl]
  · exact sreg_setSreg_ne s n m v
  · exact setSreg_discard s n v

/-! Registers of several lanes written -/

/-- The registers of a list, written in order. -/
def Lane.setRegList (x : Lane) (allot : Nat) (ws : List (Nat × Word)) : Lane := ws.foldl (fun y w => y.setReg allot w.1 w.2) x

@[simp] theorem setRegList_nil (x : Lane) (allot : Nat) : x.setRegList allot [] = x := rfl

@[simp] theorem setRegList_cons (x : Lane) (allot : Nat) (w : Nat × Word) (ws : List (Nat × Word)) :
    x.setRegList allot (w :: ws) = (x.setReg allot w.1 w.2).setRegList allot ws := rfl

theorem setRegList_col (x : Lane) (allot : Nat) (ws : List (Nat × Word)) : { x.setRegList allot ws with col := x.col } = x := by
  induction ws generalizing x with
  | nil => rfl
  | cons w ws ih =>
    have hrest := ih (x.setReg allot w.1 w.2)
    have hone := setReg_col x allot w.1 w.2
    rw [setRegList_cons]
    calc { (x.setReg allot w.1 w.2).setRegList allot ws with col := x.col }
        = { { (x.setReg allot w.1 w.2).setRegList allot ws with col := (x.setReg allot w.1 w.2).col } with col := x.col } := rfl
      _ = { x.setReg allot w.1 w.2 with col := x.col } := by rw [hrest]
      _ = x := hone

theorem atPos_setRegList (x : Lane) (allot pos : Nat) (ws : List (Nat × Word)) (h : ∀ w ∈ ws, ∀ k, x.winWord w.1 = some k → k % allot ≠ pos) :
    (x.setRegList allot ws).atPos pos = x.atPos pos := by
  induction ws generalizing x with
  | nil => rfl
  | cons w ws ih =>
    rw [setRegList_cons, ih, atPos_setReg _ _ _ _ _ (h w (List.mem_cons_self ..))]
    intro u hu k hk
    rw [winWord_setReg] at hk
    exact h u (List.mem_cons_of_mem _ hu) k hk

theorem writeLanes_eq (s : State) (m : Mask) (v : Nat → List (Nat × Word)) :
    s.writeLanes m v = s.mapLanes m (fun l x => x.setRegList s.gr.allot (v l)) := rfl

/-- A lane after a change of the lanes of a set; one that the group does not have is as at the start. -/
theorem lane_mapLanes_cases (s : State) (m : Mask) (f : Nat → Lane → Lane) (l : Nat) :
    (s.mapLanes m f).lane l = s.lane l ∨ (m.has l = true ∧ (s.mapLanes m f).lane l = f l (s.lane l)) := by
  by_cases hl : l < s.gr.lanes.length
  · rw [lane_mapLanes s m f l hl]
    cases hm : m.has l
    · exact .inl rfl
    · exact .inr ⟨rfl, rfl⟩
  · have hlen : (s.mapLanes m f).gr.lanes.length = s.gr.lanes.length := by simp [State.mapLanes]
    left
    simp [State.lane, List.getD, hlen, hl]

/-- Settles O9: the frame of a change of lanes, then what the words written leave of each lane. -/
theorem laneFrame : Obligations.LaneFrame := by
  intro s m v
  rw [writeLanes_eq]
  refine ⟨rfl, rfl, rfl, rfl, rfl, rfl, rfl, rfl, rfl, rfl, rfl, rfl, rfl, rfl, rfl, rfl, rfl, rfl, ?_, rfl, fun l => ?_, fun l pos h => ?_⟩
  · exact List.length_mapIdx
  · rcases lane_mapLanes_cases s m (fun l x => x.setRegList s.gr.allot (v l)) l with hl | ⟨-, hl⟩
    · exact (congrArg (fun x : Lane => { x with col := (s.lane l).col }) hl).trans rfl
    · exact (congrArg (fun x : Lane => { x with col := (s.lane l).col }) hl).trans (setRegList_col _ _ _)
  · rcases lane_mapLanes_cases s m (fun l x => x.setRegList s.gr.allot (v l)) l with hl | ⟨hm, hl⟩
    · exact congrArg (·.atPos pos) hl
    · refine (congrArg (·.atPos pos) hl).trans (atPos_setRegList _ _ _ _ ?_)
      rcases h with h | h
      · rw [hm] at h
        exact Bool.noConfusion h
      · exact h

end Sys2Proof.Machine
end

section
/-!
SUPPORT. Sets of lanes, and the lane shapes of R74 that change predicates or read their own lane.
-/
namespace Sys2Proof

theorem Mask.ext {a b : Mask} (h : ∀ l, a.has l = b.has l) : a = b := BitVec.eq_of_getLsbD_eq (fun l _ => h l)

theorem Mask.has_one (n l : Nat) (hl : l < 64) : (Mask.one n).has l = decide (l = n) := by
  have hbit : (1#64 <<< n).getLsbD l = decide (l = n) := by
    rw [← BitVec.twoPow_eq, BitVec.getLsbD_twoPow]
    grind
  exact hbit

theorem Mask.has_or (a b : Mask) (l : Nat) : (a ||| b).has l = (a.has l || b.has l) := BitVec.getLsbD_or

theorem Mask.has_minus (a b : Mask) (l : Nat) : (a.minus b).has l = (a.has l && !b.has l) := by
  by_cases hl : l < 64
  · simp [Mask.has, Mask.minus, hl]
  · simp [Mask.has, Mask.minus, BitVec.getLsbD_of_ge _ _ (Nat.le_of_not_lt hl)]

theorem Mask.has_zero (l : Nat) : Mask.has 0 l = false := BitVec.getLsbD_zero

/-- A lane of a set is one of the 64. -/
theorem Mask.lt_of_has {m : Mask} {l : Nat} (h : m.has l = true) : l < 64 := by
  by_contra hl
  rw [Mask.has, BitVec.getLsbD_of_ge _ _ (Nat.le_of_not_lt hl)] at h
  exact Bool.noConfusion h

/-- The sets of the lanes below n for which p holds, built one by one. -/
theorem Mask.has_foldl_one (p : Nat → Bool) (n l : Nat) (hl : l < 64) :
    Mask.has ((List.range n).foldl (fun m k => if p k then m ||| Mask.one k else m) 0#64) l = (decide (l < n) && p l) := by
  induction n with
  | zero => simp [Mask.has]
  | succ n ih =>
    rw [List.range_succ, List.foldl_append, List.foldl_cons, List.foldl_nil]
    by_cases hln : l = n
    · subst hln
      cases hp : p l <;> simp [Mask.has_or, ih, Mask.has_one, hl, hp]
    · have hlt : l < n + 1 ↔ l < n := by omega
      cases hp : p n <;> simp [Mask.has_or, ih, Mask.has_one, hl, hln, hlt]

theorem Mask.has_ofPred (p : Nat → Bool) (l : Nat) : (Mask.ofPred p).has l = (decide (l < 64) && p l) := by
  by_cases hl : l < 64
  · rw [Mask.ofPred, Mask.has_foldl_one p 64 l hl]
  · simp [Mask.has, BitVec.getLsbD_of_ge _ _ (Nat.le_of_not_lt hl), hl]

/-- The lanes of a set for which p holds. -/
theorem Mask.has_ofPred_and (m : Mask) (p : Nat → Bool) (l : Nat) : (Mask.ofPred (fun k => m.has k && p k)).has l = (m.has l && p l) := by
  rw [Mask.has_ofPred]
  by_cases hl : l < 64
  · simp [hl]
  · simp [hl, Mask.has, BitVec.getLsbD_of_ge _ _ (Nat.le_of_not_lt hl)]

theorem Mask.eq_ofPred_and {m out : Mask} {p : Nat → Bool} (h : ∀ l, out.has l = (m.has l && p l)) : out = Mask.ofPred (fun k => m.has k && p k) :=
  Mask.ext (fun l => by rw [h, Mask.has_ofPred_and])

theorem Mask.eq_zero_iff (m : Mask) : m = 0 ↔ ∀ l, m.has l = false :=
  ⟨fun h l => by rw [h, Mask.has_zero], fun h => Mask.ext (fun l => by rw [h, Mask.has_zero])⟩

end Sys2Proof

namespace Sys2Proof.Machine

/-- What a function of the lane gives depends on the group's lanes alone. -/
theorem mapLanes_congr {s : State} {m : Mask} {f h : Nat → Lane → Lane} (e : ∀ l, m.has l = true → f l (s.lane l) = h l (s.lane l)) :
    s.mapLanes m f = s.mapLanes m h := by
  have hlanes : s.gr.lanes.mapIdx (fun l x => if m.has l then f l x else x) = s.gr.lanes.mapIdx (fun l x => if m.has l then h l x else x) := by
    apply List.ext_getElem (by simp)
    intro l hl _
    have hlt : l < s.gr.lanes.length := by simpa using hl
    have hlane : s.lane l = s.gr.lanes[l] := by simp [State.lane, List.getD, hlt]
    cases hm : m.has l with
    | false => simp [hm]
    | true =>
      have hl' := e l hm
      rw [hlane] at hl'
      simp [hm, hl']
  rw [State.mapLanes, State.mapLanes, hlanes]

variable {i : Instr} {s : State} {g p : BitVec 4} {legal : Bool} {fields : List Nat}

/-- The shape of R74 for a function of the lane that writes one predicate (R89, R90). -/
theorem laneTests_perLane {f : Nat → Lane → Lane} {v : Nat → Bool} (he : exec i s = s.run (s.perLane g legal fields f))
    (hl : p.toNat < 12 → legal = true) (hf : ∀ l, f l (s.lane l) = (s.lane l).setPred p.toNat (v l)) : LaneTests i s g fields p v := by
  intro hgo hp hb
  rw [Retires, he, run_perLane s g legal fields f (hl hp) hgo hb, mapLanes_congr (h := fun l x => x.setPred p.toNat (v l)) (fun l _ => hf l)]

/-- The shape of R74 in the terms of the statement that names its function. -/
theorem retires_perLane {f h : Nat → Lane → Lane} (he : exec i s = s.run (s.perLane g legal fields f)) (hl : legal = true) (hf : ∀ l x, f l x = h l x)
    (hgo : s.goesOn = true) (hb : s.beyondIn (s.active g) fields = 0) : Retires i s (s.mapLanes (s.active g) h) false := by
  rw [Retires, he, run_perLane s g legal fields f hl hgo hb, funext fun l => funext (hf l)]

/-- A fused form takes its addend from d (R51). -/
theorem laneWrites_alu3c_none {d a b : BitVec 6} {f : Word → Word → Word → Word} {v : Nat → List (Nat × Word)} (he : exec i s = s.run (s.alu3c g d a b f))
    (hc : s.extC = none) (hv : ∀ l, v l = [(d.toNat, f (s.reg l d.toNat) (s.reg l a.toNat) (s.reg l b.toNat))]) :
    LaneWrites i s g [d.toNat, a.toNat, b.toNat] v :=
  laneWrites_alu3 (he.trans (by simp [State.alu3c, hc])) hv

/-- A fused form takes its addend from the register that C names (R51). -/
theorem laneWrites_alu3c_some {d a b c : BitVec 6} {f : Word → Word → Word → Word} {v : Nat → List (Nat × Word)}
    (he : exec i s = s.run (s.alu3c g d a b f)) (hc : s.extC = some c)
    (hv : ∀ l, v l = [(d.toNat, f (s.reg l c.toNat) (s.reg l a.toNat) (s.reg l b.toNat))]) :
    LaneWrites i s g [d.toNat, a.toNat, b.toNat, c.toNat] v :=
  laneWrites_perLane (he.trans (by simp only [State.alu3c, hc]; rfl)) rfl (fun l _ => by rw [hv l]; rfl)

end Sys2Proof.Machine
end

section
/-!
Products, moves, compares and predicate logic of lanes: O11, O14, O15.
-/
namespace Sys2Proof.Machine

/-! Products (R79) -/

theorem mulHigh_eq (a b : Word) : mulHigh a b = BitVec.ofInt 32 (a.toInt * b.toInt / 2 ^ 32) := by
  apply BitVec.eq_of_toNat_eq
  rw [mulHigh]
  generalize a.toInt * b.toInt = z
  simp only [BitVec.extractLsb'_toNat, BitVec.toNat_ofInt, Nat.shiftRight_eq_div_pow]
  omega

theorem mulHighU_eq (a b : Word) : mulHighU a b = BitVec.ofNat 32 (a.toNat * b.toNat / 2 ^ 32) := by
  apply BitVec.eq_of_toNat_eq
  rw [mulHighU]
  generalize a.toNat * b.toNat = z
  simp only [BitVec.extractLsb'_toNat, BitVec.toNat_ofNat, Nat.shiftRight_eq_div_pow]
  omega

/-- Settles O11: the two-register shape with the words of the exact product; IMAC by where its addend is. -/
theorem integerMultiply : Obligations.IntegerMultiply := fun s g d a b =>
  ⟨laneWrites_alu2 rfl (fun _ => rfl),
    laneWrites_alu2 rfl (fun _ => by rw [mulHigh_eq]),
    laneWrites_alu2 rfl (fun _ => by rw [mulHighU_eq]),
    fun hc => laneWrites_alu3c_none rfl hc (fun _ => rfl),
    fun _ hc => laneWrites_alu3c_some rfl hc (fun _ => rfl)⟩

/-! Moves (R85, R86) -/

/-- Settles O14: each move is the shape of R74. -/
theorem moves : Obligations.Moves := fun s g d a b i =>
  ⟨laneWrites_perLane rfl rfl (fun _ _ => rfl),
    laneWrites_alu1 rfl (fun _ => rfl),
    laneWrites_perLane rfl rfl (fun _ _ => rfl),
    retires_perLane rfl rfl (fun _ _ => rfl),
    retires_perLane rfl rfl (fun _ _ => rfl),
    fun hgo hb => retires_perLane rfl (decide_eq_true hb) (fun _ _ => rfl) hgo⟩

/-! Compares (R89, R102) -/

theorem exec_iset_narrow {s : State} (g : BitVec 4) (c : BitVec 2) (p : BitVec 4) (a b : BitVec 6) (f : BitVec 3) (hw : s.wide = false) :
    exec (.iset g c p a b f) s = s.run (s.perLane g (decide (p.toNat < 12)) [a.toNat, b.toNat]
      (fun l x => x.setPred p.toNat (combine c (x.pred p.toNat) (intCond f (s.reg l a.toNat) (s.reg l b.toNat))))) := by
  change execIset g c p a b f s = _
  simp [execIset, hw]

theorem exec_iset_wide {s : State} (g : BitVec 4) (c : BitVec 2) (p : BitVec 4) (a b : BitVec 6) (f : BitVec 3) (hw : s.wide = true) :
    exec (.iset g c p a b f) s = s.run (s.perLane g (decide (p.toNat < 12) && isPair a.toNat && isPair b.toNat) [a.toNat, a.toNat + 1, b.toNat, b.toNat + 1]
      (fun l x => x.setPred p.toNat (combine c (x.pred p.toNat) (intCond f (s.regPair l a.toNat) (s.regPair l b.toNat))))) := by
  change execIset g c p a b f s = _
  simp [execIset, hw]

/-- The conditions of an integer compare by their codes. -/
theorem intCond_codes (a b : Word) :
    intCond 0 a b = decide (a = b) ∧ intCond 1 a b = decide (a ≠ b) ∧ intCond 2 a b = decide (a.toInt < b.toInt) ∧
    intCond 3 a b = decide (a.toInt ≤ b.toInt) ∧ intCond 4 a b = decide (a.toInt > b.toInt) ∧ intCond 5 a b = decide (a.toInt ≥ b.toInt) ∧
    intCond 6 a b = decide (a.toNat < b.toNat) ∧ intCond 7 a b = decide (a.toNat ≤ b.toNat) := by
  refine ⟨rfl, ?_, rfl, rfl, rfl, rfl, rfl, rfl⟩
  show (a != b) = decide (a ≠ b)
  simp [bne, beq_eq_decide]

theorem FVal.nan_lt (x : FVal) : FVal.nan.lt x = false := rfl

theorem FVal.lt_nan (x : FVal) : x.lt .nan = false := by cases x <;> rfl

/-- A NaN meets NE and NAN alone (R102). -/
theorem floatCond_nan (a b : Word) (h : f32 a = .nan ∨ f32 b = .nan) (f : BitVec 3) : floatCond f a b = decide (f = 1 ∨ f = 7) := by
  have hab : (f32 a).lt (f32 b) = false ∧ (f32 b).lt (f32 a) = false ∧ (f32 a).eqv (f32 b) = false ∧ (f32 a != .nan && f32 b != .nan) = false := by
    rcases h with h | h <;> simp [h, FVal.nan_lt, FVal.lt_nan, FVal.eqv]
  obtain ⟨hlt, hgt, heq, hnum⟩ := hab
  rw [floatCond]
  simp only [hlt, hgt, heq, hnum]
  revert f
  decide

theorem floatCond_codes (a b : Word) (ha : f32 a ≠ .nan) (hb : f32 b ≠ .nan) :
    floatCond 0 a b = (f32 a).eqv (f32 b) ∧ floatCond 1 a b = !(f32 a).eqv (f32 b) ∧ floatCond 2 a b = (f32 a).lt (f32 b) ∧
    floatCond 3 a b = ((f32 a).lt (f32 b) || (f32 a).eqv (f32 b)) ∧ floatCond 4 a b = (f32 b).lt (f32 a) ∧
    floatCond 5 a b = ((f32 b).lt (f32 a) || (f32 a).eqv (f32 b)) ∧ floatCond 6 a b = true ∧ floatCond 7 a b = false := by
  have hnum : (f32 a != .nan && f32 b != .nan) = true := by simp [ha, hb]
  refine ⟨rfl, rfl, rfl, rfl, rfl, rfl, hnum, ?_⟩
  show (!(f32 a != .nan && f32 b != .nan)) = false
  rw [hnum]
  rfl

/-- Settles O15: each compare and each predicate operation writes one predicate from its own lane; then the conditions by their codes. -/
theorem lanePredicates : Obligations.LanePredicates := by
  refine ⟨fun s g c p q r a b f => ⟨fun hw => ?_, fun hw ha hb => ?_, ?_, fun hq hr => ⟨?_, ?_, ?_, ?_, ?_⟩, ?_, ?_⟩, intCond_codes,
    fun a b => ⟨floatCond_nan a b, floatCond_codes a b⟩, fun _ _ _ => ⟨rfl, rfl, rfl, rfl, rfl⟩⟩
  · exact laneTests_perLane (exec_iset_narrow g c p a b f hw) decide_eq_true (fun _ => rfl)
  · exact laneTests_perLane (exec_iset_wide g c p a b f hw) (fun hp => by simp [hp, ha, hb]) (fun _ => rfl)
  · exact laneTests_perLane rfl decide_eq_true (fun _ => rfl)
  · exact laneTests_perLane rfl (fun hp => by simp [hp, hq, hr]) (fun _ => rfl)
  · exact laneTests_perLane rfl (fun hp => by simp [hp, hq, hr]) (fun _ => rfl)
  · exact laneTests_perLane rfl (fun hp => by simp [hp, hq, hr]) (fun _ => rfl)
  · exact laneTests_perLane rfl (fun hp => by simp [hp, hq, hr]) (fun _ => rfl)
  · exact laneTests_perLane rfl (fun hp => by simp [hp, hq]) (fun _ => rfl)
  · exact laneTests_perLane rfl decide_eq_true (fun _ => rfl)
  · exact laneTests_perLane rfl decide_eq_true (fun _ => rfl)

end Sys2Proof.Machine
end

section
/-!
Floating-point, packed and cross-lane instructions: O16, O17, O18.
-/
namespace Sys2Proof.Machine

/-! NaN operands (R27, R101) -/

theorem FVal.add_nan_right (x : FVal) : x.add .nan = .nan := by cases x <;> rfl

theorem FVal.mul_nan_right (x : FVal) : x.mul .nan = .nan := by cases x <;> rfl

theorem FVal.nan_add (x : FVal) : FVal.nan.add x = .nan := by cases x <;> rfl

theorem FVal.nan_mul (x : FVal) : FVal.nan.mul x = .nan := by cases x <;> rfl

theorem rne32_nan : rne32 .nan = 0x7FC00000 := by decide

/-- A sum, a difference and a product with a NaN operand are the canonical NaN. -/
theorem fAdd_nan {a b : Word} (h : f32 a = .nan ∨ f32 b = .nan) : fAdd a b = 0x7FC00000 ∧ fSub a b = 0x7FC00000 ∧ fMul a b = 0x7FC00000 := by
  rcases h with h | h <;> simp [fAdd, fSub, fMul, h, FVal.neg, FVal.add_nan_right, FVal.mul_nan_right, FVal.nan_add, FVal.nan_mul, rne32_nan]

theorem fFma_nan {a b c : Word} (h : f32 a = .nan ∨ f32 b = .nan ∨ f32 c = .nan) : fFma c a b = 0x7FC00000 ∧ fNfma c a b = 0x7FC00000 := by
  rcases h with h | h | h <;> simp [fFma, fNfma, h, FVal.neg, FVal.add_nan_right, FVal.mul_nan_right, FVal.nan_add, FVal.nan_mul, rne32_nan]

/-- MinNum and MaxNum of two NaNs. -/
theorem fMin_nans {a b : Word} (ha : f32 a = .nan) (hb : f32 b = .nan) : fMin a b = 0x7FC00000 ∧ fMax a b = 0x7FC00000 := by
  unfold f32 at ha hb
  simp only [fMin, fMax, FKind.minNum, FKind.maxNum, ha, hb]
  decide

/-- MinNum and MaxNum of a NaN and a number are the number. -/
theorem fMin_nan {a b : Word} (ha : f32 a = .nan) (hb : f32 b ≠ .nan) : fMin a b = b ∧ fMin b a = b ∧ fMax a b = b ∧ fMax b a = b := by
  unfold f32 at ha hb
  cases h : kF32.value b.toNat with
  | nan => exact absurd h hb
  | inf n => simp [fMin, fMax, FKind.minNum, FKind.maxNum, ha, h]
  | fin n m e => simp [fMin, fMax, FKind.minNum, FKind.maxNum, ha, h]

/-- Settles O16: the shapes of R74, then what a NaN operand gives. -/
theorem floatArithmetic : Obligations.FloatArithmetic := by
  refine ⟨fun s g d a b => ?_, fun a b c => ⟨fAdd_nan, fFma_nan, fMin_nans, fMin_nan⟩⟩
  exact ⟨laneWrites_alu2 rfl (fun _ => rfl),
    laneWrites_alu2 rfl (fun _ => rfl),
    laneWrites_alu2 rfl (fun _ => rfl),
    laneWrites_alu2 rfl (fun _ => rfl),
    laneWrites_alu2 rfl (fun _ => rfl),
    laneWrites_alu3 rfl (fun _ => rfl),
    fun hc => ⟨laneWrites_alu3c_none rfl hc (fun _ => rfl), laneWrites_alu3c_none rfl hc (fun _ => rfl)⟩,
    fun _ hc => ⟨laneWrites_alu3c_some rfl hc (fun _ => rfl), laneWrites_alu3c_some rfl hc (fun _ => rfl)⟩,
    laneWrites_alu1 rfl (fun _ => rfl),
    laneWrites_alu1 rfl (fun _ => rfl),
    laneWrites_alu1 rfl (fun _ => rfl),
    laneWrites_alu1 rfl (fun _ => rfl),
    laneWrites_alu1 rfl (fun _ => rfl),
    laneWrites_alu1 rfl (fun _ => rfl),
    laneWrites_alu1 rfl (fun _ => rfl),
    laneWrites_alu1 rfl (fun _ => rfl)⟩

/-! Packed halves and packs (R103, R107) -/

section

variable {i : Instr} {s : State} {g : BitVec 4} {d a b : BitVec 6} {h : FKind} {k : Option FKind} {v : Nat → List (Nat × Word)}

theorem half_eq (hk : halfKind s.st.fmt = some h) (fused : Bool) (f : FKind → Nat → Nat → Nat → Nat) :
    s.half g d a b fused f = if fused then s.alu3c g d a b (onHalves (f h)) else s.alu3 g d a b (onHalves (f h)) := by
  simp only [State.half, hk]

theorem laneWrites_half {f : FKind → Nat → Nat → Nat → Nat} (he : exec i s = s.run (s.half g d a b false f)) (hk : halfKind s.st.fmt = some h)
    (hv : ∀ l, v l = [(d.toNat, onHalves (f h) (s.reg l d.toNat) (s.reg l a.toNat) (s.reg l b.toNat))]) :
    LaneWrites i s g [d.toNat, a.toNat, b.toNat] v :=
  laneWrites_alu3 (he.trans (by rw [half_eq hk, if_neg Bool.false_ne_true])) hv

theorem laneWrites_half_fused {f : FKind → Nat → Nat → Nat → Nat} (he : exec i s = s.run (s.half g d a b true f)) (hk : halfKind s.st.fmt = some h)
    (hc : s.extC = none) (hv : ∀ l, v l = [(d.toNat, onHalves (f h) (s.reg l d.toNat) (s.reg l a.toNat) (s.reg l b.toNat))]) :
    LaneWrites i s g [d.toNat, a.toNat, b.toNat] v :=
  laneWrites_alu3c_none (he.trans (by rw [half_eq hk, if_pos rfl])) hc hv

theorem pack_some (hk : k = some h) (useB : Bool) (f : FKind → Word → Word → Word → Word) :
    s.pack g d a b k useB f = s.perLane g true (if useB then [d.toNat, a.toNat, b.toNat] else [d.toNat, a.toNat])
      (fun l x => x.setReg s.gr.allot d.toNat (f h (s.reg l d.toNat) (s.reg l a.toNat) (if useB then s.reg l b.toNat else 0))) := by
  rw [hk]
  rfl

/-- A pack of two sources under a kind. -/
theorem laneWrites_pack {f : FKind → Word → Word → Word → Word} (he : exec i s = s.run (s.pack g d a b k true f)) (hk : k = some h)
    (hv : ∀ l, v l = [(d.toNat, f h (s.reg l d.toNat) (s.reg l a.toNat) (s.reg l b.toNat))]) : LaneWrites i s g [d.toNat, a.toNat, b.toNat] v :=
  laneWrites_perLane (he.trans (by rw [pack_some hk]; rfl)) rfl (fun l _ => by rw [hv l]; rfl)

/-- An unpack of one source under a kind. -/
theorem laneWrites_unpack {f : FKind → Word → Word → Word → Word} (he : exec i s = s.run (s.pack g d a b k false f)) (hk : k = some h)
    (hv : ∀ l, v l = [(d.toNat, f h (s.reg l d.toNat) (s.reg l a.toNat) 0)]) : LaneWrites i s g [d.toNat, a.toNat] v :=
  laneWrites_perLane (he.trans (by rw [pack_some hk]; rfl)) rfl (fun l _ => by rw [hv l]; rfl)

end

/-- Settles O17: each instruction under its kind of FMT is a shape of R74; a shift of a code is its product with a power of two. -/
theorem halvesAndPacks : Obligations.HalvesAndPacks := by
  intro s g d a b h u v r
  refine ⟨fun hk => ?_, fun hk => ?_, ?_, ?_, fun hr hint => ?_⟩
  · exact ⟨laneWrites_half rfl hk (fun _ => rfl),
      laneWrites_half rfl hk (fun _ => rfl),
      laneWrites_half rfl hk (fun _ => rfl),
      laneWrites_half rfl hk (fun _ => rfl),
      laneWrites_half rfl hk (fun _ => rfl),
      fun hc => laneWrites_half_fused rfl hk hc (fun _ => rfl),
      laneWrites_pack rfl hk (fun _ => by simp only [Nat.shiftLeft_eq]),
      laneWrites_unpack rfl hk (fun _ => rfl),
      laneWrites_unpack rfl hk (fun _ => rfl)⟩
  · exact ⟨laneWrites_pack rfl hk (fun _ => by simp only [Nat.shiftLeft_eq]), laneWrites_pack rfl hk (fun _ => rfl)⟩
  · exact laneWrites_pack (h := kE2m1) rfl rfl (fun _ => by simp only [Nat.shiftLeft_eq])
  · exact laneWrites_pack (h := kE2m1) rfl rfl (fun _ => rfl)
  · exact laneWrites_perLane rfl (by simpa [hr] using hint) (fun _ _ => rfl)

/-! Cross-lane instructions (R143 to R147) -/

section

variable {i : Instr} {s : State} {g : BitVec 4} {d a b : BitVec 6} {v : Nat → List (Nat × Word)}

/-- The shape of R143. -/
theorem laneWrites_cross {fields : List Nat} {f : Mask → Nat → Word} (he : exec i s = s.run (s.cross g d fields f))
    (hv : ∀ l, v l = [(d.toNat, f (s.active g) l)]) : LaneWrites i s g (d.toNat :: fields) v :=
  laneWrites_perLane he rfl (fun l _ => by rw [hv l]; rfl)

theorem foldWords_eq (f : Word → Word → Word) (l : List Word) : foldWords f l = l.tail.foldl f (l.headD 0) := by cases l <;> rfl

/-- A scalar register written leaves the stream where it stands. -/
theorem goesOn_setSreg (s : State) (n : Nat) (v : Word) : (s.setSreg n v).goesOn = s.goesOn := by
  unfold State.setSreg
  split <;> rfl

theorem setSreg_sid (s : State) (n : Nat) (v : Word) : (s.setSreg n v).st.sid = s.st.sid := by
  unfold State.setSreg
  split <;> rfl

theorem goesOn_setSpair (s : State) (n : Nat) (v : Pair) : (s.setSpair n v).goesOn = s.goesOn := by
  rw [State.setSpair, goesOn_setSreg, goesOn_setSreg]

theorem setSpair_sid (s : State) (n : Nat) (v : Pair) : (s.setSpair n v).st.sid = s.st.sid := by
  rw [State.setSpair, setSreg_sid, setSreg_sid]

/-- LMASK once its checks pass. -/
theorem retires_lmask (hgo : s.goesOn = true) (hd : isPair d.toNat = true) (hb : s.beyondIn (s.active g) [a.toNat] = 0) :
    Retires (.lmask g d a) s (s.setSpair d.toNat (Mask.ofPred (fun l => (s.active g).has l && s.reg l a.toNat != 0))) false := by
  change execLmask g d a s = _
  rw [execLmask, if_neg (by simp [hd]), if_neg (by simp [hb])]
  exact run_next s _ (goesOn_landed s hgo) (setSpair_sid ..) ((goesOn_setSpair ..).trans hgo)

end

/-- Settles O18: each is the shape of R143; a minimum and a maximum run over the list from its head. -/
theorem crossLane : Obligations.CrossLane := fun s g d a b =>
  ⟨laneWrites_cross rfl (fun _ => rfl),
    laneWrites_cross rfl (fun l => by by_cases hle : (s.reg l b.toNat).toNat ≤ l <;> simp [hle]),
    laneWrites_cross rfl (fun _ => rfl),
    laneWrites_cross rfl (fun _ => rfl),
    laneWrites_cross rfl (fun _ => rfl),
    laneWrites_cross rfl (fun _ => rfl),
    laneWrites_cross rfl (fun _ => rfl),
    laneWrites_cross rfl (fun _ => rfl),
    laneWrites_cross rfl (fun _ => by rw [foldWords_eq]; rfl),
    laneWrites_cross rfl (fun _ => by rw [foldWords_eq]; rfl),
    laneWrites_cross rfl (fun _ => rfl),
    laneWrites_cross rfl (fun _ => rfl),
    laneWrites_cross rfl (fun _ => rfl),
    laneWrites_cross rfl (fun _ => rfl),
    laneWrites_cross rfl (fun _ => rfl),
    retires_lmask⟩

end Sys2Proof.Machine
end

section
/-!
Traps of lane instructions and the ends of segments: O19, O20.
-/
namespace Sys2Proof.Machine

/-! The checks of an access (R200) -/

section

variable {i : Instr} {s : State} {p : Mask} {legal write : Bool} {fields : List Nat} {page : Nat → Word} {inRange aligned : Nat → Bool} {f : Verdict}

/-- The record of a failed check holds the page, the direction and the cause (R299). -/
theorem checkRecord_eq (page : Nat → Word) (write : Bool) (c : Cause) (t : Mask) {w : Word}
    (hw : faultRecord 0 write false false c.code.toNat = w) :
    checkRecord page write c t = t.lanes.map (fun l => (l, (page l &&& 0xFFFFF000#32) ||| w)) := by
  rw [checkRecord, hw]

theorem traps_checked_illegal (he : exec i s = s.run (s.checked p legal fields page write inRange aligned f)) (hl : legal = false) :
    Traps i s .illegal s.st.exm := by
  intro hld ho
  rw [he, ← run_trap s s .illegal s.st.exm hld ho]
  simp [State.checked, hl]

theorem traps_checked_regBound (he : exec i s = s.run (s.checked p legal fields page write inRange aligned f)) (hl : legal = true) (hp : p ≠ 0)
    (hb : s.beyondIn p fields ≠ 0) : Traps i s .regBound p := by
  intro hld ho
  rw [he, ← run_trap s s .regBound p hld ho, State.checked, if_neg (by simp [hl]), if_neg hp, if_pos hb]

theorem exec_checked_prot {out : Mask} (he : exec i s = s.run (s.checked p legal fields page write inRange aligned f)) (hl : legal = true) (hp : p ≠ 0)
    (hb : s.beyondIn p fields = 0) (hout : ∀ l, out.has l = (p.has l && !inRange l)) (hne : out ≠ 0) (hld : s.landed = true) (ho : s.owedBank = none) :
    exec i s = .next (s.takeTrap .prot p (checkRecord page write .prot out) TrapInfo.plain) := by
  rw [Mask.eq_ofPred_and hout] at hne ⊢
  rw [he, ← run_trapRec s s .prot p _ hld ho, State.checked, if_neg (by simp [hl]), if_neg hp, if_neg (by simpa using hb), if_pos hne]

theorem exec_checked_misalign {out odd : Mask} (he : exec i s = s.run (s.checked p legal fields page write inRange aligned f)) (hl : legal = true)
    (hp : p ≠ 0) (hb : s.beyondIn p fields = 0) (hout : ∀ l, out.has l = (p.has l && !inRange l)) (hodd : ∀ l, odd.has l = (p.has l && !aligned l))
    (hz : out = 0) (hne : odd ≠ 0) (hld : s.landed = true) (ho : s.owedBank = none) :
    exec i s = .next (s.takeTrap .misalign p (checkRecord page write .misalign odd) TrapInfo.plain) := by
  rw [Mask.eq_ofPred_and hout] at hz
  rw [Mask.eq_ofPred_and hodd] at hne ⊢
  rw [he, ← run_trapRec s s .misalign p _ hld ho, State.checked, if_neg (by simp [hl]), if_neg hp, if_neg (by simpa using hb), if_neg (by simpa using hz), if_pos hne]

end

/-- The page of a failed check through a translation register. -/
theorem vaWord_page (s : State) (n : Nat) (off : Int) :
    s.vaWord n off &&& 0xFFFFF000#32 = if (s.tbReg n).bound then BitVec.ofInt 32 ((s.tbReg n).va + off) &&& 0xFFFFF000#32 else 0 := by
  unfold State.vaWord
  split
  · rfl
  · simp

/-- ST outside a batch: the range is that of its register (R206, R250). -/
theorem exec_st_checked {s : State} (g : BitVec 4) (t a : BitVec 6) (b z m : BitVec 3) (hw : s.isWave = false) :
    ∃ f, exec (.st g t a b z m) s = s.run (s.globalChecked (s.active g) (sizeBase z t) (accessFields t.toNat a.toNat (regsOf z)) b.toNat a (sizeOf z) true f) := by
  have hinside : (fun l => s.offsetOk b.toNat (s.laneOff a l) (sizeOf z) && (!s.isWave || s.inObject ((s.tbReg b.toNat).va + (s.laneOff a l).toNat) (sizeOf z))) =
      fun l => s.offsetOk b.toNat (s.laneOff a l) (sizeOf z) := by
    simp [hw]
  obtain ⟨f, hf⟩ : ∃ f, exec (.st g t a b z m) s = s.run (s.checked (s.active g) (sizeBase z t) (accessFields t.toNat a.toNat (regsOf z))
      (fun l => s.vaWord b.toNat (s.laneOff a l)) true
      (fun l => s.offsetOk b.toNat (s.laneOff a l) (sizeOf z) && (!s.isWave || s.inObject ((s.tbReg b.toNat).va + (s.laneOff a l).toNat) (sizeOf z)))
      (fun l => decide (((s.tbReg b.toNat).va + (s.laneOff a l).toNat) % sizeOf z = 0)) f) := ⟨_, rfl⟩
  exact ⟨f, by rw [hf, hinside]; rfl⟩

theorem exec_ld_checked (s : State) (g : BitVec 4) (t a : BitVec 6) (b z m : BitVec 3) :
    ∃ f, exec (.ld g t a b z m) s = s.run (s.globalChecked (s.active g) (sizeBase z t) (accessFields t.toNat a.toNat (regsOf z)) b.toNat a (sizeOf z) false f) :=
  ⟨_, rfl⟩

theorem exec_lds_checked (s : State) (g : BitVec 4) (t a : BitVec 6) (z m : BitVec 3) :
    ∃ f, exec (.lds g t a z m) s = s.run (s.scratchChecked (s.active g) (sizeBase z t) (accessFields t.toNat a.toNat (regsOf z)) a (sizeOf z) false f) :=
  ⟨_, rfl⟩

theorem exec_sts_checked (s : State) (g : BitVec 4) (t a : BitVec 6) (z m : BitVec 3) :
    ∃ f, exec (.sts g t a z m) s = s.run (s.scratchChecked (s.active g) (sizeBase z t) (accessFields t.toNat a.toNat (regsOf z)) a (sizeOf z) true f) :=
  ⟨_, rfl⟩

theorem traps_absent {i : Instr} {s : State} (he : exec i s = s.run (.trap .illegal s.st.exm s)) : Traps i s .illegal s.st.exm := by
  intro hld ho
  rw [he, run_trap s s .illegal s.st.exm hld ho]

/-- Settles O19: the divide family, the bound check of R74, and the checks of R200 in their order. -/
theorem laneTraps : Obligations.LaneTraps := by
  refine ⟨fun s g d a b => ⟨traps_absent rfl, traps_absent rfl, traps_absent rfl, traps_absent rfl⟩, fun s g d a b hw hb => ⟨?_, ?_, ?_, ?_⟩, ?_⟩
  · exact (traps_alu2x (i := .iadd g d a b) rfl).2.2 hw hb
  · exact traps_regBound rfl rfl hb
  · exact traps_regBound rfl rfl hb
  · exact traps_regBound rfl rfl hb
  · intro s g t a b z m out odd
    dsimp only
    intro hw
    obtain ⟨fld, hld⟩ := exec_ld_checked s g t a b z m
    obtain ⟨fst, hst⟩ := exec_st_checked (s := s) g t a b z m hw
    obtain ⟨flds, hlds⟩ := exec_lds_checked s g t a z m
    obtain ⟨fsts, hsts⟩ := exec_sts_checked s g t a z m
    refine ⟨fun hz => ?illegal, fun hz hp hb => ?bound, fun hz hp hb hout hodd => ⟨fun hne => ⟨?_, ?_⟩, fun h0 hne => ⟨?_, ?_⟩⟩,
      fun hz hp hb hout hodd => ⟨fun hne => ⟨?_, ?_⟩, fun h0 hne => ⟨?_, ?_⟩⟩⟩
    case illegal =>
      exact ⟨traps_checked_illegal hld hz, traps_checked_illegal hst hz, traps_checked_illegal hlds hz, traps_checked_illegal hsts hz⟩
    case bound =>
      exact ⟨traps_checked_regBound hld hz hp hb, traps_checked_regBound hst hz hp hb, traps_checked_regBound hlds hz hp hb, traps_checked_regBound hsts hz hp hb⟩
    all_goals intro hlanded ho
    · rw [exec_checked_prot hld hz hp hb hout hne hlanded ho, checkRecord_eq _ _ _ _ (w := 0x03#32) (by decide)]
      simp only [vaWord_page]
    · rw [exec_checked_prot hst hz hp hb hout hne hlanded ho, checkRecord_eq _ _ _ _ (w := 0x83#32) (by decide)]
      simp only [vaWord_page]
    · rw [exec_checked_misalign hld hz hp hb hout hodd h0 hne hlanded ho, checkRecord_eq _ _ _ _ (w := 0x02#32) (by decide)]
      simp only [vaWord_page]
    · rw [exec_checked_misalign hst hz hp hb hout hodd h0 hne hlanded ho, checkRecord_eq _ _ _ _ (w := 0x82#32) (by decide)]
      simp only [vaWord_page]
    · rw [exec_checked_prot hlds hz hp hb hout hne hlanded ho, checkRecord_eq _ _ _ _ (w := 0x03#32) (by decide)]
      rfl
    · rw [exec_checked_prot hsts hz hp hb hout hne hlanded ho, checkRecord_eq _ _ _ _ (w := 0x83#32) (by decide)]
      rfl
    · rw [exec_checked_misalign hlds hz hp hb hout hodd h0 hne hlanded ho, checkRecord_eq _ _ _ _ (w := 0x02#32) (by decide)]
      rfl
    · rw [exec_checked_misalign hsts hz hp hb hout hodd h0 hne hlanded ho, checkRecord_eq _ _ _ _ (w := 0x82#32) (by decide)]
      rfl

/-! No-operations and the end of a segment (R45, R119) -/

theorem retires_noop {i : Instr} {s : State} (he : exec i s = s.run (.next s)) (hgo : s.goesOn = true) : Retires i s s false := by
  rw [Retires, he, run_next s s (goesOn_landed s hgo) rfl hgo]

theorem split_maj_toNat (w : Word) : (Fields.split w).maj.toNat = w.toNat / 2 ^ 25 % 2 ^ 6 := by
  rw [Fields.split, BitVec.extractLsb'_toNat, Nat.shiftRight_eq_div_pow]

theorem split_s_toNat (w : Word) : (Fields.split w).s.toNat = w.toNat / 2 ^ 31 % 2 ^ 1 := by
  rw [Fields.split, BitVec.extractLsb'_toNat, Nat.shiftRight_eq_div_pow]

/-- The word of a NOP: major opcode 0 of the lane set. -/
theorem decode_nop (w : Word) (h : w.toNat ≤ 0x01FFFFFF) : decode w = .ok .nop := by
  have hmaj : (Fields.split w).maj = 0#6 := BitVec.eq_of_toNat_eq (by rw [split_maj_toNat]; simp; omega)
  have hs : (Fields.split w).s = 0#1 := BitVec.eq_of_toNat_eq (by rw [split_s_toNat]; simp; omega)
  simp [decode, decodeFields, decodeLane, hmaj, hs]

theorem decode_snop (w : Word) (hlo : 0x80000000 ≤ w.toNat) (hhi : w.toNat ≤ 0x81FFFFFF) : decode w = .ok .snop := by
  have hmaj : (Fields.split w).maj = 0#6 := BitVec.eq_of_toNat_eq (by rw [split_maj_toNat]; simp; omega)
  have hs : (Fields.split w).s = 1#1 := BitVec.eq_of_toNat_eq (by rw [split_s_toNat]; simp; omega)
  simp [decode, decodeFields, decodeUniform, hmaj, hs]

/-- The hint region: major opcodes 0x38 to 0x3B of both sets. -/
theorem decode_hint (w : Word) (hlo : 0x38 ≤ w.toNat / 2 ^ 25 % 2 ^ 6) (hhi : w.toNat / 2 ^ 25 % 2 ^ 6 ≤ 0x3B) : decode w = .ok .hint := by
  rw [← split_maj_toNat] at hlo hhi
  have hmaj : (Fields.split w).maj = 0x38#6 ∨ (Fields.split w).maj = 0x39#6 ∨ (Fields.split w).maj = 0x3A#6 ∨ (Fields.split w).maj = 0x3B#6 := by
    simp only [← BitVec.toNat_inj, BitVec.toNat_ofNat]
    omega
  rcases hmaj with h | h | h | h <;> simp [decode, decodeFields, h]

/-- An instruction that does nothing, as the last word of its segment: it retires, and the next fetch traps. -/
theorem run_noop_edge (s : State) (hx : s.st.exm ≠ 0) (hl : s.landed = true) (hlast : hdrN s.st.hdr ≤ s.st.pos) (hpc : (s.st.pc + 4).toNat % 4096 = 0)
    (hr : s.st.status = .runnable) :
    s.run (.next s) = .next ((s.retired s false).takeTrap .segEdge s.st.exm [] { TrapInfo.plain with instr := some 0 }) := by
  have hpos : (s.retired s false).st.pos = 0 := if_neg (Nat.not_lt.2 hlast)
  have hstatus : (s.retired s false).st.status = .runnable := hr
  have hpc' : (s.retired s false).st.pc.toNat % 4096 = 0 := hpc
  have hadv : (s.settle s).advance = s.retired s false := settle_advance s s rfl
  rw [State.run, if_pos hl, State.finish]
  simp only [hadv]
  rw [if_neg (show (s.retired s false).st.exm ≠ 0 from hx), if_neg Bool.false_ne_true, State.edge, if_pos ⟨hpos, hpc'⟩, if_pos hstatus]
  rfl

/-- Settles O20: the three no-operations, their words, and the end of a segment. -/
theorem endOfSegment : Obligations.EndOfSegment := by
  refine ⟨fun s hgo => ⟨retires_noop rfl hgo, retires_noop rfl hgo, retires_noop rfl hgo⟩, fun w => ⟨decode_nop w, decode_snop w, fun h => ?_⟩,
    fun s hx hl hlast hpc hr => run_noop_edge s hx hl hlast hpc hr⟩
  rcases h with h | h <;> exact decode_hint w (by omega) (by omega)

end Sys2Proof.Machine
end

section
/-!
Uniform instructions and special registers: O21 to O26.
-/
namespace Sys2Proof.Machine

/-! The shape of R76 -/

section

variable {i : Instr} {s : State} {g : BitVec 4} {d a b : BitVec 6} {legal : Bool}

/-- An effect on the issuing stream that leaves where it stands and what it waits for. -/
def State.standsAs (u s : State) : Prop := u.goesOn = s.goesOn ∧ u.st.sid = s.st.sid

theorem standsAs_setSreg (s : State) (n : Nat) (v : Word) : (s.setSreg n v).standsAs s := ⟨goesOn_setSreg s n v, setSreg_sid s n v⟩

theorem standsAs_setSpair (s : State) (n : Nat) (v : Pair) : (s.setSpair n v).standsAs s := ⟨goesOn_setSpair s n v, setSpair_sid s n v⟩

theorem standsAs_setUpred (s : State) (p : Nat) (v : Bool) : (s.setUpred p v).standsAs s := ⟨rfl, rfl⟩

theorem once_of {f : State → State} {u : State} (he : exec i s = s.run (s.once g legal f)) (hl : legal = true) (hf : f s = u) (hu : u.standsAs s) :
    Once i s g u := by
  intro hgo
  subst hf
  exact he.trans (run_once s g legal f hl hgo (hu.1.trans hgo) hu.2)

theorem traps_once {f : State → State} (he : exec i s = s.run (s.once g legal f)) (hl : legal = false) : Traps i s .illegal s.st.exm := by
  intro hld ho
  rw [he, ← run_trap s s .illegal s.st.exm hld ho]
  simp [State.once, hl]

theorem once_salu2 {f : Word → Word → Word} {v : Word} (he : exec i s = s.run (s.salu2 g d a b f)) (hv : f (s.sreg a.toNat) (s.sreg b.toNat) = v) :
    Once i s g (s.setSreg d.toNat v) :=
  once_of he rfl (by rw [hv]) (standsAs_setSreg ..)

variable {f : Word → Word → Word} {h : Pair → Pair → Pair}

theorem salu2x_narrow (hw : s.wide = false) : s.salu2x g d a b f h = s.salu2 g d a b f := by simp [State.salu2x, hw]

theorem salu2x_wide (hw : s.wide = true) : s.salu2x g d a b f h = s.once g (isPair d.toNat && isPair a.toNat && isPair b.toNat)
    (fun x => x.setSpair d.toNat (h (x.sregPair a.toNat) (x.sregPair b.toNat))) := by simp [State.salu2x, hw]

/-- A W64 consumer of the uniform set without W64 (R91). -/
theorem once_salu2x_narrow {v : Word} (he : exec i s = s.run (s.salu2x g d a b f h)) (hw : s.wide = false)
    (hv : f (s.sreg a.toNat) (s.sreg b.toNat) = v) : Once i s g (s.setSreg d.toNat v) :=
  once_salu2 (he.trans (by rw [salu2x_narrow hw])) hv

/-- A W64 consumer of the uniform set on pairs (R91). -/
theorem once_salu2x_wide (he : exec i s = s.run (s.salu2x g d a b f h)) (hw : s.wide = true)
    (hp : isPair d.toNat = true ∧ isPair a.toNat = true ∧ isPair b.toNat = true) :
    Once i s g (s.setSpair d.toNat (h (s.sregPair a.toNat) (s.sregPair b.toNat))) :=
  once_of (he.trans (by rw [salu2x_wide hw])) (by simp [hp]) rfl (standsAs_setSpair ..)

end

/-- Settles O21: each form is the shape of R76, narrow or on pairs. -/
theorem uniformArithmetic : Obligations.UniformArithmetic := by
  intro s g d a b i j
  dsimp only
  refine ⟨fun hw => ?narrow, fun hw hd ha hb => ?wide, fun hw hd => ?misaligned, once_salu2 rfl rfl, once_salu2 rfl (mulHigh_eq _ _), once_salu2 rfl rfl,
    once_salu2 rfl rfl, once_salu2 rfl rfl, once_salu2 rfl rfl, once_salu2 rfl rfl, once_salu2 rfl rfl, once_salu2 rfl rfl,
    once_of rfl rfl rfl (standsAs_setSreg ..), once_of rfl rfl rfl (standsAs_setSreg ..), once_of rfl rfl rfl (standsAs_setSreg ..),
    once_of rfl rfl rfl (standsAs_setSreg ..), fun hd ha => ?_, fun hp => traps_once rfl hp⟩
  case narrow =>
    exact ⟨once_salu2x_narrow rfl hw rfl, once_salu2x_narrow rfl hw rfl, once_salu2x_narrow rfl hw rfl, once_salu2x_narrow rfl hw rfl,
      once_salu2x_narrow rfl hw rfl, once_salu2x_narrow rfl hw rfl⟩
  case wide =>
    have hp := And.intro hd (And.intro ha hb)
    exact ⟨once_salu2x_wide rfl hw hp, once_salu2x_wide rfl hw hp, once_salu2x_wide rfl hw hp, once_salu2x_wide rfl hw hp, once_salu2x_wide rfl hw hp,
      once_salu2x_wide rfl hw hp⟩
  case misaligned =>
    exact traps_once (i := .sadd g d a b) (congrArg s.run (salu2x_wide hw)) (by simp [hd])
  · exact once_of rfl (by simp [hd, ha]) rfl (standsAs_setSpair ..)

/-! Uniform predicates (R97) -/

theorem exec_sset_narrow {s : State} (g : BitVec 4) (c : BitVec 2) (p : BitVec 4) (a b : BitVec 6) (f : BitVec 3) (hw : s.wide = false) :
    exec (.sset g c p a b f) s = s.run (s.once g (decide (p.toNat < 8))
      (fun x => x.setUpred p.toNat (combine c (x.upred p.toNat) (intCond f (x.sreg a.toNat) (x.sreg b.toNat))))) := by
  change execSset g c p a b f s = _
  simp [execSset, hw]

theorem exec_sset_wide {s : State} (g : BitVec 4) (c : BitVec 2) (p : BitVec 4) (a b : BitVec 6) (f : BitVec 3) (hw : s.wide = true) :
    exec (.sset g c p a b f) s = s.run (s.once g (decide (p.toNat < 8) && isPair a.toNat && isPair b.toNat)
      (fun x => x.setUpred p.toNat (combine c (x.upred p.toNat) (intCond f (x.sregPair a.toNat) (x.sregPair b.toNat))))) := by
  change execSset g c p a b f s = _
  simp [execSset, hw]

/-- A uniform predicate written reads back, and the others stay. -/
theorem upred_setUpred (s : State) (p k : Nat) (v : Bool) (hp : p < 8) (hk : k < 8) :
    (s.setUpred p v).upred k = if k = p then v else s.upred k := by
  have hbit : (1#8 <<< p).getLsbD k = decide (k = p) := by
    rw [← BitVec.twoPow_eq, BitVec.getLsbD_twoPow]
    grind
  unfold State.setUpred State.upred
  generalize (1#8 <<< p) = one at hbit
  by_cases hkp : k = p
  · subst hkp
    cases v <;> simp [hbit, hp, BitVec.getLsbD_or, BitVec.getLsbD_and, BitVec.getLsbD_not]
  · rw [decide_eq_false hkp, BitVec.getLsbD_eq_getElem hk] at hbit
    cases v <;> simp [hbit, hk, hkp]

/-- Settles O22: each is the shape of R76 with one uniform predicate written. -/
theorem uniformPredicates : Obligations.UniformPredicates := by
  intro s g c p q r a b f hp
  refine ⟨fun hw => ?_, fun hw ha hb => ?_, fun hq hr => ⟨?_, ?_, ?_, ?_, ?_⟩, ?_, ?_, fun k v hk => upred_setUpred s p.toNat k v hp hk, rfl,
    fun _ _ => ⟨rfl, rfl, rfl, rfl⟩⟩
  · exact once_of (exec_sset_narrow g c p a b f hw) (decide_eq_true hp) rfl (standsAs_setUpred ..)
  · exact once_of (exec_sset_wide g c p a b f hw) (by simp [hp, ha, hb]) rfl (standsAs_setUpred ..)
  · exact once_of rfl (by simp [hp, hq, hr]) rfl (standsAs_setUpred ..)
  · exact once_of rfl (by simp [hp, hq, hr]) rfl (standsAs_setUpred ..)
  · exact once_of rfl (by simp [hp, hq, hr]) rfl (standsAs_setUpred ..)
  · exact once_of rfl (by simp [hp, hq, hr]) rfl (standsAs_setUpred ..)
  · exact once_of rfl (by simp [hp, hq]) rfl (standsAs_setUpred ..)
  · exact once_of rfl (decide_eq_true hp) rfl (standsAs_setUpred ..)
  · exact once_of rfl (decide_eq_true hp) rfl (standsAs_setUpred ..)

/-! Reads of special registers (R56, R95) -/

theorem standsAs_latch (s : State) (n : Nat) : (s.latch n).standsAs s := by
  unfold State.latch
  split
  · exact ⟨rfl, rfl⟩
  · split <;> exact ⟨rfl, rfl⟩

theorem standsAs_trans {u t s : State} (h : u.standsAs t) (k : t.standsAs s) : u.standsAs s := ⟨h.1.trans k.1, h.2.trans k.2⟩

theorem exec_srd_ok {s : State} {r : BitVec 12} {v : Word} (g : BitVec 4) (d : BitVec 6) (h : s.srdValue r.toNat = .ok v) :
    exec (.srd g d r) s = s.run (s.once g true (fun x => (x.latch r.toNat).setSreg d.toNat v)) := by
  change execSrd g d r s = _
  simp only [execSrd, h]

theorem exec_srd_error {s : State} {r : BitVec 12} {c : Cause} (g : BitVec 4) (d : BitVec 6) (h : s.srdValue r.toNat = .error c) :
    exec (.srd g d r) s = s.run (.trap c s.st.exm s) := by
  change execSrd g d r s = _
  simp only [execSrd, h]

/-- SLANE of a register that its lane holds is the shape of R76 (R96). -/
theorem exec_slane {s : State} (g : BitVec 4) (d a b : BitVec 6) (hb : (s.lane ((s.sreg b.toNat).toNat % 64)).beyond a.toNat = false) :
    exec (.slane g d a b) s = s.run (s.once g true (fun x => x.setSreg d.toNat
      (if (s.sreg b.toNat).toNat % 64 < s.gr.width ∧ s.st.membership.has ((s.sreg b.toNat).toNat % 64) = true
        then s.reg ((s.sreg b.toNat).toNat % 64) a.toNat else 0))) := by
  change execSlane g d a b s = _
  rw [execSlane]
  generalize (s.sreg b.toNat).toNat % 64 = j at hb
  cases hg : s.uniGuard g with
  | false => simp [State.once, hg]
  | true =>
    by_cases hj : j < s.gr.width ∧ s.st.membership.has j = true
    · rw [if_neg (by decide), if_neg (by simp [hj.2, Nat.not_le.2 hj.1]), if_neg (by simp [hb]), if_pos hj]
      simp [State.once, hg]
    · have hout : s.gr.width ≤ j ∨ (!s.st.membership.has j) = true := by
        by_contra hc
        simp only [not_or, Bool.not_eq_true', Bool.not_eq_false, Nat.not_le] at hc
        exact hj hc
      rw [if_neg (by decide), if_pos hout]
      simp [State.once, hg, hj]

/-- Settles O23: each is the shape of R76; a read that fails traps its cause. -/
theorem specialReads : Obligations.SpecialReads := by
  intro s g d a b r v i k
  refine ⟨fun hv => ?_, fun c hc hld ho => ?_, ?_, ?_, ?_, ?_, ?_⟩
  · exact once_of (exec_srd_ok g d hv) rfl rfl (standsAs_trans (standsAs_setSreg ..) (standsAs_latch ..))
  · rw [exec_srd_error g d hc, run_trap s s c s.st.exm hld ho]
  · rintro j rfl hj
    exact once_of (exec_slane g d a b hj) rfl rfl (standsAs_setSreg ..)
  · exact once_of rfl rfl rfl ⟨rfl, rfl⟩
  · exact once_of rfl rfl rfl ⟨rfl, rfl⟩
  · exact once_of rfl rfl rfl ⟨rfl, rfl⟩
  · exact once_of rfl rfl rfl ⟨rfl, rfl⟩

/-! The special registers by number (R56, R321, R323) -/

theorem srdValue_low {s : State} {n : Nat} {v : Word} (hn : n < 0x200) (h : s.special n = some v) : s.srdValue n = .ok v := by
  simp only [State.srdValue, if_pos hn, h]

theorem srdValue_unassigned {s : State} {n : Nat} (hn : n < 0x200) (h : s.special n = none) : s.srdValue n = .error .illegal := by
  simp only [State.srdValue, if_pos hn, h]

theorem srdValue_unprivileged {s : State} {n : Nat} (hn : 0x200 ≤ n) (h : s.st.isPriv = false) : s.srdValue n = .error .priv := by
  rw [State.srdValue, if_neg (Nat.not_lt.2 hn), if_pos (by simp [h])]

theorem isPriv_of_privileged {x : Stream} (h : x.privileged = true) : x.isPriv = true := by simp [Stream.isPriv, h]

theorem srdValue_trap {s : State} {n : Nat} (hlo : 0x200 ≤ n) (hhi : n ≤ 0x20C) (h : s.st.privileged = true) :
    s.srdValue n = .ok (s.st.trap.reg (n - 0x200)) := by
  rw [State.srdValue, if_neg (Nat.not_lt.2 hlo), if_neg (by simp [isPriv_of_privileged h]), if_pos hhi, if_pos h]

theorem srdValue_dbgst {s : State} (h : s.st.privileged = true) : s.srdValue 0x318 = .ok (s.st.trap.dbgst.setWidth 32) := by
  simp [State.srdValue, isPriv_of_privileged h, h, State.debugReg]

/-- The feature words above the first read 0. -/
theorem special_features (s : State) (n : Nat) (hlo : 0x101 ≤ n) (hhi : n ≤ 0x10F) : s.special n = some 0 := by
  unfold State.special
  rw [if_neg (by omega), if_pos (by omega), if_neg (by omega)]

/-- The numbers below 0x200 that are not assigned, in two runs. -/
theorem special_unassigned (s : State) (n : Nat) (h : (0x00C ≤ n ∧ n ≤ 0x00F) ∨ (0x110 ≤ n ∧ n ≤ 0x1FF)) : s.special n = none := by
  unfold State.special
  rw [if_neg (by omega), if_neg (by omega)]
  split
  case h_18 => rfl
  all_goals omega

/-- Settles O24: the assigned numbers by evaluation, the others by their ranges. -/
theorem specialValues : Obligations.SpecialValues := by
  intro s
  have value (n : Nat) (v : Word) (hn : n < 0x200) (h : s.special n = some v) : s.srdValue n = .ok v := srdValue_low hn h
  refine ⟨value _ _ (by decide) rfl, value _ _ (by decide) rfl, value _ _ (by decide) rfl, value _ _ (by decide) rfl, value _ _ (by decide) rfl,
    value _ _ (by decide) rfl, value _ _ (by decide) rfl, value _ _ (by decide) rfl, value _ _ (by decide) rfl, value _ _ (by decide) rfl,
    value _ _ (by decide) rfl, value _ _ (by decide) rfl, value _ _ (by decide) rfl, value _ _ (by decide) rfl, fun n hlo hhi => ?_, fun n hlo hhi => ?_,
    fun n hlo hhi => ?_, fun n hn hp => srdValue_unprivileged hn hp, fun hp => ?_⟩
  · exact value _ _ (by omega) (special_features s n hlo hhi)
  · exact srdValue_unassigned (by omega) (special_unassigned s n (.inl ⟨hlo, hhi⟩))
  · exact srdValue_unassigned (by omega) (special_unassigned s n (.inr ⟨hlo, hhi⟩))
  · exact ⟨srdValue_trap (by decide) (by decide) hp, srdValue_trap (by decide) (by decide) hp, srdValue_trap (by decide) (by decide) hp,
      srdValue_trap (by decide) (by decide) hp, srdValue_trap (by decide) (by decide) hp, srdValue_dbgst hp⟩

/-! Writes of special registers (R95, R131, R321) -/

theorem goesOn_exm {s : State} (h : s.goesOn = true) : s.st.exm ≠ 0 := by
  simp only [State.goesOn, Bool.and_eq_true, decide_eq_true_eq] at h
  exact h.1.1

/-- SWR of a number that it writes is the shape of R76. -/
theorem exec_swr {s t : State} {r : BitVec 12} (g : BitVec 4) (d : BitVec 6) (hp : r.toNat < 0x200 ∨ s.st.privileged = true)
    (he : s.swrEffect r.toNat (s.sreg d.toNat) = some t) : exec (.swr g d r) s = s.run (s.once g true (fun _ => t)) := by
  change execSwr g d r s = _
  have hpriv : ¬ (0x200 ≤ r.toNat ∧ ((!s.st.isPriv) = true ∨ (0x300 ≤ r.toNat ∧ r.toNat < 0x400 ∧ (!s.st.privileged) = true))) := by
    rcases hp with h | h
    · omega
    · simp [isPriv_of_privileged h, h]
  rw [execSwr, if_neg hpriv]
  simp only [he]
  rfl

theorem once_swr {s t : State} {r : BitVec 12} (g : BitVec 4) (d : BitVec 6) (hp : r.toNat < 0x200 ∨ s.st.privileged = true)
    (he : s.swrEffect r.toNat (s.sreg d.toNat) = some t) (ht : t.standsAs s) : Once (.swr g d r) s g t :=
  once_of (exec_swr g d hp he) rfl rfl ht

/-- An EXM written that is not empty leaves the stream where it stands. -/
theorem standsAs_writeExm {s : State} {hi : Bool} {v : Word} (h : (s.writeExm hi v).st.exm ≠ 0) (hs : s.st.exm ≠ 0) :
    (s.writeExm hi v).standsAs s := by
  refine ⟨?_, rfl⟩
  unfold State.goesOn
  rw [decide_eq_true h, decide_eq_true hs]
  rfl

theorem append_ne_zero {m n : Nat} {x : BitVec m} {y : BitVec n} (h : y ≠ 0 ∨ x ≠ 0) : x ++ y ≠ 0 := by
  intro hz
  have hnat : x.toNat <<< n ||| y.toNat = 0 := by
    rw [← BitVec.toNat_append, hz]
    simp
  obtain ⟨hx, hy⟩ := Nat.or_eq_zero_iff.1 hnat
  rw [Nat.shiftLeft_eq_zero_iff] at hx
  rcases h with h | h
  · exact h (BitVec.eq_of_toNat_eq (by simpa using hy))
  · exact h (BitVec.eq_of_toNat_eq (by simpa using hx))

theorem halves_eq (m : BitVec 64) : (m.extractLsb' 32 32 : Word) ++ (m.setWidth 32 : Word) = m := by
  rw [BitVec.setWidth_eq_extractLsb' (by decide)]
  exact BitVec.extractLsb'_append_extractLsb' (w := 32) (len := 32)

/-- A half of EXM written stays within the membership if EXM was within it (R131). -/
theorem writeExm_within (s : State) (v : Word) (hi : Bool) (h : s.st.exm &&& s.st.membership = s.st.exm) :
    (s.writeExm hi v).st.exm &&& s.st.membership = (s.writeExm hi v).st.exm := by
  have hlow : (s.st.exm.setWidth 32 : Word) &&& s.st.membership.setWidth 32 = s.st.exm.setWidth 32 := by rw [← BitVec.setWidth_and, h]
  have hhigh : (s.st.exm.extractLsb' 32 32 : Word) &&& s.st.membership.extractLsb' 32 32 = s.st.exm.extractLsb' 32 32 := by
    rw [← BitVec.extractLsb'_and, h]
  cases hi
  · show (s.st.exm.extractLsb' 32 32 ++ (v &&& s.st.membership.setWidth 32) : BitVec (32 + 32)) &&& s.st.membership = _
    refine (congrArg (_ &&& ·) (halves_eq s.st.membership).symm).trans ?_
    rw [BitVec.and_append, hhigh, BitVec.and_assoc, BitVec.and_self]
    rfl
  · show ((v &&& s.st.membership.extractLsb' 32 32) ++ s.st.exm.setWidth 32 : BitVec (32 + 32)) &&& s.st.membership = _
    refine (congrArg (_ &&& ·) (halves_eq s.st.membership).symm).trans ?_
    rw [BitVec.and_append, hlow, BitVec.and_assoc, BitVec.and_self]
    rfl

/-- The numbers below 0x200 that SWR does not write. -/
theorem swrEffect_readOnly (s : State) (n : Nat) (v : Word) (hlo : 0x003 ≤ n) (hhi : n < 0x200) (hn : n ≠ 0x01A) : s.swrEffect n v = none := by
  unfold State.swrEffect
  split
  case h_7 => rfl
  all_goals omega

/-- Settles O25: the writable numbers are the shape of R76, the others trap; then the sub-steps. -/
theorem specialWrites : Obligations.SpecialWrites := by
  refine ⟨fun s g d => ?_, fun s v n => ?_⟩
  · dsimp only
    refine ⟨fun h hgo => ?_, fun h hgo => ?_, ?_, ?_, fun hp => ⟨?_, ?_⟩, fun r hlo hhi hn hld ho => ?_, fun r hr hp hld ho => ?_⟩
    · exact once_swr g d (.inl (by decide)) rfl (standsAs_writeExm (hi := false) (v := s.sreg d.toNat) (append_ne_zero h) (goesOn_exm hgo)) hgo
    · exact once_swr g d (.inl (by decide)) rfl (standsAs_writeExm (hi := true) (v := s.sreg d.toNat) (append_ne_zero h.symm) (goesOn_exm hgo)) hgo
    · exact once_swr g d (.inl (by decide)) rfl ⟨rfl, rfl⟩
    · exact once_swr g d (.inl (by decide)) rfl ⟨rfl, rfl⟩
    · exact once_swr g d (.inr hp) (if_pos hp) ⟨rfl, rfl⟩
    · exact once_swr g d (.inr hp) (if_pos hp) ⟨rfl, rfl⟩
    · change execSwr g d r s = _
      rw [execSwr, if_neg (by omega)]
      simp only [swrEffect_readOnly s r.toNat _ hlo hhi hn]
      exact run_trap s s .illegal s.st.exm hld ho
    · change execSwr g d r s = _
      rw [execSwr, if_pos ⟨hr, .inl (by simp [hp])⟩]
      exact run_trap s s .priv s.st.exm hld ho
  · refine ⟨fun h => ?_, fun h => ?_, fun hi => ?_, rfl, rfl, s.latchEcnt n.toNat, rfl, rfl, fun c hc => ?_⟩
    · exact congrArg Host.Outcome.next (if_neg h)
    · exact congrArg Host.Outcome.next (if_neg h)
    · by_cases h : s.st.exm &&& s.st.membership = s.st.exm
      · exact .inl (writeExm_within s v hi h)
      · exact .inr h
    · show s.st.ecntHi.set n.toNat (some ((((s.coreRec s.gr.coreId).map (fun c => c.ecnt.getD n.toNat 0)).getD 0 : BitVec 48).extractLsb' 32 16)) = _
      rw [hc]
      rfl

/-! EXT (R49 to R52) -/

/-- Settles O26: an EXT is latched, or refused, by the one check of R52. -/
theorem extWords : Obligations.Prefix := by
  intro s i c sc w n f m
  dsimp only
  intro hld ho
  refine ⟨fun hbad => ⟨?_, ?_⟩, fun hbad => ⟨?_, ?_⟩⟩
  · exact (congrArg s.run (if_neg hbad)).trans (run_hold _ _ hld)
  · exact (congrArg s.run (if_neg hbad)).trans (run_hold _ _ hld)
  · exact (congrArg s.run (if_pos hbad)).trans (run_trap _ _ _ _ hld ho)
  · exact (congrArg s.run (if_pos hbad)).trans (run_trap _ _ _ _ hld ho)

end Sys2Proof.Machine
end

section
/-!
Memory instructions that issue beside an atomic whose samples stand under number 0: O27, O29, O32.
-/
namespace Sys2Proof.Machine

/-- A state with one lane in which an atomic of stream 9 is on its way, one of whose samples still stands under number 0: what an instruction that retires marks, or takes away, as its own (R378). Translation register 1 is bound to 4 KiB at VA 0x1000, physical 0x200000. -/
def strayMark : State :=
  let s := State.reset.withFetchWord 32 0
  let t := s.modSt (fun x => { x with tb := x.tb.set 1 ⟨true, 0x1000, 0x1000, 0x200000, 0x1000, ⟨true, true, true⟩, false, none⟩ })
  { t with atomics := [⟨7, 9, 9, 0, [], [], none, [(0, 0)]⟩] }

/-- The marks of the atomics that an outcome leaves. -/
def marksOf (o : Host.Outcome State Fault Refusal) : List (List (Nat × Nat)) :=
  match o with
  | .next u => u.atomics.map (·.more)
  | _ => []

theorem marksOf_next {i : Instr} {s u : State} (h : exec i s = .next u) : marksOf (exec i s) = u.atomics.map (·.more) := by rw [h, marksOf]

theorem strayMark_goesOn : strayMark.goesOn = true := by decide +kernel

theorem strayMark_room : strayMark.outstanding strayMark.gr.coreId = 0 := by decide +kernel

/-- An instruction that takes the stray mark away does not leave the atomics as they were. -/
theorem not_idles_strayMark {i : Instr} (h : marksOf (exec i strayMark) = [[]]) : ¬ Idles i strayMark := by
  rintro ⟨u, hu, -, -, -, -, -, -, -, hatomics⟩
  rw [marksOf_next hu, hatomics] at h
  exact absurd h (by decide)

/-- Refutes O27: an SLD whose guard is false takes a mark under number 0 from an atomic of another stream. -/
theorem not_loadIssue : ¬ Obligations.LoadIssue := by
  unfold Obligations.LoadIssue
  intro h
  obtain ⟨-, -, hidle⟩ := h strayMark 1 0 0 1 2 0 strayMark_goesOn (by decide) (by decide) (by rw [strayMark_room]; decide)
  exact not_idles_strayMark (by decide +kernel) (hidle (by decide))

/-- Refutes O29: an SST whose guard is false takes a mark under number 0 from an atomic of another stream. -/
theorem not_storeIssue : ¬ Obligations.StoreIssue := by
  unfold Obligations.StoreIssue
  intro h
  obtain ⟨-, -, hidle, -⟩ := h strayMark 1 0 0 1 2 0 strayMark_goesOn (by decide) (by decide) (by rw [strayMark_room]; decide) (fun hm => absurd hm (by decide))
    (fun y hy => absurd hy List.not_mem_nil)
  exact not_idles_strayMark (by decide +kernel) (hidle (by decide))

theorem strayMark_reaches : strayMark.reaches (strayMark.active 0) 1 0 strayMark.atomSize needRW := by
  unfold State.reaches State.reachesAt
  decide +kernel

/-- Refutes O32: a quantum RED takes a mark under number 0 from an atomic of another stream. -/
theorem not_atomicIssue : ¬ Obligations.AtomicIssue := by
  unfold Obligations.AtomicIssue
  intro h
  obtain ⟨-, -, hheld, -⟩ := h strayMark 0 2 0 1 0 4 strayMark_goesOn (by rw [strayMark_room]; decide) (fun hv => absurd hv (by decide)) (by decide +kernel)
    (by decide +kernel) strayMark_reaches
  obtain ⟨u, hu, -, -, hatomics, -⟩ := hheld (by decide) rfl rfl 0 (by decide +kernel)
  have hmarks := marksOf_next hu
  rw [hatomics] at hmarks
  exact absurd hmarks (by decide +kernel)

end Sys2Proof.Machine
end

section
/-!
SUPPORT. What the operations of the memory instructions leave as it was: each is said once, for every view pi of the state that does not see the fields which the operation writes.
-/
namespace Sys2Proof.Machine

variable {β : Type}

/-- A loop whose step keeps a view keeps it. -/
theorem foldl_keeps {α σ : Type} (pi : σ → β) {f : σ → α → σ} (h : ∀ s x, pi (f s x) = pi s) (l : List α) (s : σ) : pi (l.foldl f s) = pi s := by
  induction l generalizing s with
  | nil => rfl
  | cons x l ih => rw [List.foldl_cons, ih, h]

/-! Events and streams -/

theorem recheckEnd_keeps (pi : State → β) (h : ∀ s ev, pi { s with events := ev } = pi s) (s : State) (gid : Nat) : pi (s.recheckEnd gid) = pi s := by
  unfold State.recheckEnd
  split
  · split
    · exact h s _
    · rfl
  · rfl

theorem flagDone_keeps (pi : State → β) (h : ∀ s x xs, pi { s with st := x, streams := xs } = pi s) (s : State) (sid op : Nat) (f : Option Nat) :
    pi (s.flagDone sid op f) = pi s := by
  unfold State.flagDone
  split
  · exact h s _ _
  · rfl

theorem wakeOrder_keeps (pi : State → β) (h : ∀ s x xs, pi { s with st := x, streams := xs } = pi s) (s : State) (sid op : Nat) :
    pi (s.wakeOrder sid op) = pi s := h s _ _

/-! Samples and traces (R377, R378) -/

theorem trace_keeps (pi : State → β) (h : ∀ s cl, pi { s with clusters := cl } = pi s) (s : State) (core ctx type : Nat) (name rest : List Word) :
    pi (s.trace core ctx type name rest) = pi s := by
  unfold State.trace
  split
  · rfl
  · exact h s _

theorem endSamples_keeps (pi : State → β) (h : ∀ s cl sm fr, pi { s with clusters := cl, samples := sm, free := fr } = pi s) (s : State) (but : Nat) :
    pi (s.endSamples but) = pi s := by
  unfold State.endSamples
  refine foldl_keeps pi (fun t m => ?_) _ _
  split
  · rfl
  · have hfree (u : State) (n : Nat) : pi (u.useFree n) = pi u := h u u.clusters u.samples _
    have hsamples (u : State) (sm : List MemSample) : pi { u with samples := sm } = pi u := h u u.clusters sm u.free
    rw [hfree, trace_keeps pi (fun u cl => h u cl u.samples u.free), hsamples]

theorem sampleLane_keeps (pi : State → β) (h : ∀ s cl sm fr, pi { s with clusters := cl, samples := sm, free := fr } = pi s) (s : State) (k : Option Nat)
    (l : Nat) : pi (s.sampleLane k l) = pi s := by
  unfold State.sampleLane
  split
  · rw [endSamples_keeps pi h]
    exact h s s.clusters _ s.free
  · rfl

/-! Caches (R164 to R170) -/

theorem noteLoad_keeps (pi : State → β) (h : ∀ s l1 cores, pi { s with l1 := l1, cores := cores } = pi s) (s : State) (core ctx : Nat) (b : Bool) (l : Loc) :
    pi (s.noteLoad core ctx b l) = pi s := by
  unfold State.noteLoad
  split
  · exact h s _ s.cores
  · split
    · exact h s s.l1 _
    · exact h s _ _

theorem allocLine_keeps (pi : State → β) (h : ∀ s ls, pi { s with lines := ls } = pi s) (s : State) (x : TileLine) : pi (s.allocLine x) = pi s := by
  unfold State.allocLine
  dsimp only
  split
  · exact h s _
  · split
    · exact h s _
    · rfl

theorem syncLine_keeps (pi : State → β) (h : ∀ s ls sy, pi { s with lines := ls, syncLines := sy } = pi s) (s : State) (l : Loc) :
    pi (s.syncLine l) = pi s := by
  have hlines (u : State) (ls : List TileLine) : pi { u with lines := ls } = pi u := h u ls u.syncLines
  unfold State.syncLine
  split
  · rfl
  · dsimp only
    split
    · exact h s _ _
    · split
      · exact h s _ _
      · split
        · exact h s _ _
        · exact (allocLine_keeps pi hlines _ _).trans (h s _ _)

theorem countPage_keeps (pi : State → β) (h : ∀ s pc, pi { s with pageCounts := pc } = pi s) (s : State) (core : Nat) (a : AtomLane) :
    pi (s.countPage core a) = pi s := by
  unfold State.countPage
  split
  · rfl
  · split <;> exact h s _

end Sys2Proof.Machine
end

section
/-!
The return of a sector: O28.
-/
namespace Sys2Proof.Machine

/-! Bytes of HBM and host memory -/

theorem byteAt_plain_congr {u s : State} {l : Loc} (hl : l.plain 1) (hm : u.mem = s.mem) (hh : u.host = s.host) : u.byteAt l = s.byteAt l := by
  cases l with
  | host a => simp only [State.byteAt, hh]
  | dev a =>
    have ha : a < Config.hbmBytes := hl
    simp only [State.byteAt, if_pos ha, hm]
  | enc key a => exact hl.elim

theorem getN_plain_congr {u s : State} {l : Loc} {n : Nat} (hl : l.plain n) (hm : u.mem = s.mem) (hh : u.host = s.host) : u.getN l n = s.getN l n :=
  gatherLE_congr _ _ n (fun i hi => byteAt_plain_congr (plain_plus l n i hl hi) hm hh)

/-- What a load reads depends on the memories, the L1s and the synchronisation lines alone. -/
theorem loadBytes_plain_congr {u s : State} {l : Loc} {n : Nat} (hl : l.plain n) (hm : u.mem = s.mem) (hh : u.host = s.host) (h1 : u.l1 = s.l1)
    (hs : u.syncLines = s.syncLines) (core ctx : Nat) (b : Bool) : u.loadBytes core ctx b l n = s.loadBytes core ctx b l n := by
  have hsync : u.isSync l = s.isSync l := by unfold State.isSync; rw [hs]
  have hhit : u.l1Hit core ctx l = s.l1Hit core ctx l := by unfold State.l1Hit; rw [h1]
  unfold State.loadBytes
  rw [hsync, hhit, getN_plain_congr hl hm hh]

/-! The registers that a sector's lanes take -/

/-- The lanes of a group after one lane's read of value x.2 (R203). -/
def giveLane (allot : Nat) (ls : List Lane) (x : LoadLane × Nat) : List Lane :=
  ls.modify x.1.lane (fun y => y.land allot (x.1.words.zip (loadWords x.1.size x.1.signed x.2)))

/-- The scalar registers after a scalar read of value x.2 (R211). -/
def giveScalar (rs : List Word) (x : LoadLane × Nat) : List Word :=
  (x.1.words.zip (loadWords x.1.size x.1.signed x.2)).foldl (fun q w => match w.1 with
    | some k => q.set k w.2
    | none => q) rs

/-- What the issuing stream reads of a sector in lane q, and its value put into the registers that q names: one step of LOAD_SECTOR_RETURN. -/
def State.readValue (s : State) (r : LoadSector) (u : State) (q : LoadLane) : Nat :=
  if q.undef then u.freeValue q.size else u.loadBytes s.gr.coreId s.gr.ctx r.useL1 q.loc q.size

def State.takeRead (s : State) (r : LoadSector) (u : State) (q : LoadLane) : State :=
  let ws := q.words.zip (loadWords q.size q.signed (s.readValue r u q))
  let u1 := if r.scalar then u.landScalar s.st.sid ws else u.landLane s.gr.gid q.lane ws
  if q.undef then u1.useFree q.size else u1

/-- The reads of a list taken with the values beside them: registers alone have changed, the scalar ones or the lanes'. -/
structure Taken (s u : State) (scalar : Bool) (xs : List (LoadLane × Nat)) : Prop where
  mem : u.mem = s.mem
  host : u.host = s.host
  l1 : u.l1 = s.l1
  sync : u.syncLines = s.syncLines
  st : u.st = { s.st with sregs := if scalar then xs.foldl giveScalar s.st.sregs else s.st.sregs }
  gr : u.gr = { s.gr with lanes := if scalar then s.gr.lanes else xs.foldl (giveLane s.gr.allot) s.gr.lanes }

theorem taken_nil (s : State) (scalar : Bool) : Taken s s scalar [] := by
  cases scalar <;> exact ⟨rfl, rfl, rfl, rfl, rfl, rfl⟩

/-- One more read taken. -/
theorem taken_takeRead {s u : State} {r : LoadSector} {xs : List (LoadLane × Nat)} (h : Taken s u r.scalar xs) (q : LoadLane) :
    Taken s (s.takeRead r u q) r.scalar (xs ++ [(q, s.readValue r u q)]) := by
  obtain ⟨hmem, hhost, hl1, hsync, hst, hgr⟩ := h
  have hsid : u.st.sid = s.st.sid := by rw [hst]
  have hgid : u.gr.gid = s.gr.gid := by rw [hgr]
  have hallot : u.gr.allot = s.gr.allot := by rw [hgr]
  unfold State.takeRead
  generalize s.readValue r u q = v
  cases hr : r.scalar with
  | true =>
    have hst' : (u.landScalar s.st.sid (q.words.zip (loadWords q.size q.signed v))).st = { u.st with sregs := giveScalar u.st.sregs (q, v) } := if_pos hsid
    rw [hr] at hst hgr
    simp only [if_true] at hst hgr ⊢
    have hfinal : Taken s (u.landScalar s.st.sid (q.words.zip (loadWords q.size q.signed v))) true (xs ++ [(q, v)]) := by
      refine ⟨hmem, hhost, hl1, hsync, ?_, hgr⟩
      rw [hst', hst, List.foldl_append]
      rfl
    cases q.undef
    · exact hfinal
    · exact ⟨hfinal.mem, hfinal.host, hfinal.l1, hfinal.sync, hfinal.st, hfinal.gr⟩
  | false =>
    have hgr' : (u.landLane s.gr.gid q.lane (q.words.zip (loadWords q.size q.signed v))).gr = { u.gr with lanes := giveLane u.gr.allot u.gr.lanes (q, v) } :=
      if_pos hgid
    rw [hr] at hst hgr
    simp only [Bool.false_eq_true, if_false] at hst hgr ⊢
    have hfinal : Taken s (u.landLane s.gr.gid q.lane (q.words.zip (loadWords q.size q.signed v))) false (xs ++ [(q, v)]) := by
      refine ⟨hmem, hhost, hl1, hsync, hst, ?_⟩
      rw [hgr', hallot, hgr, List.foldl_append]
      rfl
    cases q.undef
    · exact hfinal
    · exact ⟨hfinal.mem, hfinal.host, hfinal.l1, hfinal.sync, hfinal.st, hfinal.gr⟩

/-- The value of a read that is defined, of HBM or host memory, is what the sector held when the return began. -/
def State.honest (s : State) (r : LoadSector) (x : LoadLane × Nat) : Prop :=
  x.1.undef = false → x.1.loc.plain x.1.size → x.2 = s.loadBytes s.gr.coreId s.gr.ctx r.useL1 x.1.loc x.1.size

theorem honest_readValue {s u : State} {r : LoadSector} {xs : List (LoadLane × Nat)} (h : Taken s u r.scalar xs) (q : LoadLane) :
    s.honest r (q, s.readValue r u q) := by
  intro hu hp
  show s.readValue r u q = _
  unfold State.readValue
  rw [show q.undef = false from hu, if_neg Bool.false_ne_true, loadBytes_plain_congr hp h.mem h.host h.l1 h.sync]

/-- All the reads of a list taken. -/
theorem taken_foldl {s u : State} {r : LoadSector} {xs : List (LoadLane × Nat)} (h : Taken s u r.scalar xs) (qs : List LoadLane) :
    ∃ vs : List Nat, vs.length = qs.length ∧ (∀ x ∈ qs.zip vs, s.honest r x) ∧
      Taken s (qs.foldl (s.takeRead r) u) r.scalar (xs ++ qs.zip vs) := by
  induction qs generalizing u xs with
  | nil => exact ⟨[], rfl, fun _ hx => absurd hx List.not_mem_nil, by simpa using h⟩
  | cons q qs ih =>
    obtain ⟨vs, hlen, hhonest, htaken⟩ := ih (taken_takeRead h q)
    refine ⟨s.readValue r u q :: vs, by simp [hlen], fun x hx => ?_, by simpa using htaken⟩
    rcases List.mem_cons.1 hx with rfl | hx
    · exact honest_readValue h q
    · exact hhonest x hx

/-! The return -/

/-- What follows the registers: the L1, the sector gone, its flag, its sample. -/
def State.sectorGone (u s : State) (r : LoadSector) (rest : List LoadSector) : State :=
  ((((u.noteLoad s.gr.coreId s.gr.ctx r.useL1 r.sector).modStream s.st.sid (fun y => { y with loads := rest })).flagDone s.st.sid r.id r.flag).sampleLane
    r.sample ((r.reads.getLast?.map (·.lane)).getD 0))

theorem exec_loadSectorReturn {s : State} {r : LoadSector} {rest : List LoadSector} (hl : s.st.loads = r :: rest) (hg : s.st.gid = s.gr.gid)
    (ho : s.olderOwn s.st r.id r.sector = false) :
    exec (.loadSectorReturn s.st.sid) s = .next ((r.reads.foldl (s.takeRead r) s).sectorGone s r rest) := by
  have hgroup : (s.allGroups.find? (fun y => y.gid == s.st.gid)).getD Group.none = s.gr := by simp [State.allGroups, hg]
  change execLoadSectorReturn s.st.sid s = _
  unfold execLoadSectorReturn
  simp only [stream?_self, hl, ho, hgroup, Bool.false_eq_true, if_false]
  rfl

/-- What a return leaves of the issuing stream beside its registers. -/
theorem sectorGone_st {u s : State} {r : LoadSector} {rest : List LoadSector} (h : u.st.sid = s.st.sid) :
    (u.sectorGone s r rest).st.sregs = u.st.sregs ∧ (u.sectorGone s r rest).st.loads = rest ∧
      (u.sectorGone s r rest).st.flags = match r.flag with
        | some f => u.st.flags.modify f (· - 1)
        | none => u.st.flags := by
  have hst : (u.sectorGone s r rest).st =
      (((u.noteLoad s.gr.coreId s.gr.ctx r.useL1 r.sector).modStream s.st.sid (fun y => { y with loads := rest })).flagDone s.st.sid r.id r.flag).st :=
    sampleLane_keeps State.st (fun _ _ _ _ => rfl) _ _ _
  have hnote : (u.noteLoad s.gr.coreId s.gr.ctx r.useL1 r.sector).st = u.st := noteLoad_keeps State.st (fun _ _ _ => rfl) _ _ _ _ _
  have hmod : ((u.noteLoad s.gr.coreId s.gr.ctx r.useL1 r.sector).modStream s.st.sid (fun y => { y with loads := rest })).st = { u.st with loads := rest } := by
    rw [← hnote] at h ⊢
    exact if_pos h
  rw [hst]
  have howns : ({ u.st with loads := rest } : Stream).owns s.st.sid r.id = true := by simp [Stream.owns, h]
  unfold State.flagDone
  cases hf : r.flag with
  | none => exact ⟨by rw [hmod], by rw [hmod], by rw [hmod]⟩
  | some f =>
    simp only [State.mapStreams, hmod, howns, Bool.not_true, if_false, Bool.false_eq_true]
    exact ⟨trivial, trivial, trivial⟩

theorem sectorGone_keeps {β : Type} (pi : State → β) (h1 : ∀ s l1 cores, pi { s with l1 := l1, cores := cores } = pi s)
    (h2 : ∀ s x xs, pi { s with st := x, streams := xs } = pi s) (h3 : ∀ s cl sm fr, pi { s with clusters := cl, samples := sm, free := fr } = pi s)
    (u s : State) (r : LoadSector) (rest : List LoadSector) : pi (u.sectorGone s r rest) = pi u :=
  (sampleLane_keeps pi h3 _ _ _).trans ((flagDone_keeps pi h2 _ _ _ _).trans ((h2 _ _ _).trans (noteLoad_keeps pi h1 _ _ _ _ _)))

/-! The values of the size codes (R205) -/

theorem widen_unsigned (v n : Nat) : widen v n false = BitVec.ofNat 32 (v % 2 ^ (8 * n)) := rfl

/-- A signed value of n bytes is the sign extension of its low bits. -/
theorem widen_signed {n : Nat} (v : Nat) (hn : 0 < n) : widen v n true = (BitVec.ofNat (8 * n) v).signExtend 32 := by
  have hmsb : (BitVec.ofNat (8 * n) v).msb = v.testBit (8 * n - 1) := by
    rw [BitVec.msb_eq_getLsbD_last, BitVec.getLsbD_ofNat]
    simp [hn]
  rw [widen, BitVec.signExtend, BitVec.toInt_eq_msb_cond, hmsb, BitVec.toNat_ofNat]
  cases v.testBit (8 * n - 1)
  · rw [if_neg Bool.false_ne_true, BitVec.ofInt_natCast]
    rfl
  · simp

theorem widen_word (v : Nat) (w : Bool) : widen v 4 w = BitVec.ofNat 32 v := by
  cases w
  · rw [widen_unsigned]
    apply BitVec.eq_of_toNat_eq
    simp
  · rw [widen_signed v (by decide)]
    exact BitVec.signExtend_eq _

theorem loadWords_codes (v : Nat) (w : Bool) :
    loadWords 1 false v = [BitVec.setWidth 32 (BitVec.ofNat 8 v)] ∧ loadWords 1 true v = [BitVec.signExtend 32 (BitVec.ofNat 8 v)] ∧
    loadWords 2 false v = [BitVec.setWidth 32 (BitVec.ofNat 16 v)] ∧ loadWords 2 true v = [BitVec.signExtend 32 (BitVec.ofNat 16 v)] ∧
    loadWords 4 w v = [BitVec.ofNat 32 v] ∧ loadWords 8 w v = (List.range 2).map (fun i => BitVec.ofNat 32 (v / 2 ^ (32 * i))) ∧
    loadWords 16 w v = (List.range 4).map (fun i => BitVec.ofNat 32 (v / 2 ^ (32 * i))) := by
  refine ⟨?_, congrArg (fun x : Word => [x]) (widen_signed v (by decide)), ?_, congrArg (fun x : Word => [x]) (widen_signed v (by decide)),
    congrArg (fun x : Word => [x]) (widen_word v w), ?_, ?_⟩
  · exact congrArg (fun x : Word => [x]) (BitVec.eq_of_toNat_eq (by simp [widen_unsigned]))
  · exact congrArg (fun x : Word => [x]) (BitVec.eq_of_toNat_eq (by simp [widen_unsigned]))
  · simp [loadWords, List.range_succ, Nat.shiftRight_eq_div_pow]
  · simp [loadWords, List.range_succ, Nat.shiftRight_eq_div_pow]

/-- Settles O28: the reads are taken one by one, which changes registers alone; then the sector, its flag and its sample go. -/
theorem loadReturn : Obligations.LoadReturn := by
  refine ⟨fun s r rest hl hg ho => ?_, loadWords_codes, by decide⟩
  obtain ⟨vs, hlen, hhonest, htaken⟩ := taken_foldl (taken_nil s r.scalar) r.reads
  rw [List.nil_append] at htaken
  obtain ⟨hmem, hhost, -, -, hst, hgr⟩ := htaken
  obtain ⟨hsregs, hloads, hflags⟩ := sectorGone_st (u := r.reads.foldl (s.takeRead r) s) (s := s) (r := r) (rest := rest) (by rw [hst])
  have hlanes : ((r.reads.foldl (s.takeRead r) s).sectorGone s r rest).gr = _ :=
    sectorGone_keeps State.gr (fun _ _ _ => rfl) (fun _ _ _ => rfl) (fun _ _ _ _ => rfl) _ s r rest
  refine ⟨_, vs, exec_loadSectorReturn hl hg ho, ⟨?_, ?_⟩, hloads, hlen, hhonest, fun hr => ⟨?_, ?_⟩, fun hr => ⟨?_, ?_⟩, ?_⟩
  · exact (sectorGone_keeps State.mem (fun _ _ _ => rfl) (fun _ _ _ => rfl) (fun _ _ _ _ => rfl) _ s r rest).trans hmem
  · exact (sectorGone_keeps State.host (fun _ _ _ => rfl) (fun _ _ _ => rfl) (fun _ _ _ _ => rfl) _ s r rest).trans hhost
  · rw [hsregs, hst, hr]
    rfl
  · rw [hlanes, hgr, hr]
    rfl
  · rw [hlanes, hgr, hr]
    rfl
  · rw [hsregs, hst, hr]
    rfl
  · rw [hflags, hst] <;> rfl

end Sys2Proof.Machine
end

section
/-!
Stores and atomics that perform: O30, O33.
-/
namespace Sys2Proof.Machine

variable {β : Type}

/-! A byte put -/

theorem putChip_keeps (pi : State → β) (h : ∀ s c g gs u us, pi { s with chip := c, gr := g, groups := gs, un := u, units := us } = pi s) (s : State) (a : Nat)
    (c : ChipLoc) (v : Byte) : pi (s.putChip a c v) = pi s := by
  have hchip (m : Memory) : pi { s with chip := m } = pi s := h s m s.gr s.groups s.un s.units
  have hgroups (gid : Nat) (f : Group → Group) : pi (s.modGroup gid f) = pi s := h s s.chip _ _ s.un s.units
  cases c with
  | scratch d k off =>
    unfold State.putChip
    dsimp only
    split
    · exact h s s.chip s.gr s.groups _ _
    · split
      · rfl
      · exact hchip _
  | frame d k p lane pos b =>
    unfold State.putChip
    dsimp only
    split
    · exact hgroups _ _
    · exact hchip _
  | acc d k p t r c b =>
    unfold State.putChip
    dsimp only
    split
    · exact hgroups _ _
    · exact hchip _

theorem putByte_keeps (pi : State → β)
    (h : ∀ s m ho c g gs u us, pi { s with mem := m, host := ho, chip := c, gr := g, groups := gs, un := u, units := us } = pi s)
    (s : State) (l : Loc) (v : Byte) : pi (s.putByte l v) = pi s := by
  cases l with
  | host a => exact h s s.mem _ s.chip s.gr s.groups s.un s.units
  | enc key a => exact h s _ s.host s.chip s.gr s.groups s.un s.units
  | dev a =>
    unfold State.putByte
    dsimp only
    split
    · exact h s _ s.host s.chip s.gr s.groups s.un s.units
    · split
      · exact putChip_keeps pi (fun t c g gs u us => h t t.mem t.host c g gs u us) s a _ v
      · rfl

/-- A byte put in HBM or host memory changes a memory alone. -/
theorem putByte_plain_keeps (pi : State → β) (h : ∀ s m ho, pi { s with mem := m, host := ho } = pi s) (s : State) {l : Loc} (hl : l.plain 1) (v : Byte) :
    pi (s.putByte l v) = pi s := by
  cases l with
  | host a => exact h s s.mem _
  | enc key a => exact hl.elim
  | dev a =>
    unfold State.putByte
    dsimp only
    rw [if_pos (show a < Config.hbmBytes from hl)]
    exact h s _ s.host

theorem putN_plain_keeps (pi : State → β) (h : ∀ s m ho, pi { s with mem := m, host := ho } = pi s) (s : State) {l : Loc} {n : Nat} (hl : l.plain n) (v : Nat) :
    pi (s.putN l v n) = pi s := by
  have hpart (k : Nat) (hk : k ≤ n) : pi (s.putN l v k) = pi s := by
    induction k with
    | zero => rfl
    | succ k ih => rw [State.putN, putByte_plain_keeps pi h _ (plain_plus l n k hl (by omega)), ih (by omega)]
  exact hpart n (Nat.le_refl n)

/-- A byte put where no key encrypts it: HBM and host memory change at most there. -/
theorem byteAt_putByte_of_plain (s : State) {l x : Loc} (v : Byte) (hx : x.plain 1) (hl : ∀ key a, l ≠ .enc key a) :
    (s.putByte l v).byteAt x = if l = x then v else s.byteAt x := by
  by_cases hp : l.plain 1
  · rw [byteAt_putByte s l x v hp hx]
    by_cases e : x = l
    · simp [e]
    · rw [if_neg e, if_neg (Ne.symm e)]
  · have hne : l ≠ x := fun e => hp (e ▸ hx)
    rw [if_neg hne]
    cases l with
    | host a => exact absurd trivial hp
    | enc key a => exact absurd rfl (hl key a)
    | dev a =>
      have ha : ¬ a < Config.hbmBytes := hp
      unfold State.putByte
      dsimp only
      rw [if_neg ha]
      split
      · exact byteAt_plain_congr hx (putChip_mem s a _ v).1 (putChip_mem s a _ v).2
      · rfl

/-! A list of bytes put, one after the other -/

/-- What the last write of a list to a location gives it. -/
def lastWrite (ws : List (Loc × Byte)) (l : Loc) (b : Byte) : Byte := ((ws.reverse.find? (fun w => decide (w.1 = l))).map (·.2)).getD b

theorem lastWrite_append (ws : List (Loc × Byte)) (w : Loc × Byte) (l : Loc) (b : Byte) :
    lastWrite (ws ++ [w]) l b = if w.1 = l then w.2 else lastWrite ws l b := by
  by_cases h : w.1 = l <;> simp [lastWrite, h]

def State.putBytes (s : State) (ws : List (Loc × Byte)) : State := ws.foldl (fun t w => t.putByte w.1 w.2) s

theorem putBytes_append (s : State) (ws : List (Loc × Byte)) (w : Loc × Byte) : s.putBytes (ws ++ [w]) = (s.putBytes ws).putByte w.1 w.2 := by
  simp [State.putBytes]

theorem byteAt_putBytes {ws : List (Loc × Byte)} {l : Loc} (h : ∀ (t : State), ∀ w ∈ ws, (t.putByte w.1 w.2).byteAt l = if w.1 = l then w.2 else t.byteAt l)
    (s : State) : (s.putBytes ws).byteAt l = lastWrite ws l (s.byteAt l) := by
  induction ws using List.reverseRecOn with
  | nil => rfl
  | append_singleton ws w ih =>
    rw [putBytes_append, lastWrite_append, h _ w (by simp), ih (fun t u hu => h t u (List.mem_append_left _ hu))]

theorem putBytes_keeps (pi : State → β)
    (h : ∀ s m ho c g gs u us, pi { s with mem := m, host := ho, chip := c, gr := g, groups := gs, un := u, units := us } = pi s)
    (s : State) (ws : List (Loc × Byte)) : pi (s.putBytes ws) = pi s := by
  unfold State.putBytes
  exact foldl_keeps pi (fun t w => putByte_keeps pi h t w.1 w.2) ws s

theorem putBytes_plain_keeps (pi : State → β) (h : ∀ s m ho, pi { s with mem := m, host := ho } = pi s) (s : State) {ws : List (Loc × Byte)}
    (hp : ∀ w ∈ ws, w.1.plain 1) : pi (s.putBytes ws) = pi s := by
  induction ws using List.reverseRecOn with
  | nil => rfl
  | append_singleton ws w ih =>
    rw [putBytes_append, putByte_plain_keeps pi h _ (hp w (by simp)), ih (fun u hu => hp u (List.mem_append_left _ hu))]

theorem memWf_putBytes (s : State) (ws : List (Loc × Byte)) (h : s.memWf) : (s.putBytes ws).memWf := by
  induction ws generalizing s with
  | nil => exact h
  | cons w ws ih => exact ih _ (putByte_memWf s w.1 w.2 h)

theorem putByte_enc (s : State) (key a : Nat) (v : Byte) : (s.putByte (.enc key a) v).host = s.host ∧ (s.putByte (.enc key a) v).mem = s.mem.putEnc key a v := by
  simp only [State.putByte, and_self]

/-- Bytes put under one key (R392): host memory stays, and so does every byte outside their sectors. -/
theorem putBytes_enc {ws : List (Loc × Byte)} {key : Nat} (h : ∀ w ∈ ws, ∃ a, w.1 = .enc key a) (s : State) :
    (s.putBytes ws).host = s.host ∧ ∀ a, (∀ w ∈ ws, w.1.num / 32 ≠ a / 32) → (s.putBytes ws).mem.get a = s.mem.get a := by
  induction ws using List.reverseRecOn with
  | nil => exact ⟨rfl, fun _ _ => rfl⟩
  | append_singleton ws w ih =>
    obtain ⟨ihhost, ihmem⟩ := ih (fun u hu => h u (List.mem_append_left _ hu))
    obtain ⟨b, hb⟩ := h w (by simp)
    obtain ⟨hhost, hmem⟩ := putByte_enc (s.putBytes ws) key b w.2
    rw [putBytes_append, hb, hhost, hmem]
    refine ⟨ihhost, fun a ha => ?_⟩
    have hw : b / 32 ≠ a / 32 := by
      have := ha w (by simp)
      rwa [hb] at this
    rw [Memory.get_putEnc _ key b a w.2 (Ne.symm hw), ihmem a (fun u hu => ha u (List.mem_append_left _ hu))]

/-! The store performs (R189, R191) -/

/-- What follows the bytes of a store: its flag, the streams that wait for it, its group's end, its sample. -/
def State.storeEnds (u : State) (p : PendStore) : State :=
  (((u.flagDone p.sid p.id p.flag).wakeOrder p.sid p.id).recheckEnd p.gid).sampleLane p.sample p.lane

theorem storePerformed_some {s : State} {p : PendStore} (h : s.stores.find? (fun y => y.id == p.id) = some p) :
    s.storePerformed p.id = (({ s with stores := s.stores.filter (fun y => y.id != p.id) } : State).putBytes p.writes).storeEnds p := by
  unfold State.storePerformed
  simp only [h]
  rfl

theorem storeEnds_keeps (pi : State → β) (hst : ∀ s x xs, pi { s with st := x, streams := xs } = pi s) (hev : ∀ s ev, pi { s with events := ev } = pi s)
    (hsm : ∀ s cl sm fr, pi { s with clusters := cl, samples := sm, free := fr } = pi s) (u : State) (p : PendStore) : pi (u.storeEnds p) = pi u :=
  (sampleLane_keeps pi hsm _ _ _).trans ((recheckEnd_keeps pi hev _ _).trans ((wakeOrder_keeps pi hst _ _ _).trans (flagDone_keeps pi hst _ _ _ _)))

theorem storeEnds_mem (u : State) (p : PendStore) : (u.storeEnds p).mem = u.mem :=
  storeEnds_keeps State.mem (fun _ _ _ => rfl) (fun _ _ => rfl) (fun _ _ _ _ => rfl) u p

theorem storeEnds_host (u : State) (p : PendStore) : (u.storeEnds p).host = u.host :=
  storeEnds_keeps State.host (fun _ _ _ => rfl) (fun _ _ => rfl) (fun _ _ _ _ => rfl) u p

theorem storePerformed_memWf (s : State) (id : Nat) (h : s.memWf) : (s.storePerformed id).memWf := by
  cases hf : s.stores.find? (fun x => x.id == id) with
  | none =>
    unfold State.storePerformed
    simpa only [hf] using h
  | some p =>
    have hid : p.id = id := by simpa using List.find?_some hf
    subst hid
    rw [storePerformed_some hf, State.memWf, storeEnds_mem, storeEnds_host]
    exact memWf_putBytes _ p.writes h

theorem gatherLE_lt (f : Nat → Byte) (n : Nat) : gatherLE f n < 2 ^ (8 * n) := by
  induction n with
  | zero => exact Nat.one_pos
  | succ k ih =>
    have hb : (f k).toNat < 2 ^ 8 := (f k).isLt
    rw [gatherLE, Nat.shiftLeft_eq, show 8 * (k + 1) = 8 * k + 8 by omega, Nat.pow_add]
    calc gatherLE f k + (f k).toNat * 2 ^ (8 * k) < 2 ^ (8 * k) + (f k).toNat * 2 ^ (8 * k) := by omega
      _ = 2 ^ (8 * k) * ((f k).toNat + 1) := by ring
      _ ≤ 2 ^ (8 * k) * 2 ^ 8 := Nat.mul_le_mul_left _ hb

/-- Byte i of bytes gathered is the one at i. -/
theorem byteOf_gatherLE (f : Nat → Byte) (n i : Nat) (hi : i < n) : byteOf (gatherLE f n) i = f i := by
  induction n with
  | zero => exact absurd hi (Nat.not_lt_zero i)
  | succ k ih =>
    apply BitVec.eq_of_toNat_eq
    rw [byteOf, BitVec.toNat_ofNat, Nat.shiftRight_eq_div_pow, gatherLE, Nat.shiftLeft_eq]
    by_cases hik : i = k
    · subst hik
      rw [Nat.add_mul_div_right _ _ (Nat.two_pow_pos _), Nat.div_eq_of_lt (gatherLE_lt f i), Nat.zero_add, Nat.mod_eq_of_lt (f i).isLt]
    · have hlow := congrArg BitVec.toNat (ih (by omega))
      rw [byteOf, BitVec.toNat_ofNat, Nat.shiftRight_eq_div_pow] at hlow
      obtain ⟨j, rfl⟩ : ∃ j, k = i + 1 + j := ⟨k - (i + 1), by omega⟩
      have hpow : (f (i + 1 + j)).toNat * 2 ^ (8 * (i + 1 + j)) = (f (i + 1 + j)).toNat * 2 ^ (8 * j) * 2 ^ 8 * 2 ^ (8 * i) := by
        rw [show 8 * (i + 1 + j) = 8 * j + 8 + 8 * i by omega, Nat.pow_add, Nat.pow_add]
        ring
      rw [hpow, Nat.add_mul_div_right _ _ (Nat.two_pow_pos _), Nat.add_mul_mod_self_right, hlow]

/-- What a page without ENC reads of a sector is the encryption of what the key reads (R392, log entry 11). -/
theorem byteAt_cipher (s : State) (k a : Nat) (ha : a < Config.hbmBytes) :
    s.byteAt (.dev a) = byteOf (Config.sectorCipher k (a / 32) (BitVec.ofNat 256 (s.getN (.enc k (32 * (a / 32))) 32))).toNat (a % 32) := by
  have hread : s.getN (.enc k (32 * (a / 32))) 32 = gatherLE (byteOf (s.mem.plainSector k (a / 32)).toNat) 32 :=
    gatherLE_congr _ _ 32 (fun i hi => by
      show s.mem.getEnc k (32 * (a / 32) + i) = _
      rw [Memory.getEnc, show (32 * (a / 32) + i) / 32 = a / 32 by omega, show (32 * (a / 32) + i) % 32 = i by omega])
  have hraw : (BitVec.ofNat 256 (s.mem.getN (32 * (a / 32)) 32)).toNat = gatherLE (fun i => s.mem.get (32 * (a / 32) + i)) 32 :=
    Nat.mod_eq_of_lt (gatherLE_lt _ 32)
  rw [hread, ofNat_gather, Memory.plainSector, Equiv.apply_symm_apply, hraw, byteOf_gatherLE _ _ _ (Nat.mod_lt _ (by decide))]
  show (if a < Config.hbmBytes then s.mem.get a else _) = s.mem.get (32 * (a / 32) + a % 32)
  rw [if_pos ha, Nat.div_add_mod]

/-- Settles O30: the bytes of a store are put one after the other; what follows them changes no memory. -/
theorem storePerforms : Obligations.StorePerforms := by
  refine ⟨fun s x hf henc => ⟨_, congrArg Host.Outcome.next (storePerformed_some hf), ?_, fun l hl => ?_, fun hp => ⟨?_, ?_, ?_, ?_⟩⟩,
    fun s x k hf henc => ⟨_, congrArg Host.Outcome.next (storePerformed_some hf), ?_, fun a => ?_, fun a ha => ?_⟩, byteAt_cipher, ?_⟩
  · exact (storeEnds_keeps State.stores (fun _ _ _ => rfl) (fun _ _ => rfl) (fun _ _ _ _ => rfl) _ x).trans
      (putBytes_keeps State.stores (fun _ _ _ _ _ _ _ _ => rfl) _ _)
  · rw [byteAt_plain_congr hl (storeEnds_mem _ x) (storeEnds_host _ x)]
    exact byteAt_putBytes (fun t w hw => byteAt_putByte_of_plain t w.2 hl (henc w hw)) _
  · exact (storeEnds_keeps State.gr (fun _ _ _ => rfl) (fun _ _ => rfl) (fun _ _ _ _ => rfl) _ x).trans (putBytes_plain_keeps State.gr (fun _ _ _ => rfl) _ hp)
  · exact (storeEnds_keeps State.groups (fun _ _ _ => rfl) (fun _ _ => rfl) (fun _ _ _ _ => rfl) _ x).trans
      (putBytes_plain_keeps State.groups (fun _ _ _ => rfl) _ hp)
  · exact (storeEnds_keeps State.un (fun _ _ _ => rfl) (fun _ _ => rfl) (fun _ _ _ _ => rfl) _ x).trans (putBytes_plain_keeps State.un (fun _ _ _ => rfl) _ hp)
  · exact (storeEnds_keeps State.units (fun _ _ _ => rfl) (fun _ _ => rfl) (fun _ _ _ _ => rfl) _ x).trans
      (putBytes_plain_keeps State.units (fun _ _ _ => rfl) _ hp)
  · exact (storeEnds_host _ x).trans (putBytes_enc henc _).1
  · have hmem := storeEnds_mem (({ s with stores := s.stores.filter (fun y => y.id != x.id) } : State).putBytes x.writes) x
    refine (congrArg (fun m : Memory => m.getEnc k a) hmem).trans ?_
    refine byteAt_putBytes (l := .enc k a) (fun t w hw => ?_) _
    obtain ⟨b, hb⟩ := henc w hw
    rw [hb, byteAt_putByte_enc]
    by_cases e : a = b
    · simp [e]
    · rw [if_neg e, if_neg (fun h => e (Loc.enc.inj h).2.symm)]
  · rw [storeEnds_mem]
    exact (putBytes_enc henc _).2 a ha
  · rintro s t id hwf ⟨⟩
    exact storePerformed_memWf s id hwf

/-! An atomic performs (R170, R209) -/

/-- What an atomic of a lane finds at its location, and what it puts there. -/
def State.atomOld (s : State) (a : AtomLane) : Pair := BitVec.ofNat 64 (if a.undef then s.freeValue a.size else s.getN a.loc a.size)

def State.atomPut (s : State) (a : AtomLane) : State := s.putN a.loc (atomNew a.opa a.size a.sgn a.flt (s.atomOld a) a.v a.nv).toNat a.size

/-- What follows the new value of a lane's atomic: its line, the counts, the L1, and the old value in the lane's registers. -/
def State.atomLands (u : State) (gid core : Nat) (a : AtomLane) (old : Pair) : State :=
  ((((((u.syncLine a.loc).countDie (Loc.homeDie a.loc) 4 1).useFree (if a.undef then a.size else 0)).noteAtomic core a.loc).countPage core a).landLane gid a.lane
    (a.words.zip (loadWords (if a.size = 8 then 8 else 4) false old.toNat)))

theorem performLane_eq (s : State) (gid core : Nat) (a : AtomLane) : s.performLane gid core a = (s.atomPut a).atomLands gid core a (s.atomOld a) := rfl

theorem atomLands_keeps (pi : State → β)
    (h : ∀ s ls sy d fr l1 pc g gs, pi { s with lines := ls, syncLines := sy, dies := d, free := fr, l1 := l1, pageCounts := pc, gr := g, groups := gs } = pi s)
    (u : State) (gid core : Nat) (a : AtomLane) (old : Pair) : pi (u.atomLands gid core a old) = pi u :=
  (h _ _ _ _ _ _ _ _ _).trans
    ((countPage_keeps pi (fun t pc => h t t.lines t.syncLines t.dies t.free t.l1 pc t.gr t.groups) _ core a).trans
      ((h (u.syncLine a.loc) _ _ _ _ _ _ _ _).trans (syncLine_keeps pi (fun t ls sy => h t ls sy t.dies t.free t.l1 t.pageCounts t.gr t.groups) _ a.loc)))

/-- What the lanes' atomics are followed by: their flags, the streams that wait, the group's end, the samples. -/
def State.atomicEnds (u : State) (p : PendAtomic) : State :=
  p.more.foldl (fun t m => t.sampleLane (some m.1) m.2)
    ((((p.flags.foldl (fun t f => t.flagDone p.sid p.id (some f)) u).wakeOrder p.sid p.id).recheckEnd p.gid).sampleLane p.sample
      ((p.ops.getLast?.map (·.lane)).getD 0))

theorem atomicPerformed_some {s : State} {p : PendAtomic} (h : s.atomics.find? (fun y => y.id == p.id) = some p) :
    s.atomicPerformed p.id = (p.ops.foldl (fun (t : State) a => t.performLane p.gid p.core a)
      { s with atomics := s.atomics.filter (fun y => y.id != p.id) }).atomicEnds p := by
  unfold State.atomicPerformed
  simp only [h]
  rfl

theorem atomicEnds_keeps (pi : State → β) (hst : ∀ s x xs, pi { s with st := x, streams := xs } = pi s) (hev : ∀ s ev, pi { s with events := ev } = pi s)
    (hsm : ∀ s cl sm fr, pi { s with clusters := cl, samples := sm, free := fr } = pi s) (u : State) (p : PendAtomic) : pi (u.atomicEnds p) = pi u :=
  (foldl_keeps pi (fun t m => sampleLane_keeps pi hsm t _ _) _ _).trans
    ((sampleLane_keeps pi hsm _ _ _).trans ((recheckEnd_keeps pi hev _ _).trans ((wakeOrder_keeps pi hst _ _ _).trans
      (foldl_keeps pi (fun t f => flagDone_keeps pi hst t _ _ _) _ _))))

/-- A byte outside the location of a lane's atomic stays. -/
theorem byteAt_performLane {s : State} {gid core : Nat} {a : AtomLane} {l : Loc} (ha : a.loc.plain a.size) (hl : l.plain 1) (hout : ¬ l.among a.loc a.size) :
    (s.performLane gid core a).byteAt l = s.byteAt l := by
  rw [performLane_eq, byteAt_plain_congr hl (atomLands_keeps State.mem (fun _ _ _ _ _ _ _ _ _ => rfl) _ _ _ _ _)
    (atomLands_keeps State.host (fun _ _ _ _ _ _ _ _ _ => rfl) _ _ _ _ _)]
  exact (byteAt_putN s a.loc _ a.size ha).2 l hl hout

theorem performLanes_keeps (pi : State → β) (hmem : ∀ s m ho, pi { s with mem := m, host := ho } = pi s)
    (h : ∀ s ls sy d fr l1 pc g gs, pi { s with lines := ls, syncLines := sy, dies := d, free := fr, l1 := l1, pageCounts := pc, gr := g, groups := gs } = pi s)
    {ops : List AtomLane} (hp : ∀ q ∈ ops, q.loc.plain q.size) (gid core : Nat) (s : State) :
    pi (ops.foldl (fun t a => t.performLane gid core a) s) = pi s := by
  induction ops generalizing s with
  | nil => rfl
  | cons q ops ih =>
    rw [List.foldl_cons, ih (fun x hx => hp x (List.mem_cons_of_mem _ hx)), performLane_eq, atomLands_keeps pi h]
    exact putN_plain_keeps pi hmem s (hp q (List.mem_cons_self ..)) _

theorem byteAt_performLanes {ops : List AtomLane} {gid core : Nat} {l : Loc} (hl : l.plain 1) (hp : ∀ q ∈ ops, q.loc.plain q.size)
    (hout : ∀ q ∈ ops, ¬ l.among q.loc q.size) (s : State) : (ops.foldl (fun t a => t.performLane gid core a) s).byteAt l = s.byteAt l := by
  induction ops generalizing s with
  | nil => rfl
  | cons q ops ih =>
    rw [List.foldl_cons, ih (fun x hx => hp x (List.mem_cons_of_mem _ hx)) (fun x hx => hout x (List.mem_cons_of_mem _ hx)),
      byteAt_performLane (hp q (List.mem_cons_self ..)) hl (hout q (List.mem_cons_self ..))]

/-- A value of n bytes fits them. -/
theorem atomNew_lt (o : BitVec 3) (n : Nat) (sgn flt : Bool) (old v nv : Pair) : (atomNew o n sgn flt old v nv).toNat < 2 ^ (8 * n) := by
  unfold atomNew
  dsimp only
  rw [BitVec.toNat_ofNat]
  exact Nat.lt_of_le_of_lt (Nat.mod_le _ _) (Nat.mod_lt _ (Nat.two_pow_pos _))

/-- The place takes the new value. -/
theorem getN_performLane {s : State} {gid core : Nat} {a : AtomLane} (ha : a.loc.plain a.size) :
    (s.performLane gid core a).getN a.loc a.size = (atomNew a.opa a.size a.sgn a.flt (s.atomOld a) a.v a.nv).toNat := by
  rw [performLane_eq, getN_plain_congr ha (atomLands_keeps State.mem (fun _ _ _ _ _ _ _ _ _ => rfl) _ _ _ _ _)
    (atomLands_keeps State.host (fun _ _ _ _ _ _ _ _ _ => rfl) _ _ _ _ _), State.atomPut, getN_putN _ _ _ _ ha]
  exact Nat.mod_eq_of_lt (atomNew_lt ..)

/-- A line that an atomic makes a synchronisation line is the most recent one, so another gives way for it (R170). -/
theorem isSync_syncLine (s : State) (d : Nat) : (s.syncLine (.dev d)).isSync (.dev d) = true := by
  have hmem (ls : List Nat) : (ls.filter (· != d / 128) ++ [d / 128]).contains (d / 128) = true := by simp
  unfold State.syncLine
  dsimp only [Loc.pa]
  split
  · exact hmem _
  · next hlong =>
    split
    · exact hmem _
    · split
      · exact hmem _
      · next old rest hown =>
        have hold : old ≠ d / 128 := by
          rintro rfl
          have hhead : ((s.syncLines.filter (· != d / 128)).filter (lineOn (Loc.homeDie (.dev d)))) = [] := by
            cases hf : (s.syncLines.filter (· != d / 128)).filter (lineOn (Loc.homeDie (.dev d))) with
            | nil => rfl
            | cons x xs =>
              rw [List.filter_append, hf, List.cons_append] at hown
              have hx : x ∈ (s.syncLines.filter (· != d / 128)).filter (lineOn (Loc.homeDie (.dev d))) := by rw [hf]; exact List.mem_cons_self ..
              have hne : x ≠ d / 128 := by simpa using (List.mem_filter.1 (List.mem_filter.1 hx).1).2
              exact absurd (List.cons.inj hown).1 hne
          refine hlong (Nat.le_trans (m := 1) ?_ (by decide))
          rw [List.filter_append, hhead, List.nil_append]
          exact List.length_filter_le _ _
        have hsync := allocLine_keeps State.syncLines (fun _ _ => rfl)
        show ((State.allocLine _ _).syncLines).contains (d / 128) = true
        rw [hsync]
        simp [Ne.symm hold]

theorem isSync_performLane {s : State} {gid core : Nat} {a : AtomLane} {d : Nat} (h : a.loc = .dev d) : (s.performLane gid core a).isSync a.loc = true := by
  have hlater : (s.performLane gid core a).syncLines = ((s.atomPut a).syncLine a.loc).syncLines := by
    rw [performLane_eq]
    exact countPage_keeps State.syncLines (fun _ _ => rfl) _ core a
  have hsync := isSync_syncLine (s.atomPut a) d
  rw [h] at hlater ⊢
  unfold State.isSync at hsync ⊢
  rw [hlater]
  exact hsync

/-- The lane's registers take the old value. -/
theorem lanes_performLane {s : State} {core : Nat} {a : AtomLane} (ha : a.loc.plain a.size) :
    (s.performLane s.gr.gid core a).gr.lanes = s.gr.lanes.modify a.lane (fun y => y.land s.gr.allot
      (a.words.zip (loadWords (if a.size = 8 then 8 else 4) false (s.atomOld a).toNat))) := by
  let u := ((((s.atomPut a).syncLine a.loc).countDie (Loc.homeDie a.loc) 4 1).useFree (if a.undef then a.size else 0)).noteAtomic core a.loc
  have hgr : (u.countPage core a).gr = s.gr :=
    (countPage_keeps State.gr (fun _ _ => rfl) _ core a).trans ((syncLine_keeps State.gr (fun _ _ _ => rfl) _ a.loc).trans
      (putN_plain_keeps State.gr (fun _ _ _ => rfl) s ha _))
  have hland (t : State) (ws : List (Option Nat × Word)) :
      (t.landLane t.gr.gid a.lane ws).gr.lanes = t.gr.lanes.modify a.lane (fun y => y.land t.gr.allot ws) := congrArg Group.lanes (if_pos rfl)
  have hlands := hland (u.countPage core a) (a.words.zip (loadWords (if a.size = 8 then 8 else 4) false (s.atomOld a).toNat))
  rw [hgr] at hlands
  exact hlands

/-! The new value by its operation (R209) -/

theorem atomNew_codes (old v nv : Pair) (n : Nat) (hn : n = 4 ∨ n = 8) :
    (atomNew 0 n false false old v nv).toNat = (old.toNat + v.toNat) % 2 ^ (8 * n) ∧
    (atomNew 3 n false false old v nv).toNat = (old &&& v).toNat % 2 ^ (8 * n) ∧
    (atomNew 4 n false false old v nv).toNat = (old ||| v).toNat % 2 ^ (8 * n) ∧
    (atomNew 5 n false false old v nv).toNat = (old ^^^ v).toNat % 2 ^ (8 * n) ∧
    (atomNew 6 n false false old v nv).toNat = v.toNat % 2 ^ (8 * n) ∧
    (atomNew 7 n false false old v nv).toNat = (if old.toNat % 2 ^ (8 * n) = v.toNat % 2 ^ (8 * n) then nv else old).toNat % 2 ^ (8 * n) ∧
    (atomNew 1 n false false old v nv).toNat = min (old.toNat % 2 ^ (8 * n)) (v.toNat % 2 ^ (8 * n)) ∧
    (atomNew 2 n false false old v nv).toNat = max (old.toNat % 2 ^ (8 * n)) (v.toNat % 2 ^ (8 * n)) := by
  have hwidth : 2 ^ (8 * n) ∣ 2 ^ 64 := by rcases hn with rfl | rfl <;> exact pow_dvd_pow 2 (by decide)
  have hle : 2 ^ (8 * n) ≤ 2 ^ 64 := Nat.le_of_dvd (by decide) hwidth
  have hfit (x : Nat) : (BitVec.ofNat 64 (x % 2 ^ (8 * n))).toNat = x % 2 ^ (8 * n) := by
    rw [BitVec.toNat_ofNat]
    exact Nat.mod_eq_of_lt (Nat.lt_of_lt_of_le (Nat.mod_lt _ (Nat.two_pow_pos _)) hle)
  refine ⟨?_, hfit _, hfit _, hfit _, hfit _, hfit _, ?_, ?_⟩
  · refine (hfit (old + v).toNat).trans ?_
    rw [BitVec.toNat_add, Nat.mod_mod_of_dvd _ hwidth]
  · refine (hfit _).trans ?_
    by_cases h : old.toNat % 2 ^ (8 * n) < v.toNat % 2 ^ (8 * n)
    · simp [h, Nat.min_eq_left (Nat.le_of_lt h)]
    · simp [h, Nat.min_eq_right (Nat.le_of_not_lt h)]
  · refine (hfit _).trans ?_
    by_cases h : old.toNat % 2 ^ (8 * n) < v.toNat % 2 ^ (8 * n)
    · simp [h, Nat.max_eq_right (Nat.le_of_lt h)]
    · simp [h, Nat.max_eq_left (Nat.le_of_not_lt h)]

/-- Settles O33: the lanes' atomics perform one after the other; what follows them changes neither memory nor registers. -/
theorem atomicPerforms : Obligations.AtomicPerforms := by
  refine ⟨fun s x hf hp => ?_, atomNew_codes⟩
  let t : State := { s with atomics := s.atomics.filter (fun y => y.id != x.id) }
  let u := x.ops.foldl (fun (t : State) a => t.performLane x.gid x.core a) t
  have keeps {γ : Type} (pi : State → γ) (hst : ∀ s y ys, pi { s with st := y, streams := ys } = pi s) (hev : ∀ s ev, pi { s with events := ev } = pi s)
    (hsm : ∀ s cl sm fr, pi { s with clusters := cl, samples := sm, free := fr } = pi s) : pi (u.atomicEnds x) = pi u := atomicEnds_keeps pi hst hev hsm u x
  have hmem : (u.atomicEnds x).mem = u.mem := keeps State.mem (fun _ _ _ => rfl) (fun _ _ => rfl) (fun _ _ _ _ => rfl)
  have hhost : (u.atomicEnds x).host = u.host := keeps State.host (fun _ _ _ => rfl) (fun _ _ => rfl) (fun _ _ _ _ => rfl)
  refine ⟨_, congrArg Host.Outcome.next (atomicPerformed_some hf), ?_, fun l hl hout => ?_, fun q hq hgid hu => ?_⟩
  · exact (keeps State.atomics (fun _ _ _ => rfl) (fun _ _ => rfl) (fun _ _ _ _ => rfl)).trans
      (performLanes_keeps State.atomics (fun _ _ _ => rfl) (fun _ _ _ _ _ _ _ _ _ => rfl) hp x.gid x.core t)
  · rw [byteAt_plain_congr hl hmem hhost]
    exact byteAt_performLanes hl hp hout t
  · have hq1 : q.loc.plain q.size := hp q (by simp [hq])
    have hone : u = t.performLane s.gr.gid x.core q := by
      show x.ops.foldl (fun (t : State) a => t.performLane x.gid x.core a) t = _
      rw [hq, hgid]
      rfl
    have hold : t.atomOld q = BitVec.ofNat 64 (s.getN q.loc q.size) := by
      rw [State.atomOld, hu, if_neg Bool.false_ne_true, getN_plain_congr hq1 (show t.mem = s.mem from rfl) rfl]
    refine ⟨?_, fun d hd => ?_, ?_⟩
    · rw [getN_plain_congr hq1 hmem hhost, hone, getN_performLane hq1, hold]
    · have hsync : (u.atomicEnds x).syncLines = u.syncLines := keeps State.syncLines (fun _ _ _ => rfl) (fun _ _ => rfl) (fun _ _ _ _ => rfl)
      have hthere := isSync_performLane (s := t) (gid := s.gr.gid) (core := x.core) hd
      rw [← hone] at hthere
      unfold State.isSync at hthere ⊢
      rw [hsync]
      exact hthere
    · rw [keeps (fun v => v.gr.lanes) (fun _ _ _ => rfl) (fun _ _ => rfl) (fun _ _ _ _ => rfl), hone, ← hold]
      exact lanes_performLane (s := t) hq1

end Sys2Proof.Machine
end

section
/-!
TBSET and FENCE: O34.
-/
namespace Sys2Proof.Machine

/-! TBSET (R172, R212) -/

section

variable {s : State} {g : BitVec 4} {n : BitVec 3} {a b : BitVec 6}

/-- The first page and the length that a TBSET names. -/
def State.tbVa (s : State) (a : BitVec 6) : Nat := (s.sregPair a.toNat).toNat % 2 ^ 57

def State.tbLen (s : State) (b : BitVec 6) : Nat := if s.sreg b.toNat = 0 then 2 ^ 32 else (s.sreg b.toNat).toNat

/-- The register that a TBSET names, bound. -/
def State.tbBound (s : State) (n : BitVec 3) (a b : BitVec 6) : State :=
  s.modSt (fun x => { x with tb := x.tb.set n.toNat (s.tbBinding (s.tbVa a) (s.tbLen b)) })

theorem exec_tbset (s : State) (g : BitVec 4) (n : BitVec 3) (a b : BitVec 6) : exec (.tbset g n a b) s = s.run (
    if s.uniGuard g && isPair a.toNat && s.unwalked (s.tbVa a) then
      s.requesting 1 (fun u => .next (((u.tbBound n a b).queueWalk u.gr.coreId u.gr.ctx (u.tbVa a) needR false).countCore u.gr.coreId 6 1))
    else s.once g (isPair a.toNat) (fun u => u.tbBound n a b)) := rfl

theorem tbBinding_walked {va len : Nat} (h : s.unwalked va = false) : s.tbBinding va len = s.bindTb s.gr.ctx va len := by
  simp [State.tbBinding, h]

theorem tbBinding_unwalked {va len : Nat} (h : s.unwalked va = true) :
    s.tbBinding va len = { bound := true, va := va, len := len, run := 0, limit := 0, perms := ⟨false, false, false⟩, stale := true } := by
  simp [State.tbBinding, h]

/-- A walk put into the queue changes the walk queues alone. -/
theorem queueWalk_keeps {β : Type} (pi : State → β) (h : ∀ s d, pi { s with dies := d } = pi s) (s : State) (core ctx va : Nat) (need : BitVec 3) :
    pi (s.queueWalk core ctx va need false) = pi s := by
  unfold State.queueWalk
  dsimp only
  split
  · exact h s _
  · exact h s _

/-- A binding holds what its TBSET names; where its first page is mapped, its frame, permissions and key. -/
theorem bindTb_spec (s : State) (ctx va m : Nat) :
    (s.bindTb ctx va m).bound = true ∧ (s.bindTb ctx va m).va = va ∧ (s.bindTb ctx va m).len = m ∧ (s.bindTb ctx va m).stale = false ∧
      (∀ f size p no enc, s.walkVa ctx va = .page f size p false no enc →
        (s.bindTb ctx va m).run = f + va % size ∧ (s.bindTb ctx va m).perms = p ∧ (s.bindTb ctx va m).key = s.keyOf ctx enc) := by
  unfold State.bindTb
  split
  · next f size p no enc hw =>
    refine ⟨rfl, rfl, rfl, rfl, fun f' size' p' no' enc' h => ?_⟩
    cases hw.symm.trans h
    exact ⟨rfl, rfl, rfl⟩
  · next hnone => exact ⟨rfl, rfl, rfl, rfl, fun f size p no enc h => absurd h (hnone f size p no enc)⟩

theorem once_tbset (hp : isPair a.toNat = true) (hw : s.unwalked (s.tbVa a) = false) : Once (.tbset g n a b) s g
    (s.modSt (fun x => { x with tb := x.tb.set n.toNat (s.bindTb s.gr.ctx (s.tbVa a) (s.tbLen b)) })) := by
  have he := exec_tbset s g n a b
  rw [if_neg (by simp [hw])] at he
  exact once_of he hp (by rw [State.tbBound, tbBinding_walked hw]) ⟨rfl, rfl⟩

theorem retires_tbset_skipped (hp : isPair a.toNat = true) (hgo : s.goesOn = true) (hg : s.uniGuard g = false) : Retires (.tbset g n a b) s s false := by
  have he := exec_tbset s g n a b
  rw [if_neg (by simp [hg])] at he
  have hone := once_of he hp rfl ⟨rfl, rfl⟩ hgo
  rwa [if_neg (by simp [hg])] at hone

/-- A TBSET whose first page has a walk to wait for asks for it (R175, log entry 23). -/
theorem retires_tbset_asks (hp : isPair a.toNat = true) (hw : s.unwalked (s.tbVa a) = true) (hgo : s.goesOn = true) (hg : s.uniGuard g = true)
    (hroom : s.hasRoom 1 = true) : Retires (.tbset g n a b) s (((s.modSt (fun x =>
        { x with tb := x.tb.set n.toNat { bound := true, va := s.tbVa a, len := s.tbLen b, run := 0, limit := 0, perms := ⟨false, false, false⟩, stale := true } })).queueWalk
          s.gr.coreId s.gr.ctx (s.tbVa a) needR false).countCore s.gr.coreId 6 1) false := by
  have he := exec_tbset s g n a b
  rw [if_pos (by simp [hg, hp, hw]), State.requesting, if_pos hroom, State.tbBound, tbBinding_unwalked hw] at he
  have hstands (t : State) : ((t.queueWalk s.gr.coreId s.gr.ctx (s.tbVa a) needR false).countCore s.gr.coreId 6 1).standsAs t :=
    ⟨queueWalk_keeps State.goesOn (fun _ _ => rfl) _ _ _ _ _, queueWalk_keeps (fun u => u.st.sid) (fun _ _ => rfl) _ _ _ _ _⟩
  exact he.trans (run_next s _ (goesOn_landed s hgo) (hstands _).2 ((hstands _).1.trans hgo))

theorem traps_tbset (hp : isPair a.toNat = false) : Traps (.tbset g n a b) s .illegal s.st.exm := by
  have he := exec_tbset s g n a b
  rw [if_neg (by simp [hp])] at he
  exact traps_once he hp

end

/-- An instruction that retires with its stream and the lanes as they were has moved one word on. -/
theorem sameRegs_retired {u s : State} (n : Bool) (hl : u.gr.lanes = s.gr.lanes) (hst : u.st = s.st) : (u.retired s n).sameRegs s := by
  cases n <;>
    exact ⟨hl, congrArg (·.sregs) hst, congrArg (·.q) hst, congrArg (·.exm) hst, congrArg (·.pc + 4) hst⟩

/-! FENCE (R192, R194, R214) -/

/-- The copies of the issuing agent made older writes of it (R194). -/
def State.copiesFenced (s : State) : State :=
  ({ s with cmds := s.cmds.map (fun c => if (s.ownCopies.map (·.id)).contains c.id then { c with fenced := true } else c) } : State).dropL1 s.gr.coreId

/-- What a FENCE that has nothing to wait for does. -/
def State.fenced (s : State) (sc : BitVec 3) (k : BitVec 2) (y : BitVec 1) : State :=
  let t := if k ≠ 0 ∧ y = 1 ∧ s.ownCopies.map (·.id) ≠ [] then s.copiesFenced else s
  if k ≠ 1 then t.acquire (if sc.toNat < 6 then sc.toNat else 4) else t

theorem releasedIf_quiet {s : State} {b : Bool} (hh : s.st.held = []) (ho : b = true → s.owing = false) (f : State → Verdict) :
    s.releasedIf b f = f s := by
  cases b
  · rfl
  · exact released_quiet s f ⟨ho rfl, hh⟩

theorem exec_fence {s : State} {g : BitVec 4} {sc : BitVec 3} {k : BitVec 2} {y : BitVec 1} (hg : s.uniGuard g = true) (hh : s.st.held = [])
    (ho : k ≠ 0 → s.owing = false) (hc : k ≠ 0 → y = 1 → ∀ c ∈ s.ownCopies, c.isOver = true) :
    exec (.fence g sc k y) s = s.run (.next (s.fenced sc k y)) := by
  have hover : ¬ (k ≠ 0 ∧ y = 1 ∧ s.ownCopies.any (fun c => !c.isOver) = true) := by
    rintro ⟨hk, hy, hany⟩
    obtain ⟨c, hcm, hco⟩ := List.any_eq_true.1 hany
    rw [hc hk hy c hcm] at hco
    exact Bool.noConfusion hco
  change execFence g sc k y s = _
  rw [execFence, if_neg (by simp [hg]), flushHeld_idle s hh]
  dsimp only
  rw [releasedIf_quiet hh (fun hk => ho (of_decide_eq_true hk)), if_neg hover]
  rfl

/-- A FENCE changes the L1s and the commands alone. -/
theorem fenced_keeps {β : Type} (pi : State → β) (h : ∀ s c l1, pi { s with cmds := c, l1 := l1 } = pi s) (s : State) (sc : BitVec 3) (k : BitVec 2)
    (y : BitVec 1) : pi (s.fenced sc k y) = pi s := by
  have hacquire (t : State) (m : Nat) : pi (t.acquire m) = pi t := by
    unfold State.acquire
    split
    · exact h t t.cmds _
    · rfl
  unfold State.fenced
  dsimp only
  split <;> split
  · exact (hacquire _ _).trans (h s _ _)
  · exact hacquire _ _
  · exact h s _ _
  · rfl

/-- An acquire beyond the core leaves none of its L1 sectors (R165). -/
theorem l1_acquire {s : State} {scope : Nat} (h : 2 ≤ scope) : ∀ x ∈ (s.acquire scope).l1, x.core ≠ s.gr.coreId := by
  intro x hx
  rw [State.acquire, if_pos (.inl h)] at hx
  simpa using (List.mem_filter.1 hx).2

theorem cmds_acquire (s : State) (scope : Nat) : (s.acquire scope).cmds = s.cmds := by
  unfold State.acquire
  split <;> rfl

theorem l1_fenced {s : State} {sc : BitVec 3} {k : BitVec 2} (y : BitVec 1) (hk : k ≠ 1) (hsc : 2 ≤ sc.toNat) :
    ∀ x ∈ (s.fenced sc k y).l1, x.core ≠ s.gr.coreId := by
  have hscope : 2 ≤ (if sc.toNat < 6 then sc.toNat else 4) := by split <;> omega
  unfold State.fenced
  dsimp only
  rw [if_pos hk]
  split
  · exact l1_acquire (s := s.copiesFenced) hscope
  · exact l1_acquire hscope

/-- With ASYNC the agent's copies are older writes of it (R194). -/
theorem cmds_fenced {s : State} (sc : BitVec 3) {k : BitVec 2} {y : BitVec 1} (hk : k ≠ 0) (hy : y = 1) :
    ∀ c ∈ s.ownCopies, ∃ d ∈ (s.fenced sc k y).cmds, d.id = c.id ∧ d.fenced = true := by
  intro c hc
  have hmine : (s.ownCopies.map (·.id)).contains c.id = true := by simpa using ⟨c, hc, rfl⟩
  have hne : s.ownCopies.map (·.id) ≠ [] := fun h => by simp [h] at hmine
  have hcmds : (s.fenced sc k y).cmds = s.copiesFenced.cmds := by
    unfold State.fenced
    dsimp only
    rw [if_pos (show k ≠ 0 ∧ y = 1 ∧ s.ownCopies.map (·.id) ≠ [] from ⟨hk, hy, hne⟩)]
    split
    · exact cmds_acquire _ _
    · rfl
  rw [hcmds]
  refine ⟨{ c with fenced := true }, List.mem_map.2 ⟨c, (List.mem_filter.1 hc).1, ?_⟩, rfl, rfl⟩
  rw [if_pos hmine]

/-- Settles O34: TBSET by whether its first page has a walk to wait for; FENCE by what it leaves. -/
theorem bindAndFence : Obligations.BindAndFence := by
  intro s g n a b sc k y
  refine ⟨once_tbset, fun hp hw hgo => ⟨retires_tbset_skipped hp hgo, retires_tbset_asks hp hw hgo⟩, traps_tbset, bindTb_spec s, fun hgo hg => ?_,
    fun hgo hg hh ho hc => ?_⟩
  · have he : exec (.fence g sc k y) s = s.run (.next s) := by
      change execFence g sc k y s = _
      rw [execFence, if_pos (by simp [hg])]
    rw [Retires, he, run_next s s (goesOn_landed s hgo) rfl hgo]
  · have keeps {γ : Type} (pi : State → γ) (h : ∀ s c l1, pi { s with cmds := c, l1 := l1 } = pi s) : pi (s.fenced sc k y) = pi s := fenced_keeps pi h s sc k y
    have hst : (s.fenced sc k y).st = s.st := keeps State.st (fun _ _ _ => rfl)
    have hgr : (s.fenced sc k y).gr = s.gr := keeps State.gr (fun _ _ _ => rfl)
    refine ⟨_, (exec_fence hg hh ho hc).trans (run_next s _ (goesOn_landed s hgo) (congrArg Stream.sid hst) ((keeps State.goesOn (fun _ _ _ => rfl)).trans hgo)),
      ⟨keeps State.mem (fun _ _ _ => rfl), keeps State.host (fun _ _ _ => rfl)⟩, ?_, fun hk hsc => l1_fenced y hk hsc, fun hk hy => cmds_fenced sc hk hy⟩
    exact sameRegs_retired false (congrArg Group.lanes hgr) hst

end Sys2Proof.Machine
end

section
/-!
Branches, calls and returns: O35, O36, O37, O38, O40, O45.
-/
namespace Sys2Proof.Machine

/-! ## The stream goes on or moves -/

theorem moves_run {i : Instr} {s u : State} (he : exec i s = s.run (.moved u)) (hl : s.landed = true) (hu : u.st.sid = s.st.sid) : MovesTo i s u false :=
  he.trans (run_moved s u hl hu)

theorem moves_runN {i : Instr} {s u : State} (he : exec i s = s.runN (.moved u)) (hl : s.landed = true) (hu : u.st.sid = s.st.sid) : MovesTo i s u true :=
  he.trans (runN_moved s u hl hu hu)

theorem retires_run {i : Instr} {s u : State} (he : exec i s = s.run (.next u)) (hl : s.landed = true) (hu : u.st.sid = s.st.sid) (hgo : u.goesOn = true) :
    Retires i s u false := he.trans (run_next s u hl hu hgo)

theorem retires_runN {i : Instr} {s u : State} (he : exec i s = s.runN (.next u)) (hl : s.landed = true) (hu : u.st.sid = s.st.sid) (hgo : u.goesOn = true) :
    Retires i s u true := he.trans (runN_next s u hl hu hgo)

theorem traps_run {i : Instr} {s : State} {c : Cause} {t : Mask} (he : exec i s = s.run (.trap c t s)) : Traps i s c t :=
  fun hl ho => he.trans (run_trap s s c t hl ho)

theorem traps_runN {i : Instr} {s : State} {c : Cause} {t : Mask} (he : exec i s = s.runN (.trap c t s)) : Traps i s c t :=
  fun hl ho => he.trans (runN_trap s s c t hl ho)

/-- A stream that keeps its place and has lanes goes on as before. -/
theorem goesOn_exm_changed {s : State} {f : Stream → Stream} (hgo : s.goesOn = true) (hx : (f s.st).exm ≠ 0)
    (hp : (f s.st).pc = s.st.pc ∧ (f s.st).pos = s.st.pos ∧ (f s.st).hdr = s.st.hdr ∧ (f s.st).loads = s.st.loads ∧ (f s.st).sid = s.st.sid ∧
      (f s.st).lineage = s.st.lineage) : (s.modSt f).goesOn = true := by
  obtain ⟨hpc, hpos, hhdr, hloads, hsid, hlin⟩ := hp
  have hl : (s.modSt f).landed = s.landed := by
    simp only [State.landed, Stream.owns, State.modSt_st, State.modSt_atomics, hloads, hsid, hlin]
  simp only [State.goesOn, State.modSt_st, hl, hpc, hpos, hhdr, hx, ne_eq, not_false_eq_true, decide_true, Bool.true_and]
  simp only [State.goesOn, Bool.and_eq_true, decide_eq_true_eq] at hgo
  exact Bool.and_eq_true_iff.2 ⟨hgo.1.2, hgo.2⟩

/-! ## Lane sets -/

theorem Mask.minus_zero (m : Mask) : m.minus 0 = m := Mask.ext (fun l => by rw [Mask.has_minus, Mask.has_zero, Bool.not_false, Bool.and_true])

theorem Mask.minus_self (m : Mask) : m.minus m = 0 := by simp [Mask.minus]

theorem active_le (s : State) (g : BitVec 4) {l : Nat} (h : (s.active g).has l = true) : s.st.exm.has l = true := by
  rw [State.active, Mask.has_ofPred_and, Bool.and_eq_true] at h
  exact h.1

/-- Lanes of a guard beyond which EXM has none are all of EXM. -/
theorem active_eq_exm {s : State} {g : BitVec 4} (h : s.st.exm.minus (s.active g) = 0) : s.active g = s.st.exm := by
  refine Mask.ext (fun l => ?_)
  have hl := (Mask.eq_zero_iff _).1 h l
  rw [Mask.has_minus] at hl
  cases ha : (s.active g).has l
  · simpa [ha] using hl.symm
  · exact (active_le s g ha).symm

theorem active_all (s : State) {g : BitVec 4} (h : ∀ x : Lane, guardHolds g x = true) : s.active g = s.st.exm := by
  refine Mask.ext (fun l => ?_)
  rw [State.active, Mask.has_ofPred_and, h, Bool.and_true]

/-! ## Pushes and transfers -/

theorem push_onChip (s : State) (e : PathEntry) (h : s.roomOnChip) : s.push e = .ok (s.modSt (fun x => { x with stack := e :: x.stack })) := by
  obtain ⟨hcap, hmost⟩ := h
  simp only [State.push]
  rw [if_neg (Nat.not_le.2 hmost), if_pos hcap]

theorem pushThen_one (s : State) (e : PathEntry) (f : State → Verdict) (h : s.roomOnChip) :
    s.pushThen [e] f = f (s.modSt (fun x => { x with stack := e :: x.stack })) := by
  simp only [State.pushThen, State.pushAll, push_onChip s e h]

theorem pushThen_none (s : State) (f : State → Verdict) : s.pushThen [] f = f s := rfl

theorem reach_present {s : State} {t : Mask} {as : List CodeVa} {f : Verdict} (h : ∀ a ∈ as, s.segPresent a = true) : s.reach t as f = f := by
  have hn : as.find? (fun a => !s.segPresent a) = none := List.find?_eq_none.2 (fun a ha => by simp [h a ha])
  simp only [State.reach, hn]

/-- The three ways of a branch (R111). -/
theorem branch_none (s : State) (a : CodeVa) : s.branch 0 a = .next s := rfl

theorem branch_all {s : State} {t : Mask} (a : CodeVa) (ht : t ≠ 0) (hn : s.st.exm.minus t = 0) : s.branch t a = .moved (s.goto a) := by
  simp only [State.branch]
  rw [if_neg ht, if_pos hn]

theorem branch_some {s : State} {t : Mask} (a : CodeVa) (ht : t ≠ 0) (hn : s.st.exm.minus t ≠ 0) (hr : s.roomOnChip) :
    s.branch t a = .next (s.modSt (fun x => { x with
      stack := { join := false, addr := a, depth := s.st.dep, mask := t, fmt := s.st.fmt } :: x.stack, exm := s.st.exm.minus t })) := by
  simp only [State.branch]
  rw [if_neg ht, if_neg hn, pushThen_one _ _ _ hr]
  rfl

theorem exec_bra_within {s : State} (g : BitVec 4) {o : BitVec 21} (h : s.leaves (s.target o) = false) :
    exec (.bra g o) s = s.run (s.branch (s.active g) (s.target o)) := by
  change s.run (if s.leaves (s.target o) then _ else _) = _
  rw [if_neg (by simp [h])]

theorem exec_brau_whole {s : State} {g : BitVec 4} {o : BitVec 21} (h : s.leaves (s.target o) = false) (hw : s.active g = 0 ∨ s.st.exm.minus (s.active g) = 0) :
    exec (.brau g o) s = s.run (s.branch (s.active g) (s.target o)) := by
  change s.run (if s.leaves (s.target o) then _ else if s.active g ≠ 0 ∧ s.st.exm.minus (s.active g) ≠ 0 then _ else _) = _
  rw [if_neg (by simp [h]), if_neg (by tauto)]

theorem exec_brau_split {s u : State} {g : BitVec 4} {o : BitVec 21} (h : s.leaves (s.target o) = false) (ht : s.active g ≠ 0)
    (hn : s.st.exm.minus (s.active g) ≠ 0) (hb : s.branch (s.active g) (s.target o) = .next u) :
    exec (.brau g o) s = s.run (.next ((u.modSt (fun x => { x with unifstk := x.unifstk ||| 1 })).countCore s.gr.coreId 9 1)) := by
  change s.run (if s.leaves (s.target o) then _ else if s.active g ≠ 0 ∧ s.st.exm.minus (s.active g) ≠ 0 then
    (match s.branch (s.active g) (s.target o) with | .next _ => _ | _ => _) else _) = _
  rw [if_neg (by simp [h]), if_pos ⟨ht, hn⟩, hb]

theorem exec_joinat_within {s : State} {g : BitVec 4} {o : BitVec 21} (hg : g = 0 ∨ 13 ≤ g.toNat) (h : s.leaves (s.target o) = false) :
    exec (.joinat g o) s = s.run (s.pushThen [{ join := true, addr := s.target o, depth := s.st.dep, mask := s.st.exm, fmt := s.st.fmt }] .next) := by
  change s.run (if 1 ≤ g.toNat ∧ g.toNat ≤ 12 then _ else if s.leaves (s.target o) then _ else _) = _
  have hn : ¬ (1 ≤ g.toNat ∧ g.toNat ≤ 12) := by
    rcases hg with rfl | hg
    · decide
    · omega
  rw [if_neg hn, if_neg (by simp [h])]

theorem exec_jsegr_present {s : State} {g : BitVec 4} {a : BitVec 6} (hw : s.lastWord = true) (ha : isPair a.toNat = true) (hu : s.uniGuard g = true)
    (hm : (s.sregPair a.toNat).toNat % 4 = 0) (hp : s.segPresent ((s.sregPair a.toNat).setWidth 57) = true) :
    exec (.jsegr g a) s = s.run (.moved (s.goto ((s.sregPair a.toNat).setWidth 57))) := by
  change s.run (if !s.lastWord || !isPair a.toNat then _ else if !s.uniGuard g then _ else if (s.sregPair a.toNat).toNat % 4 ≠ 0 then _ else s.reach _ _ _) = _
  rw [if_neg (by simp [hw, ha]), if_neg (by simp [hu]), if_neg (by simp [hm]), reach_present (by simpa using hp)]

/-- Settles O35: the branch by the lanes that take it, then each transfer by its checks. -/
theorem branches : Obligations.Branches := by
  intro s g o a t n to_ e split hgo
  have hl := goesOn_landed s hgo
  have hsplit : n ≠ 0 → split.goesOn = true := fun hn => goesOn_exm_changed hgo hn ⟨rfl, rfl, rfl, rfl, rfl, rfl⟩
  refine ⟨fun hin => ⟨fun ht => ⟨?_, ?_⟩, fun ht hn => ⟨?_, ?_⟩, fun ht hn hr => ⟨?_, ?_⟩, fun hr hg => ?_, fun hu => ?_, fun hu => ?_⟩,
    fun hlo hhi => traps_run ?_, fun hout => ⟨traps_run ?_, traps_run ?_, traps_run ?_⟩, fun hw hu hp => ?_, fun hw hu => ?_, fun hw => ⟨traps_run ?_, traps_run ?_⟩,
    fun x hx hw ha hu hm hp => ?_⟩
  · exact retires_noop ((exec_bra_within g hin).trans (by rw [show s.active g = 0 from ht, branch_none])) hgo
  · exact retires_noop ((exec_brau_whole hin (.inl ht)).trans (by rw [show s.active g = 0 from ht, branch_none])) hgo
  · exact moves_run ((exec_bra_within g hin).trans (by rw [branch_all _ ht hn])) hl rfl
  · exact moves_run ((exec_brau_whole hin (.inr hn)).trans (by rw [branch_all _ ht hn])) hl rfl
  · exact retires_run ((exec_bra_within g hin).trans (by rw [branch_some _ ht hn hr])) hl rfl (hsplit hn)
  · exact retires_run (exec_brau_split hin ht hn (branch_some _ ht hn hr)) hl rfl (hsplit hn)
  · exact retires_run ((exec_joinat_within hg hin).trans (by rw [pushThen_one _ _ _ hr] <;> rfl)) hl rfl hgo
  · refine moves_run (?_ : _ = s.run (.moved (s.goto to_))) hl rfl
    change s.run (if s.leaves to_ then _ else if s.uniGuard g then _ else _) = _
    rw [if_neg (by simp [hin]), if_pos hu]
  · refine retires_noop ?_ hgo
    change s.run (if s.leaves to_ then _ else if s.uniGuard g then _ else _) = _
    rw [if_neg (by simp [hin]), if_neg (by simp [hu])]
  · change s.run (if 1 ≤ g.toNat ∧ g.toNat ≤ 12 then _ else _) = _
    rw [if_pos ⟨hlo, hhi⟩]
  · change s.run (if s.leaves to_ then _ else _) = _
    rw [if_pos hout]
  · change s.run (if s.leaves to_ then _ else _) = _
    rw [if_pos hout]
  · change s.run (if s.leaves to_ then _ else _) = _
    rw [if_pos hout]
  · refine moves_run (?_ : _ = s.run (.moved (s.goto to_))) hl rfl
    change s.run (if !s.lastWord then _ else if !s.uniGuard g then _ else s.reach _ _ _) = _
    rw [if_neg (by simp [hw]), if_neg (by simp [hu]), reach_present (by simpa using hp)]
  · refine retires_noop ?_ hgo
    change s.run (if !s.lastWord then _ else if !s.uniGuard g then _ else _) = _
    rw [if_neg (by simp [hw]), if_pos (by simp [hu])]
  · change s.run (if !s.lastWord then _ else _) = _
    rw [if_pos (by simp [hw])]
  · change s.run (if !s.lastWord || !isPair a.toNat then _ else _) = _
    rw [if_pos (by simp [hw])]
  · subst hx
    exact moves_run (exec_jsegr_present hw ha hu hm hp) hl rfl

/-- The check of R321 on a path that is not privileged. -/
theorem privileged_refused {s : State} (ok : Bool) (f : Verdict) (h : s.st.isPriv = false) :
    s.privileged ok f = .trap (if s.isWave then .illegal else .priv) s.st.exm s := by
  simp [State.privileged, h]

theorem traps_privileged {i : Instr} {s : State} {ok : Bool} {f : Verdict} (he : exec i s = s.run (s.privileged ok f)) (h : s.st.isPriv = false) :
    Traps i s (if s.isWave then .illegal else .priv) s.st.exm := traps_run (he.trans (by rw [privileged_refused ok f h]))

theorem traps_walker {i : Instr} {s : State} {g : BitVec 4} {legal : Bool} {fields : List Nat} {f : State → Nat → Verdict}
    (he : exec i s = s.run (s.walker g legal fields f)) (h : s.st.isPriv = false) : Traps i s (if s.isWave then .illegal else .priv) s.st.exm := by
  refine traps_run (he.trans ?_)
  have hs : s.st.walkerSlot = none := by
    cases hk : s.st.kind <;> simp [Stream.walkerSlot, Stream.isPriv, hk] at h ⊢
  simp [State.walker, hs, h]

/-- Settles O40: the check of privilege comes first. -/
theorem trapInstructions : Obligations.TrapInstructions := by
  refine ⟨fun s g n c => ⟨fun ht => ⟨traps_run ?_, traps_run ?_⟩, fun hgo ht => ⟨retires_noop ?_ hgo, retires_noop ?_ hgo⟩⟩, fun s g d a b hp => ?_⟩
  · change s.run (if s.active g = 0 then _ else _) = _
    rw [if_neg ht]
  · change s.run (if s.active g = 0 then _ else _) = _
    rw [if_neg ht]
  · change s.run (if s.active g = 0 then _ else _) = _
    rw [if_pos ht]
  · change s.run (if s.active g = 0 then _ else _) = _
    rw [if_pos ht]
  · exact ⟨traps_walker rfl hp, traps_walker rfl hp, traps_walker rfl hp, traps_run (congrArg s.run (if_pos (by simp [hp]))), traps_walker rfl hp, traps_walker rfl hp,
      traps_privileged rfl hp, traps_privileged rfl hp, traps_privileged rfl hp⟩

/-! ## Demands on the spill engine -/

theorem newFaults_nil {s : State} (h : s.st.faults = []) : s.newFaults = [] := by simp [State.newFaults, h]

theorem unfaulted_all {s : State} (h : s.st.faults = []) (p : Mask) : s.unfaulted p = p := by
  rw [State.unfaulted, newFaults_nil h]
  exact Mask.minus_zero p

theorem awaitDemands_none (s : State) (f : State → Verdict) : s.awaitDemands [] f = f s := rfl

/-- With nothing to move and no fault met, the instruction goes on at once. -/
theorem withDemands_none {s : State} (f : State → Verdict) (h : s.st.faults = []) : s.withDemands [] f = f s := by
  have he : s.modSt (fun x => { x with faults := x.faults.filter (fun y => y.settled.isSome) }) = s := by
    have hst : ({ s.st with faults := s.st.faults.filter (fun y => y.settled.isSome) } : Stream) = s.st := by
      rw [h, List.filter_nil, ← h]
    exact congrArg (fun x => ({ s with st := x } : State)) hst
  simp only [State.withDemands, awaitDemands_none, State.onFaults, newFaults_nil h, List.isEmpty_nil, if_true, he]

theorem filterMap_none {α β : Type} {f : α → Option β} {l : List α} (h : ∀ x ∈ l, f x = none) : l.filterMap f = [] := by
  rw [List.filterMap_eq_nil_iff]
  exact h

theorem ofPred_and_zero {m : Mask} {p : Nat → Bool} (h : ∀ l ∈ m.lanes, p l = false) : Mask.ofPred (fun l => m.has l && p l) = 0 := by
  refine (Mask.eq_zero_iff _).2 (fun l => ?_)
  rw [Mask.has_ofPred_and]
  cases hl : m.has l
  · rfl
  · rw [h l ((Mask.mem_lanes m l).2 hl), Bool.and_false]

/-! ## Calls -/

theorem Mask.has_foldl_lanes (ls : List Nat) (m : Mask) (l : Nat) (hl : l < 64) :
    (ls.foldl (fun m l => m ||| Mask.one l) m).has l = (m.has l || decide (l ∈ ls)) := by
  induction ls generalizing m with
  | nil => simp
  | cons a r ih =>
    rw [List.foldl_cons, ih, Mask.has_or, Mask.has_one a l hl, Bool.or_assoc, List.decide_mem_cons]
    rfl

theorem Mask.ofLanes_lanes (m : Mask) : Mask.ofLanes m.lanes = m := by
  refine Mask.ext (fun l => ?_)
  by_cases hl : l < 64
  · have h := Mask.has_foldl_lanes m.lanes 0 l hl
    rw [Mask.has_zero, Bool.false_or] at h
    rw [Mask.ofLanes]
    refine h.trans ?_
    rw [Bool.eq_iff_iff, decide_eq_true_iff, Mask.mem_lanes]
  · rw [Mask.has, Mask.has, BitVec.getLsbD_of_ge _ l (by omega), BitVec.getLsbD_of_ge _ l (by omega)]

theorem Mask.lanes_ne_nil {m : Mask} (h : m ≠ 0) : m.lanes ≠ [] := fun hn => h (by rw [← Mask.ofLanes_lanes m, hn]; rfl)

/-- Lanes that all have one key are one part. -/
theorem partLanes_one {f : Nat → CodeVa} {m : Mask} {a : CodeVa} (hm : m ≠ 0) (h : ∀ l ∈ m.lanes, f l = a) (k : Nat) :
    partLanes f m.lanes (k + 1) = [(a, m)] := by
  obtain ⟨l, r, hlr⟩ := List.exists_cons_of_ne_nil (Mask.lanes_ne_nil hm)
  have hall : ∀ x ∈ l :: r, f x = a := by rw [← hlr]; exact h
  have hl : f l = a := hall l (List.mem_cons_self ..)
  have hkeep : (l :: r).filter (fun x => f x == f l) = l :: r := List.filter_eq_self.2 (fun x hx => by simp [hl, hall x hx])
  have hdrop : r.filter (fun x => f x != f l) = [] := List.filter_eq_nil_iff.2 (fun x hx => by simp [hl, hall x (List.mem_cons_of_mem _ hx)])
  rw [hlr, partLanes, hkeep, hdrop, ← hlr, Mask.ofLanes_lanes, hl]
  cases k <;> rfl

section
variable {s : State} {t : Mask}

theorem callDemands_none {ra : CodeVa} (h : ∀ l ∈ t.lanes, (s.lane l).callBase + 58 - s.gr.allot ≤ (s.lane l).lowres) : s.callDemands t ra = [] :=
  filterMap_none (fun l hl => if_pos (h l hl))

/-- A call whose lanes have frame space and whose targets are present goes to its lanes. -/
theorem callShape_ready {g : BitVec 4} {legal : Bool} {pre : Mask → Option Verdict} {target : State → Nat → CodeVa}
    (hlegal : legal = true) (hw : s.lastWord = true) (hf : s.st.faults = []) (ht : s.active g = t) (ht0 : t ≠ 0) (hpre : pre t = none)
    (hp : ∀ l ∈ t.lanes, s.segPresent (target s l) = true)
    (hroom : ∀ l ∈ t.lanes, (s.lane l).callBase + 57 < s.gr.faw ∧ (s.lane l).callBase + 58 - s.gr.allot ≤ (s.lane l).lowres) :
    s.callShape g legal pre target = s.callLanes t target := by
  have hdeep : Mask.ofPred (fun l => t.has l && decide (s.gr.faw ≤ (s.lane l).callBase + 57)) = 0 :=
    ofPred_and_zero (fun l hl => decide_eq_false (Nat.not_le.2 (hroom l hl).1))
  have hpres : ∀ a ∈ t.lanes.map (target s), s.segPresent a = true := by
    intro a ha
    obtain ⟨l, hl, rfl⟩ := List.mem_map.1 ha
    exact hp l hl
  simp only [State.callShape, ht, hpre]
  rw [if_neg (by simp [hlegal, hw]), if_neg ht0, reach_present hpres, if_neg (not_not.2 hdeep), callDemands_none (fun l hl => (hroom l hl).2),
    withDemands_none _ hf, ht]

theorem callShape_none {g : BitVec 4} {legal : Bool} {pre : Mask → Option Verdict} {target : State → Nat → CodeVa}
    (hlegal : legal = true) (hw : s.lastWord = true) (ht : s.active g = 0) : s.callShape g legal pre target = .next s := by
  simp only [State.callShape]
  rw [if_neg (by simp [hlegal, hw]), if_pos ht]

/-- A call of every lane of EXM to one target. -/
theorem callLanes_all {target : State → Nat → CodeVa} {a : CodeVa} (ht0 : s.st.exm ≠ 0) (ha : ∀ l ∈ s.st.exm.lanes, target s l = a) :
    s.callLanes s.st.exm target = .moved (((s.mapLanes s.st.exm (fun _ x => x.call s.gr.allot (s.st.pc + 4))).modSt (fun x =>
      { x with exm := s.st.exm, dep := x.dep + 1 })).goto a) := by
  simp only [State.callLanes, partLanes_one ht0 ha, Mask.minus_self, if_true, List.reverse_nil, List.map_nil, List.append_nil, pushThen_none]

/-- A call of some of the lanes to one target. -/
theorem callLanes_some {target : State → Nat → CodeVa} {a : CodeVa} (ht0 : t ≠ 0) (ha : ∀ l ∈ t.lanes, target s l = a) (hn : s.st.exm.minus t ≠ 0)
    (hr : s.roomOnChip) :
    s.callLanes t target = .moved ((((s.modSt (fun x => { x with stack :=
        { join := false, addr := s.st.pc + 4, depth := s.st.dep, mask := s.st.exm.minus t, fmt := s.st.fmt } :: x.stack })).mapLanes t (fun _ x =>
      x.call s.gr.allot (s.st.pc + 4))).modSt (fun x => { x with exm := t, dep := x.dep + 1 })).goto a) := by
  simp only [State.callLanes, partLanes_one ht0 ha, List.reverse_nil, List.map_nil, List.append_nil]
  rw [if_neg hn, pushThen_one _ _ _ hr]
end

theorem exec_call (s : State) (g : BitVec 4) (o : BitVec 21) :
    exec (.call g o) s = s.runN (s.callShape g true (fun _ => none) (fun _ _ => s.target o)) := rfl

theorem exec_callr (s : State) (g : BitVec 4) (a : BitVec 6) :
    exec (.callr g a) s = s.runN (s.callShape g (isPair a.toNat) (s.callrChecks a false) (fun u l => (u.regPair l a.toNat).setWidth 57)) := rfl

theorem exec_callrU (s : State) (a : BitVec 6) :
    exec (.callrU a) s = s.runN (s.callShape 13 (isPair a.toNat) (s.callrChecks a true) (fun u l => (u.regPair l a.toNat).setWidth 57)) := rfl

/-- The checks of CALLR pass for lanes whose pairs are resident, aligned and, under a uniform call, alike. -/
theorem callrChecks_pass {s : State} {a : BitVec 6} {t : Mask} (uniform : Bool) (hb : s.beyondIn t [a.toNat, a.toNat + 1] = 0)
    (h4 : ∀ l ∈ t.lanes, (s.regPair l a.toNat).toNat % 4 = 0)
    (hu : ∀ l ∈ t.lanes, (s.regPair l a.toNat).setWidth 57 = (s.regPair t.lowest a.toNat).setWidth 57) : s.callrChecks a uniform t = none := by
  have hodd : Mask.ofPred (fun l => t.has l && (s.regPair l a.toNat).toNat % 4 != 0) = 0 := ofPred_and_zero (fun l hl => by simp [h4 l hl])
  have hany : t.lanes.any (fun l => (s.regPair l a.toNat).setWidth 57 != (s.regPair t.lowest a.toNat).setWidth 57) = false :=
    List.any_eq_false.2 (fun l hl => by simp [hu l hl])
  simp only [State.callrChecks]
  rw [if_neg (not_not.2 hb), if_neg (not_not.2 hodd), if_neg (by simp [hany])]

/-- Settles O36: a call whose checks pass has one part, whose lanes it moves; the others are pushed first. -/
theorem calls : Obligations.Calls := by
  intro s g o a into roomy target good hgo hw hf
  have hl := goesOn_landed s hgo
  have hx := goesOn_exm hgo
  refine ⟨fun ht => ⟨?_, fun ha => ?_⟩, fun ht hr hp => ?_, fun ht hr hgood => ?_, fun hr hgood => ?_, fun ht hn hr hp hroom => ?_⟩
  · exact retires_runN ((exec_call s g o).trans (by rw [callShape_none rfl hw ht])) hl rfl hgo
  · exact retires_runN ((exec_callr s g a).trans (by rw [callShape_none ha hw ht])) hl rfl hgo
  · refine moves_runN ((exec_call s g o).trans ?_) hl rfl
    rw [callShape_ready (pre := fun _ => none) (target := fun _ _ => s.target o) rfl hw hf ht hx rfl (fun _ _ => hp) hr, callLanes_all hx (fun _ _ => rfl)]
  · obtain ⟨ha, hb, hall⟩ := hgood
    have hpass := callrChecks_pass false hb (fun l h => (hall l h).1) (fun l h => (hall l h).2.1)
    refine moves_runN ((exec_callr s g a).trans ?_) hl rfl
    rw [callShape_ready (target := fun u l => (u.regPair l a.toNat).setWidth 57) ha hw hf ht hx hpass (fun l h => (hall l h).2.2) hr,
      callLanes_all (target := fun u l => (u.regPair l a.toNat).setWidth 57) hx (fun l h => (hall l h).2.1)]
  · obtain ⟨ha, hb, hall⟩ := hgood
    have hpass := callrChecks_pass true hb (fun l h => (hall l h).1) (fun l h => (hall l h).2.1)
    refine moves_runN ((exec_callrU s a).trans ?_) hl rfl
    have ht : s.active 13 = s.st.exm := active_all s (fun _ => rfl)
    rw [callShape_ready (target := fun u l => (u.regPair l a.toNat).setWidth 57) ha hw hf ht hx hpass (fun l h => (hall l h).2.2) hr,
      callLanes_all (target := fun u l => (u.regPair l a.toNat).setWidth 57) hx (fun l h => (hall l h).2.1)]
  · have hm : s.st.exm.minus (s.active g) ≠ 0 := fun h => hn (active_eq_exm h)
    have hshape := callShape_ready (pre := fun _ => none) (target := fun _ _ => s.target o) rfl hw hf rfl ht rfl (fun _ _ => hp) hr
    have hlanes := callLanes_some (target := fun _ _ => s.target o) ht (fun _ _ => rfl) hm hroom
    have hmoves := moves_runN ((exec_call s g o).trans (congrArg s.runN (hshape.trans hlanes))) hl rfl
    exact ⟨_, hmoves, ⟨rfl, rfl⟩, rfl, rfl, rfl, rfl, rfl⟩

end Sys2Proof.Machine
end

section
/-!
The linkage of a call, returns and frame words: O37, O38, O45.
-/
namespace Sys2Proof.Machine

/-! ## The linkage words -/

theorem retAddr_linkage (x : Lane) (ra : CodeVa) : retAddr (x.linkage ra) = ra := by
  apply BitVec.eq_of_toNat_eq
  have hra := ra.isLt
  simp only [retAddr, Lane.linkage]
  rw [BitVec.toNat_append, BitVec.extractLsb'_toNat, BitVec.toNat_ofNat, BitVec.toNat_ofNat, ← Nat.shiftLeft_add_eq_or_of_lt (Nat.mod_lt _ (by decide)),
    Nat.shiftLeft_eq, Nat.shiftRight_zero]
  omega

theorem retLocals_linkage (x : Lane) (ra : CodeVa) (h8 : x.locals % 8 = 0) (h40 : x.locals ≤ 40) : retLocals (x.linkage ra).2 = x.locals := by
  have hra := ra.isLt
  simp only [retLocals, Lane.linkage]
  rw [BitVec.extractLsb'_toNat, BitVec.toNat_ofNat, Nat.shiftRight_eq_div_pow]
  omega

/-- Neighbouring words of a column of two words or more stand at different positions. -/
theorem mod_succ_ne {n a : Nat} (h : 2 ≤ n) : a % n ≠ (a + 1) % n := by
  intro e
  have h1 : 0 ≡ 1 [MOD n] := Nat.ModEq.add_left_cancel' a e
  rw [Nat.ModEq, Nat.zero_mod, Nat.mod_eq_of_lt (by omega)] at h1
  exact absurd h1 (by decide)

theorem call_word_low {x : Lane} {allot : Nat} {ra : CodeVa} (h : 2 ≤ allot) :
    (x.call allot ra).word allot (x.callBase - 2) = (x.linkage ra).1 := by
  have hb : x.callBase - 1 = x.callBase - 2 + 1 := by
    simp only [Lane.callBase]
    omega
  have hne : (x.callBase - 2) % allot ≠ (x.callBase - 1) % allot := by
    rw [hb]
    exact mod_succ_ne h
  change ((x.putWord allot (x.callBase - 2) _).putWord allot (x.callBase - 1) _).word allot (x.callBase - 2) = _
  rw [Lane.word_putWord, if_neg hne, Lane.word_putWord, if_pos rfl]

theorem call_word_high {x : Lane} {allot : Nat} {ra : CodeVa} : (x.call allot ra).word allot (x.callBase - 1) = (x.linkage ra).2 := by
  change ((x.putWord allot (x.callBase - 2) _).putWord allot (x.callBase - 1) _).word allot (x.callBase - 1) = _
  rw [Lane.word_putWord, if_pos rfl]

/-- Settles O37: the two words written at the callee's frame base are the linkage, whose fields are read back. -/
theorem linkageRoundTrip : Obligations.LinkageRoundTrip := by
  intro x allot ra hallot h8 h40 y w
  have hw : w = x.linkage ra := Prod.ext (call_word_low hallot) call_word_high
  have hlocals : retLocals w.2 = x.locals := by rw [hw, retLocals_linkage x ra h8 h40]
  refine ⟨rfl, rfl, by rw [hw, retAddr_linkage], hlocals, ?_, fun pos hlo hhi => ?_⟩
  · rw [hlocals]
    show x.fb + 10 + x.locals - 10 - x.locals = x.fb
    omega
  · change ((x.putWord allot (x.callBase - 2) _).putWord allot (x.callBase - 1) _).atPos pos = _
    have hlo' : pos ≠ (x.callBase - 2) % allot := hlo
    have hhi' : pos ≠ (x.callBase - 1) % allot := hhi
    rw [atPos_putWord, if_neg hhi', atPos_putWord, if_neg hlo']

/-! ## RET -/

section
variable {s : State} {x : CodeVa}

/-- What the checks of RET ask of a lane: its linkage is that of a call, and its caller's frame is resident. -/
def State.returnsTo (s : State) (x : CodeVa) (l : Nat) : Prop :=
  retAddr (s.retWords l) = x ∧ (s.retWords l).1.toNat % 4 = 0 ∧ retLocals (s.retWords l).2 ≤ 40 ∧ 10 + retLocals (s.retWords l).2 ≤ (s.lane l).fb ∧
    (s.lane l).lowres ≤ (s.lane l).fb - 10 - retLocals (s.retWords l).2

theorem linkDemands_none {t : Mask} (h : ∀ l ∈ t.lanes, s.returnsTo x l) : s.linkDemands t = [] := by
  refine filterMap_none (fun l hl => if_pos ?_)
  obtain ⟨-, -, -, hfb, hres⟩ := h l hl
  omega

theorem retDemands_none {t : Mask} (h : ∀ l ∈ t.lanes, s.returnsTo x l) : s.retDemands t = [] := by
  refine filterMap_none (fun l hl => if_pos ?_)
  obtain ⟨-, -, -, -, hres⟩ := h l hl
  exact hres

theorem retLanes_all (hx : s.st.exm ≠ 0) (h : ∀ l ∈ s.st.exm.lanes, s.returnsTo x l) :
    s.retLanes s.st.exm = .moved (((s.mapLanes s.st.exm (fun l y =>
      { y with fb := y.fb - 10 - retLocals (s.retWords l).2, locals := retLocals (s.retWords l).2 })).modSt (fun y =>
      { y with exm := s.st.exm, dep := y.dep - 1 })).goto x) := by
  have hparts := partLanes_one (f := fun l => retAddr (s.retWords l)) hx (fun l hl => (h l hl).1) 63
  simp only [State.retLanes, hparts, Mask.minus_self, if_true, List.reverse_nil, List.map_nil, pushThen_none]

theorem retChecked_all {g : BitVec 4} (hx : s.st.exm ≠ 0) (ht : s.active g = s.st.exm) (hf : s.st.faults = []) (hp : s.segPresent x = true)
    (h : ∀ l ∈ s.st.exm.lanes, s.returnsTo x l) : s.retChecked g s.st.exm = s.retLanes s.st.exm := by
  have hbad : Mask.ofPred (fun l => s.st.exm.has l && (decide (40 < retLocals (s.retWords l).2) || decide ((s.lane l).fb < 10 + retLocals (s.retWords l).2))) = 0 :=
    ofPred_and_zero (fun l hl => by
      obtain ⟨-, -, h40, hfb, -⟩ := h l hl
      simp [Nat.not_lt.2 h40, Nat.not_lt.2 hfb])
  have hodd : Mask.ofPred (fun l => s.st.exm.has l && (s.retWords l).1.toNat % 4 != 0) = 0 := ofPred_and_zero (fun l hl => by simp [(h l hl).2.1])
  have hpres : ∀ a ∈ s.st.exm.lanes.map (fun l => retAddr (s.retWords l)), s.segPresent a = true := by
    intro a ha
    obtain ⟨l, hl, rfl⟩ := List.mem_map.1 ha
    rw [(h l hl).1, hp]
  simp only [State.retChecked, unfaulted_all hf]
  rw [if_neg (not_not.2 hbad), if_neg (not_not.2 hodd), reach_present hpres, retDemands_none h, withDemands_none _ hf, ht]

theorem exec_ret_all {g : BitVec 4} (hx : s.st.exm ≠ 0) (ht : s.active g = s.st.exm) (hf : s.st.faults = []) (hd : s.st.dep ≠ 0)
    (hh : s.st.privileged = false ∨ s.st.dep ≠ s.st.trap.hdep) (hp : s.segPresent x = true) (h : ∀ l ∈ s.st.exm.lanes, s.returnsTo x l) :
    exec (.ret g) s = s.runN (s.retLanes s.st.exm) := by
  change s.runN (if s.active g = 0 then _ else if s.st.privileged && s.st.dep == s.st.trap.hdep then _ else if s.st.dep = 0 then _ else
    s.awaitDemands (s.linkDemands (s.active g)) (fun s0 => s0.retChecked g (s.active g))) = _
  have hdeep : ¬ (s.st.privileged && s.st.dep == s.st.trap.hdep) = true := by
    rw [Bool.and_eq_true, beq_iff_eq]
    exact fun ⟨hpriv, hdep⟩ => hh.elim (fun hno => Bool.false_ne_true (hno.symm.trans hpriv)) (fun hne => hne hdep)
  rw [ht, if_neg hx, if_neg hdeep, if_neg hd, linkDemands_none h, awaitDemands_none, retChecked_all hx ht hf hp h]
end

/-- Settles O38: with each lane's linkage in order and its caller's frame resident, RET has one part. -/
theorem returns : Obligations.Returns := by
  refine fun s g n x => ⟨fun hgo hn => ?_, fun hn => traps_run ?_, fun hgo ht => ?_, fun hgo ht hf hd hh hp h => ?_⟩
  · refine retires_run (?_ : _ = s.run (.next (s.mapLanes s.st.exm (fun _ y => { y with locals := 8 * n.toNat })))) (goesOn_landed s hgo) rfl hgo
    change s.run (if 6 ≤ n.toNat then _ else _) = _
    rw [if_neg (Nat.not_le.2 hn)]
  · change s.run (if 6 ≤ n.toNat then _ else _) = _
    rw [if_pos hn]
  · refine retires_runN (?_ : _ = s.runN (.next s)) (goesOn_landed s hgo) rfl hgo
    change s.runN (if s.active g = 0 then _ else _) = _
    rw [if_pos ht]
  · have hx := goesOn_exm hgo
    exact moves_runN ((exec_ret_all hx ht hf hd hh hp h).trans (congrArg s.runN (retLanes_all hx h))) (goesOn_landed s hgo) rfl

/-! ## Frame words -/

theorem xmov_resident {s : State} {g : BitVec 4} {d : BitVec 6} {i : BitVec 2} {k : BitVec 12} (f : Nat → Lane → Nat → Lane) (hf : s.st.faults = [])
    (h : ∀ l ∈ (s.active g).lanes, (s.lane l).beyond d.toNat = false ∧ s.xwordBad i k (s.lane l) = false ∧ (s.lane l).lowres ≤ (s.xword i k (s.lane l)).toNat) :
    s.xmov g d i k f = .next (s.mapLanes (s.active g) (fun l x => f l x (s.xword i k x).toNat)) := by
  have hbad : Mask.ofPred (fun l => (s.active g).has l && ((s.lane l).beyond d.toNat || s.xwordBad i k (s.lane l))) = 0 :=
    ofPred_and_zero (fun l hl => by simp [(h l hl).1, (h l hl).2.1])
  have hds : (s.active g).lanes.filter (fun l => decide ((s.xword i k (s.lane l)).toNat < (s.lane l).lowres)) = [] :=
    List.filter_eq_nil_iff.2 (fun l hl => by simp [(h l hl).2.2])
  simp only [State.xmov]
  rw [if_neg (not_not.2 hbad), hds, List.map_nil, withDemands_none _ hf]

/-- Settles O45: with every word resident the engine has nothing to move. -/
theorem frameWords : Obligations.FrameWords := by
  refine fun s g d i k hgo hf h => ⟨?_, ?_, fun hext x => ?_⟩
  · exact retires_run (congrArg s.run (xmov_resident _ hf h)) (goesOn_landed s hgo) rfl hgo
  · exact retires_run (congrArg s.run (xmov_resident _ hf h)) (goesOn_landed s hgo) rfl hgo
  · simp [State.xword, State.extImm, hext, Int.add_assoc]

end Sys2Proof.Machine
end

section
/-!
Lanes that end, and barriers: O39, O44.
-/
namespace Sys2Proof.Machine

/-! ## An instruction after which its stream stands where it stood -/

/-- The place of the stream decides whether the word after it is past the end of its segment. -/
theorem finish_next_place {s u : State} (n : Bool) (hgo : s.goesOn = true) (hx : u.st.exm ≠ 0) (hsid : u.st.sid = s.st.sid) (hpc : u.st.pc = s.st.pc)
    (hpos : u.st.pos = s.st.pos) (hhdr : u.st.hdr = s.st.hdr) : s.finish n (.next u) = u.retired s n := by
  have hon : ¬ (hdrN u.st.hdr ≤ u.st.pos ∧ (u.st.pc + 4).toNat % 4096 = 0) := by
    simp only [State.goesOn, Bool.and_eq_true, Bool.not_eq_true', Bool.and_eq_false_iff, decide_eq_false_iff_not] at hgo
    rw [hpc, hpos, hhdr]
    exact fun ⟨ha, hb⟩ => hgo.2.elim (fun h => h ha) (fun h => h hb)
  have hedge : ∀ t : State, t.st.pos = u.st.retire.onward.pos → t.st.pc = u.st.retire.onward.pc → t.edge = t := by
    intro t hp hc
    refine if_neg (fun ⟨hzero, hend⟩ => ?_)
    rw [hp] at hzero
    rw [hc] at hend
    by_cases hlt : u.st.pos < hdrN u.st.hdr
    · simp [Stream.onward, Stream.retire, hlt] at hzero
    · exact hon ⟨Nat.le_of_not_lt hlt, hend⟩
  have hne : ({ u with st := u.st.retire.onward, cores := (u.countRetired s).cores } : State).st.exm ≠ 0 := hx
  simp only [State.finish, settle_advance u s hsid, hne, if_false]
  cases n
  · exact hedge _ rfl rfl
  · exact hedge _ rfl rfl

/-! ## What an ending lane, a barrier and a SYSCALL leave unchanged -/

/-- A stream without what another stream's doings may change in it: whether it waits, and its flags. -/
def Stream.resting (x : Stream) : Stream := { x with status := .ended, woken := false, flags := [] }

/-- A stream without the REDs that it holds. -/
def Stream.flushed (x : Stream) : Stream := { x with held := [], heldFlags := [] }

/-- A field that rests is the same in streams that rest alike. -/
theorem resting_field {γ : Type} {x y : Stream} (f : Stream → γ) (hf : ∀ z : Stream, f z.resting = f z) (h : x.resting = y.resting) : f x = f y := by
  rw [← hf x, h, hf y]

theorem resting_place {x y : Stream} (h : x.resting = y.resting) : x.sid = y.sid ∧ x.pc = y.pc ∧ x.pos = y.pos ∧ x.hdr = y.hdr ∧ x.exm = y.exm :=
  ⟨resting_field Stream.sid (fun _ => rfl) h, resting_field Stream.pc (fun _ => rfl) h, resting_field Stream.pos (fun _ => rfl) h,
    resting_field Stream.hdr (fun _ => rfl) h, resting_field Stream.exm (fun _ => rfl) h⟩

/-- A view of the state that sees of the streams only what rests, and neither the units, the L1, the event counters nor the messages. -/
structure Unmoved {β : Type} (pi : State → β) : Prop where
  streams : ∀ s f, (∀ x : Stream, (f x).resting = x.resting) → pi (s.mapStreams f) = pi s
  un : ∀ s x, pi { s with un := x } = pi s
  l1 : ∀ s x, pi { s with l1 := x } = pi s
  cores : ∀ s x, pi { s with cores := x } = pi s
  out : ∀ s o d, pi { s with out := o, dev := d } = pi s

section
variable {β : Type} {pi : State → β}

theorem wake_keeps (h : Unmoved pi) (s : State) (p : Stream → Bool) : pi (s.wake p) = pi s := by
  refine h.streams s _ (fun x => ?_)
  split <;> rfl

theorem modBarrier_keeps (h : Unmoved pi) (s : State) (i : Nat) (f : Barrier → Barrier) : pi (s.modBarrier i f) = pi s := by
  have hun (x : UnitRec) : pi { s with un := x } = pi s := h.un s x
  have hcore (u : State) (n : Nat) : pi (u.countCore n 14 1) = pi u := h.cores u _
  have hl1 (u : State) (n : Nat) : pi (u.dropL1 n) = pi u := h.l1 u _
  unfold State.modBarrier
  dsimp only
  split
  · rw [wake_keeps h, hcore]
    split
    · rw [hl1]
      exact hun _
    · exact hun _
  · exact hun _

theorem lowerBarriers_keeps (h : Unmoved pi) (s : State) (n : Nat) : pi (s.lowerBarriers n) = pi s := by
  refine foldl_keeps pi (fun t i => ?_) _ _
  split
  · exact modBarrier_keeps h t _ _
  · rfl

theorem clearSysFlags_keeps (h : Unmoved pi) (s : State) (uid : Nat) : pi (s.clearSysFlags uid) = pi s := by
  refine foldl_keeps pi (fun t w => ?_) _ _
  split
  · refine h.streams t _ (fun x => ?_)
    split <;> rfl
  · rfl

theorem checkSyscall_keeps (h : Unmoved pi) (s : State) : pi s.checkSyscall = pi s := by
  unfold State.checkSyscall
  split
  · rfl
  · split
    · rfl
    · split
      · rfl
      · refine (h.out _ _ _).trans ?_
        refine (h.un _ _).trans ?_
        exact clearSysFlags_keeps h s _

/-- Held REDs sent to their homes: only what is on its way and what is due changes. -/
theorem flushHeld_keeps (h : ∀ s f, (∀ x : Stream, (f x).flushed = x.flushed) → pi (s.mapStreams f) = pi s)
    (ha : ∀ s a n e, pi { s with atomics := a, nextId := n, events := e } = pi s) (s : State) (sid : Nat) : pi (s.flushHeld sid) = pi s := by
  unfold State.flushHeld
  split
  · rfl
  · split
    · rfl
    · dsimp only
      have hpost (u : State) (i : Instr) : pi (u.post i) = pi u := ha u u.atomics u.nextId _
      rw [hpost]
      refine (h _ _ (fun x => ?_)).trans (ha s _ _ s.events)
      split <;> rfl
end

theorem flushHeld_st (s : State) (sid : Nat) : (s.flushHeld sid).st.flushed = s.st.flushed :=
  flushHeld_keeps (pi := fun s => s.st.flushed) (fun s _ h => h s.st) (fun _ _ _ _ => rfl) s sid

theorem flushHeld_gr (s : State) (sid : Nat) : (s.flushHeld sid).gr = s.gr := flushHeld_keeps (fun _ _ _ => rfl) (fun _ _ _ _ => rfl) s sid

theorem flushHeld_mem (s : State) (sid : Nat) : (s.flushHeld sid).sameMem s :=
  ⟨flushHeld_keeps (pi := State.mem) (fun _ _ _ => rfl) (fun _ _ _ _ => rfl) s sid,
    flushHeld_keeps (pi := State.host) (fun _ _ _ => rfl) (fun _ _ _ _ => rfl) s sid⟩

/-- A field other than the held REDs is the same in streams that are alike when flushed. -/
theorem flushed_field {γ : Type} {x y : Stream} (f : Stream → γ) (hf : ∀ z : Stream, f z.flushed = f z) (h : x.flushed = y.flushed) : f x = f y := by
  rw [← hf x, h, hf y]

theorem flushed_place {x y : Stream} (h : x.flushed = y.flushed) : x.sid = y.sid ∧ x.pc = y.pc ∧ x.pos = y.pos ∧ x.hdr = y.hdr ∧ x.exm = y.exm :=
  ⟨flushed_field Stream.sid (fun _ => rfl) h, flushed_field Stream.pc (fun _ => rfl) h, flushed_field Stream.pos (fun _ => rfl) h,
    flushed_field Stream.hdr (fun _ => rfl) h, flushed_field Stream.exm (fun _ => rfl) h⟩

theorem unmoved_mem : Unmoved State.mem := ⟨fun _ _ _ => rfl, fun _ _ => rfl, fun _ _ => rfl, fun _ _ => rfl, fun _ _ _ => rfl⟩
theorem unmoved_host : Unmoved State.host := ⟨fun _ _ _ => rfl, fun _ _ => rfl, fun _ _ => rfl, fun _ _ => rfl, fun _ _ _ => rfl⟩
theorem unmoved_gr : Unmoved State.gr := ⟨fun _ _ _ => rfl, fun _ _ => rfl, fun _ _ => rfl, fun _ _ => rfl, fun _ _ _ => rfl⟩
theorem unmoved_events : Unmoved State.events := ⟨fun _ _ _ => rfl, fun _ _ => rfl, fun _ _ => rfl, fun _ _ => rfl, fun _ _ _ => rfl⟩
theorem unmoved_launches : Unmoved State.launches := ⟨fun _ _ _ => rfl, fun _ _ => rfl, fun _ _ => rfl, fun _ _ => rfl, fun _ _ _ => rfl⟩
theorem unmoved_st : Unmoved (fun s => s.st.resting) := ⟨fun s _ h => h s.st, fun _ _ => rfl, fun _ _ => rfl, fun _ _ => rfl, fun _ _ _ => rfl⟩
theorem unmoved_streams : Unmoved (fun s => s.streams.map (·.resting)) :=
  ⟨fun s f h => by
    show (s.streams.map f).map _ = _
    rw [List.map_map]
    exact List.map_congr_left (fun x _ => h x), fun _ _ => rfl, fun _ _ => rfl, fun _ _ => rfl, fun _ _ _ => rfl⟩

/-! ## Lanes that end (R116) -/

/-- The lanes of a set taken out of the issuing stream and its group. -/
def State.lanesCut (s : State) (e : Mask) : State :=
  (s.modSt (fun x =>
    { x with exm := x.exm.minus e, base := x.base.minus e, stack := x.stack.map (fun p => { p with mask := p.mask.minus e }),
             below := x.below.map (fun p => { p with mask := p.mask.minus e }), restart := { x.restart with exm := x.restart.exm.minus e } })).modGr (fun g =>
    { g with alive := g.alive.minus e })

theorem endLanes_keeps {β : Type} {pi : State → β} (h : Unmoved pi) (he : ∀ s e, pi { s with events := e } = pi s) (s : State) (e : Mask) :
    pi (s.endLanes e) = pi (s.lanesCut e) := by
  have hrest : pi ((s.lanesCut e).lowerBarriers e.size).checkSyscall = pi (s.lanesCut e) := (checkSyscall_keeps h _).trans (lowerBarriers_keeps h _ _)
  change pi (if s.gr.alive ≠ 0 ∧ (s.lanesCut e).gr.alive = 0 then (((s.lanesCut e).lowerBarriers e.size).checkSyscall).post _ else _) = _
  split
  · exact (he _ _).trans hrest
  · exact hrest

theorem endLanes_gr (s : State) (e : Mask) : (s.endLanes e).gr = { s.gr with alive := s.gr.alive.minus e } := endLanes_keeps unmoved_gr (fun _ _ => rfl) s e

theorem endLanes_mem (s : State) (e : Mask) : (s.endLanes e).sameMem s :=
  ⟨endLanes_keeps unmoved_mem (fun _ _ => rfl) s e, endLanes_keeps unmoved_host (fun _ _ => rfl) s e⟩

theorem endLanes_st (s : State) (e : Mask) : (s.endLanes e).st.resting = (s.lanesCut e).st.resting := endLanes_keeps unmoved_st (fun _ _ => rfl) s e

theorem endLanes_streams (s : State) (e : Mask) : (s.endLanes e).streams.map (·.resting) = s.streams.map (·.resting) :=
  endLanes_keeps unmoved_streams (fun _ _ => rfl) s e

/-- Ending lanes adds to what is due. -/
theorem mem_endLanes_events {s : State} {e : Mask} {i : Instr} (h : i ∈ s.events) : i ∈ (s.endLanes e).events := by
  have hrest : ((s.lanesCut e).lowerBarriers e.size).checkSyscall.events = s.events :=
    (checkSyscall_keeps unmoved_events _).trans (lowerBarriers_keeps unmoved_events _ _)
  change i ∈ (if s.gr.alive ≠ 0 ∧ (s.lanesCut e).gr.alive = 0 then (((s.lanesCut e).lowerBarriers e.size).checkSyscall).post _ else _).events
  split
  · exact List.mem_append_left _ (hrest ▸ h)
  · exact hrest ▸ h

/-- With the group's last lane GROUP_END is due. -/
theorem groupEnd_mem_endLanes {s : State} {e : Mask} (ha : s.gr.alive ≠ 0) (hz : s.gr.alive.minus e = 0) : .groupEnd s.gr.gid ∈ (s.endLanes e).events := by
  change _ ∈ (if s.gr.alive ≠ 0 ∧ (s.lanesCut e).gr.alive = 0 then (((s.lanesCut e).lowerBarriers e.size).checkSyscall).post (.groupEnd s.gr.gid) else _).events
  rw [if_pos ⟨ha, hz⟩]
  exact List.mem_append_right _ (List.mem_singleton.2 rfl)

theorem endAt_some {s : State} {e : Mask} (h : s.st.exm.minus e ≠ 0) (he : e ≠ 0) :
    s.endAt e = .next ((s.flushHeld s.st.sid).endLanes e) := by
  have hx : (s.flushHeld s.st.sid).st.exm = s.st.exm :=
    flushed_field Stream.exm (fun _ => rfl) (flushHeld_st s s.st.sid)
  simp only [State.endAt]
  rw [if_neg he, hx, if_neg h]

theorem endAt_all {s : State} (hx : s.st.exm ≠ 0) (hh : s.st.held = []) : s.endAt s.st.exm = .moved (s.endLanes s.st.exm).pathEnd := by
  simp only [State.endAt, flushHeld_idle s hh]
  rw [if_neg hx, if_pos (Mask.minus_self _)]

/-- The lanes that end leave EXM, and the others go on at the next word. -/
theorem exit_some {s : State} {g : BitVec 4} (hgo : s.goesOn = true) (h : s.st.exm.minus (s.active g) ≠ 0) :
    ∃ u, exec (.exit g) s = .next u ∧ u.sameMem s ∧ u.gr.lanes = s.gr.lanes ∧ u.gr.alive = s.gr.alive.minus (s.active g) ∧
      u.st.exm = s.st.exm.minus (s.active g) ∧ u.st.pc = s.st.pc + 4 := by
  have hl := goesOn_landed s hgo
  by_cases he : s.active g = 0
  · refine ⟨_, retires_noop (?_ : _ = s.run (.next s)) hgo, sameMem_refl s, rfl, ?_, ?_, rfl⟩
    · change s.run (s.endAt (s.active g)) = _
      rw [he]
      rfl
    · rw [he, Mask.minus_zero]
      rfl
    · rw [he, Mask.minus_zero]
      rfl
  · generalize hv : (s.flushHeld s.st.sid).endLanes (s.active g) = v
    obtain ⟨fsid, fpc, fpos, fhdr, fexm⟩ := flushed_place (flushHeld_st s s.st.sid)
    obtain ⟨hsid, hpc, hpos, hhdr, hexm⟩ := resting_place (hv ▸ endLanes_st (s.flushHeld s.st.sid) (s.active g))
    have hexm' : v.st.exm = s.st.exm.minus (s.active g) := hexm.trans (congrArg (fun m : Mask => m.minus (s.active g)) fexm)
    have hgr : v.gr = { s.gr with alive := s.gr.alive.minus (s.active g) } := by rw [← hv, endLanes_gr, flushHeld_gr]
    have hmem : v.sameMem s := hv ▸ sameMem_trans _ _ _ (endLanes_mem _ _) (flushHeld_mem s _)
    have hexec : exec (.exit g) s = .next (v.retired s false) := by
      change s.run (s.endAt (s.active g)) = _
      rw [endAt_some h he, hv, State.run, if_pos hl,
        finish_next_place false hgo (hexm' ▸ h) (hsid.trans fsid) (hpc.trans fpc) (hpos.trans fpos) (hhdr.trans fhdr)]
    refine ⟨_, hexec, hmem, (congrArg Group.lanes hgr :), (congrArg Group.alive hgr :), hexm', ?_⟩
    show v.st.pc + 4 = _
    rw [hpc, ← fpc]
    rfl

/-- A home path without an entry left, whose lanes have all ended, is gone. -/
theorem pathEnd_home {s : State} (hk : s.st.kind = .home) (hp : s.st.privileged = false) (hs : s.st.stack = []) (hb : s.st.below = []) (hh : s.st.held = []) :
    s.pathEnd = ((s.modSt (fun x => { x with exm := 0, pos := 0, ext := none })).endLanes s.st.base).dropSelf := by
  have hd : s.st.pathd = 0 := by simp [Stream.pathd, hs, hb]
  have hfloor : (s.modSt (fun x => { x with exm := 0, pos := 0, ext := none })).st.pathd ≤ (s.modSt (fun x => { x with exm := 0, pos := 0, ext := none })).st.floor :=
    le_trans (le_of_eq hd) (Nat.zero_le _)
  rw [State.pathEnd, State.pathEndFor, if_pos hfloor, if_neg (by simp [hp])]
  have hidle := flushHeld_idle (s.modSt (fun x => { x with exm := 0, pos := 0, ext := none })) hh
  simp only [State.pathFloor, State.modSt_st, hk]
  rw [show s.st.sid = (s.modSt (fun x => { x with exm := 0, pos := 0, ext := none })).st.sid from rfl, hidle]

/-- An instruction after which no stream issues leaves no stream. -/
theorem settle_dropped {s u : State} (h : u.st = Stream.none) : u.settle s = { u with cores := (u.countRetired s).cores } := by
  have e : u.settle s = { u with st := (if u.st.sid = s.st.sid then u.st.retire else u.st), cores := (u.countRetired s).cores } := rfl
  have hn : (if u.st.sid = s.st.sid then u.st.retire else u.st) = u.st := by
    rw [h]
    exact ite_eq_right_iff.2 (fun _ => rfl)
  rw [e, hn]

theorem run_dropped {s u : State} (hl : s.landed = true) (h : u.st = Stream.none) :
    s.run (.moved u) = .next { u with cores := (u.countRetired s).cores } := by
  rw [State.run, if_pos hl]
  simp only [State.finish, settle_dropped h, Bool.false_and, Bool.false_eq_true, if_false]

/-- The end of a whole home path (R116, R127). -/
theorem exit_all {s : State} {g : BitVec 4} (hgo : s.goesOn = true) (hall : s.st.exm.minus (s.active g) = 0) (hk : s.st.kind = .home)
    (hp : s.st.privileged = false) (hs : s.st.stack = []) (hb : s.st.below = []) (hh : s.st.held = []) (hbase : s.st.base = s.st.exm) :
    ∃ u, exec (.exit g) s = .next u ∧ u.sameMem s ∧ u.st = Stream.none ∧ u.gr.alive = s.gr.alive.minus s.st.exm ∧ u.streams.length = s.streams.length ∧
      (s.gr.alive ≠ 0 → s.gr.alive.minus s.st.exm = 0 → .groupEnd s.gr.gid ∈ u.events) := by
  generalize hv : s.endLanes s.st.exm = v
  have hst := endLanes_st s s.st.exm
  rw [hv] at hst
  have vk : v.st.kind = .home := (resting_field Stream.kind (fun _ => rfl) hst).trans hk
  have vp : v.st.privileged = false := (resting_field Stream.privileged (fun _ => rfl) hst).trans hp
  have vs : v.st.stack = [] := (resting_field Stream.stack (fun _ => rfl) hst).trans (by simp [State.lanesCut, hs])
  have vb : v.st.below = [] := (resting_field Stream.below (fun _ => rfl) hst).trans (by simp [State.lanesCut, hb])
  have vh : v.st.held = [] := (resting_field Stream.held (fun _ => rfl) hst).trans hh
  have vgr : v.gr = { s.gr with alive := s.gr.alive.minus s.st.exm } := hv ▸ endLanes_gr s s.st.exm
  have hexec : exec (.exit g) s = s.run (.moved v.pathEnd) := by
    change s.run (s.endAt (s.active g)) = _
    rw [active_eq_exm hall, endAt_all (goesOn_exm hgo) hh, hv]
  rw [pathEnd_home vk vp vs vb vh, run_dropped (goesOn_landed s hgo) rfl] at hexec
  have vbase : v.st.base = 0 := (resting_field Stream.base (fun _ => rfl) hst).trans (by
    show s.st.base.minus s.st.exm = 0
    rw [hbase, Mask.minus_self])
  rw [vbase] at hexec
  refine ⟨_, hexec, ?_, rfl, ?_, ?_, fun ha hz => ?_⟩
  · exact sameMem_trans _ v _ (endLanes_mem (v.modSt (fun x => { x with exm := 0, pos := 0, ext := none })) 0) (hv ▸ endLanes_mem s s.st.exm)
  · have hgr := congrArg Group.alive (endLanes_gr (v.modSt (fun x => { x with exm := 0, pos := 0, ext := none })) 0)
    exact hgr.trans (by rw [State.modSt_gr, vgr, Mask.minus_zero])
  · have hlen := (congrArg List.length (endLanes_streams (v.modSt (fun x => { x with exm := 0, pos := 0, ext := none })) 0)).trans
      (congrArg List.length (hv ▸ endLanes_streams s s.st.exm))
    rw [List.length_map, List.length_map] at hlen
    exact hlen
  · exact mem_endLanes_events (s := v.modSt (fun x => { x with exm := 0, pos := 0, ext := none })) (e := 0) (hv ▸ groupEnd_mem_endLanes ha hz)

/-- Settles O39: the lanes cut are the ending ones, and nothing that ends with them touches the others or memory. -/
theorem exits : Obligations.Exits := fun _ _ hgo =>
  ⟨exit_some hgo, fun hall hk hp hs hb hh hbase _ => exit_all hgo hall hk hp hs hb hh hbase⟩

/-! ## Barriers -/

/-- The word of a barrier changed holds what completion leaves of it. -/
theorem barrier_modBarrier {s : State} {n : Nat} {f : Barrier → Barrier} (h : s.hasBarrier n) : (s.modBarrier n f).barrier n = (f (s.barrier n)).evaluate.1 := by
  obtain ⟨-, -, c, hc, hn⟩ := h
  have hput : ∀ b, (s.modUn (fun u => { u with cores := u.cores.modify s.gr.coreIndex (fun c => { c with bars := c.bars.set n b }) })).barrier n = b := by
    intro b
    have hc' : (s.un.cores.modify s.gr.coreIndex (fun c => { c with bars := c.bars.set n b }))[s.gr.coreIndex]? = some { c with bars := c.bars.set n b } := by
      rw [List.getElem?_modify_eq, hc]
      rfl
    simp [State.barrier, State.modUn, hc', hn]
  have hwake (u : State) (p : Stream → Bool) : (u.wake p).barrier n = u.barrier n := rfl
  have hcore (u : State) (k : Nat) : (u.countCore k 14 1).barrier n = u.barrier n := rfl
  have hl1 (u : State) (k : Nat) : (u.dropL1 k).barrier n = u.barrier n := rfl
  unfold State.modBarrier
  dsimp only
  split
  · rw [hwake, hcore]
    split
    · rw [hl1, hput]
    · rw [hput]
  · rw [hput]

/-- Completion wakes streams that wait; a runnable one stands as it stood. -/
theorem modBarrier_st {s : State} (n : Nat) (f : Barrier → Barrier) (h : s.st.status = .runnable) : (s.modBarrier n f).st = s.st := by
  have hwake : ∀ (u : State) (p : Stream → Bool), u.st = s.st → p s.st = false → (u.wake p).st = s.st := by
    intro u p hu hp
    show (if p u.st then _ else u.st) = _
    rw [hu, hp]
    rfl
  unfold State.modBarrier
  dsimp only
  split
  · refine hwake _ _ ?_ (by simp [h])
    split <;> rfl
  · rfl

theorem modBarrier_gr (s : State) (n : Nat) (f : Barrier → Barrier) : (s.modBarrier n f).gr = s.gr := modBarrier_keeps unmoved_gr s n f

theorem modBarrier_mem (s : State) (n : Nat) (f : Barrier → Barrier) : (s.modBarrier n f).sameMem s :=
  ⟨modBarrier_keeps unmoved_mem s n f, modBarrier_keeps unmoved_host s n f⟩

/-- A phase that completes is flipped (R136). -/
theorem evaluate_phase (b : Barrier) : (b.evaluate.1.phase != b.phase) = b.evaluate.2 := by
  unfold Barrier.evaluate
  split
  · cases b.phase <;> rfl
  · simp

theorem bit_recorded (x : BitVec 128) (p : Bool) (n : BitVec 7) :
    (if p then x ||| ((1#128) <<< n.toNat) else x &&& ~~~ ((1#128) <<< n.toNat)).getLsbD n.toNat = p := by
  have hn : n.toNat < 128 := n.isLt
  cases p
  · simp [hn]
  · simp [hn]

/-- The issuing stream with the phase before its arrival recorded (R150). -/
def Stream.recorded (x : Stream) (n : Nat) (p : Bool) : Stream :=
  { x with arrivals := if p then x.arrivals ||| ((1#128) <<< n) else x.arrivals &&& ~~~ ((1#128) <<< n) }

section
variable {s : State} {n : BitVec 7}

/-- The barrier word after k lanes have arrived, and whether their phase has completed. -/
def State.arrival (s : State) (n k : Nat) : Barrier × Bool :=
  (({ s.barrier n with arrived := BitVec.ofNat 16 ((s.barrier n).arrived.toNat + k) } : Barrier)).evaluate

theorem arriveAt_eq (hh : s.st.held = []) (n k : Nat) : s.arriveAt n k = (s.modSt (fun x => x.recorded n (s.barrier n).phase)).modBarrier n
    (fun b => { b with arrived := BitVec.ofNat 16 (b.arrived.toNat + k) }) := by
  rw [State.arriveAt, flushHeld_idle s hh]
  rfl

theorem arriveAt_st (hh : s.st.held = []) (hr : s.st.status = .runnable) (n k : Nat) : (s.arriveAt n k).st = s.st.recorded n (s.barrier n).phase := by
  rw [arriveAt_eq hh]
  exact modBarrier_st n _ hr

theorem arriveAt_barrier (hh : s.st.held = []) (h : s.hasBarrier n.toNat) (k : Nat) : (s.arriveAt n.toNat k).barrier n.toNat = (s.arrival n.toNat k).1 := by
  rw [arriveAt_eq hh]
  exact barrier_modBarrier (s := s.modSt (fun x => x.recorded n.toNat (s.barrier n.toNat).phase)) h

theorem arriveAt_passed (hh : s.st.held = []) (hr : s.st.status = .runnable) (h : s.hasBarrier n.toNat) (k : Nat) :
    (s.arriveAt n.toNat k).phasePassed n.toNat = (s.arrival n.toNat k).2 := by
  rw [State.phasePassed, arriveAt_barrier hh h, arriveAt_st hh hr, Stream.recorded, bit_recorded]
  exact evaluate_phase _

theorem arriveAt_mem (hh : s.st.held = []) (n k : Nat) : (s.arriveAt n k).sameMem s := by
  rw [arriveAt_eq hh]
  exact modBarrier_mem _ _ _

theorem arriveAt_gr (hh : s.st.held = []) (n k : Nat) : (s.arriveAt n k).gr = s.gr := by
  rw [arriveAt_eq hh]
  exact modBarrier_gr _ _ _

theorem barCheck_held (h : s.hasBarrier n.toNat) (f : Verdict) : s.barCheck n.toNat f = f := by
  obtain ⟨hw, hn, -⟩ := h
  unfold State.isWave at hw
  unfold State.barCheck
  split
  · next hk => simp [hk] at hw
  · rw [if_neg (Nat.not_le.2 hn)]

/-- An acquire drops L1 sectors alone. -/
theorem acquire_cases (u : State) (scope : Nat) : u.acquire scope = u ∨ u.acquire scope = u.dropL1 u.gr.coreId := by
  unfold State.acquire
  split
  · exact .inr rfl
  · exact .inl rfl

/-- An instruction that has recorded an arrival and leaves its stream in a status retires so. -/
theorem arrived {u : State} {q : StreamStatus} (hgo : s.goesOn = true) (hc : s.st.cancelAt = none) (hmem : u.sameMem s) (hgr : u.gr = s.gr)
    (hst : u.st = { s.st.recorded n.toNat (s.barrier n.toNat).phase with status := q }) :
    ∃ v, s.runN (.next u) = .next v ∧ v.sameMem s ∧ v.sameRegs s ∧ v.barrier n.toNat = u.barrier n.toNat ∧
      v.st.arrivals.getLsbD n.toNat = (s.barrier n.toNat).phase ∧ v.st.status = q := by
  have hx : u.st.exm ≠ 0 := by
    rw [hst]
    exact goesOn_exm hgo
  have hrun : s.runN (.next u) = .next (u.retired s true) := by
    rw [State.runN, if_pos (goesOn_landed s hgo),
      finish_next_place true hgo hx (congrArg Stream.sid hst :) (congrArg Stream.pc hst :) (congrArg Stream.pos hst :) (congrArg Stream.hdr hst :)]
  have hnone : u.st.cancelAt = none := (congrArg Stream.cancelAt hst :).trans hc
  refine ⟨_, hrun, hmem, ⟨congrArg Group.lanes hgr, ?_, ?_, ?_, ?_⟩, rfl, ?_, ?_⟩
  · exact (congrArg Stream.sregs hst :)
  · exact (congrArg Stream.q hst :)
  · exact (congrArg Stream.exm hst :)
  · exact (congrArg (fun x : Stream => x.pc + 4) hst :)
  · exact (congrArg (fun x : Stream => x.arrivals.getLsbD n.toNat) hst :).trans (bit_recorded _ _ n)
  · show (if u.st.cancelAt.isSome then _ else u.st.status) = q
    rw [hnone, hst]
    rfl

/-- BARV: the arrival retires. -/
theorem barv_arrives {g : BitVec 4} (hgo : s.goesOn = true) (hb : s.hasBarrier n.toNat) (hr : s.st.status = .runnable) (hc : s.st.cancelAt = none)
    (ha : s.active g ≠ 0) (hq : s.quiet) :
    ∃ u, exec (.barv g n) s = .next u ∧ u.sameMem s ∧ u.sameRegs s ∧ u.barrier n.toNat = (s.arrival n.toNat (s.active g).size).1 ∧
      u.st.arrivals.getLsbD n.toNat = (s.barrier n.toNat).phase ∧ u.st.status = .runnable := by
  have he : exec (.barv g n) s = s.runN (.next (s.arriveAt n.toNat (s.active g).size)) := by
    change s.runN (s.barCheck n.toNat (if s.active g = 0 then _ else s.released (fun s1 => .next (s1.arriveAt n.toNat (s1.active g).size)))) = _
    rw [barCheck_held hb, if_neg ha, released_quiet _ _ hq]
  have hst : (s.arriveAt n.toNat (s.active g).size).st = { s.st.recorded n.toNat (s.barrier n.toNat).phase with status := .runnable } := by
    rw [arriveAt_st hq.2 hr, ← hr]
    rfl
  obtain ⟨u, hu, hmem, hregs, hbar, hbit, hstat⟩ := arrived hgo hc (arriveAt_mem hq.2 _ _) (arriveAt_gr hq.2 _ _) hst
  exact ⟨u, he.trans hu, hmem, hregs, hbar.trans (arriveAt_barrier hq.2 hb _), hbit, hstat⟩

/-- BSYNC: the arrival retires; the path waits unless its arrival has completed the phase. -/
theorem bsync_arrives {g : BitVec 4} (hgo : s.goesOn = true) (hb : s.hasBarrier n.toNat) (hr : s.st.status = .runnable) (hc : s.st.cancelAt = none)
    (ha : s.active g ≠ 0) (hq : s.quiet) :
    ∃ u, exec (.bsync g n) s = .next u ∧ u.sameMem s ∧ u.sameRegs s ∧ u.barrier n.toNat = (s.arrival n.toNat (s.active g).size).1 ∧
      u.st.arrivals.getLsbD n.toNat = (s.barrier n.toNat).phase ∧
      u.st.status = (if (s.arrival n.toNat (s.active g).size).2 then .runnable else .waitBarrier n.toNat) := by
  generalize hk : (s.active g).size = k
  have hst := arriveAt_st hq.2 hr n.toNat k
  have he : exec (.bsync g n) s = s.runN (if (s.arriveAt n.toNat k).phasePassed n.toNat then .next ((s.arriveAt n.toNat k).acquire 1)
      else .next ((s.arriveAt n.toNat k).modSt (fun x => { x with status := .waitBarrier n.toNat }))) := by
    change s.runN (s.barCheck n.toNat (if s.active g = 0 then _ else s.released (fun s1 =>
      if (s1.arriveAt n.toNat (s1.active g).size).phasePassed n.toNat then .next ((s1.arriveAt n.toNat (s1.active g).size).acquire 1)
      else .next ((s1.arriveAt n.toNat (s1.active g).size).modSt (fun x => { x with status := .waitBarrier n.toNat }))))) = _
    rw [barCheck_held hb, if_neg ha, released_quiet _ _ hq, hk]
  rw [arriveAt_passed hq.2 hr hb] at he
  by_cases hp : (s.arrival n.toNat k).2 = true
  · rw [if_pos hp] at he ⊢
    have hst' : (s.arriveAt n.toNat k).st = { s.st.recorded n.toNat (s.barrier n.toNat).phase with status := .runnable } := by
      rw [hst, ← hr]
      rfl
    rcases acquire_cases (s.arriveAt n.toNat k) 1 with h | h <;> rw [h] at he
    · obtain ⟨u, hu, hmem, hregs, hbar, hrest⟩ := arrived hgo hc (arriveAt_mem hq.2 _ _) (arriveAt_gr hq.2 _ _) hst'
      exact ⟨u, he.trans hu, hmem, hregs, hbar.trans (arriveAt_barrier hq.2 hb _), hrest⟩
    · obtain ⟨u, hu, hmem, hregs, hbar, hrest⟩ := arrived (u := (s.arriveAt n.toNat k).dropL1 _) hgo hc (arriveAt_mem hq.2 _ _) (arriveAt_gr hq.2 _ _) hst'
      exact ⟨u, he.trans hu, hmem, hregs, hbar.trans (arriveAt_barrier hq.2 hb _), hrest⟩
  · rw [if_neg hp] at he ⊢
    obtain ⟨u, hu, hmem, hregs, hbar, hrest⟩ := arrived (u := (s.arriveAt n.toNat k).modSt (fun x => { x with status := .waitBarrier n.toNat }))
      (q := .waitBarrier n.toNat) hgo hc (arriveAt_mem hq.2 _ _) (arriveAt_gr hq.2 _ _)
      (congrArg (fun x : Stream => { x with status := .waitBarrier n.toNat }) hst)
    exact ⟨u, he.trans hu, hmem, hregs, hbar.trans (arriveAt_barrier hq.2 hb _), hrest⟩

theorem exec_bwait {g : BitVec 4} (hb : s.hasBarrier n.toNat) : exec (.bwait g n) s = s.run (if s.active g = 0 then .next s
    else if s.st.woken || s.phasePassed n.toNat then .next ((s.flushHeld s.st.sid).acquire 1)
    else .hold (s.modSt (fun x => { x with status := .waitBarrier n.toNat, bwait := true }))) := by
  change s.run (s.barCheck n.toNat _) = _
  rw [barCheck_held hb]

theorem acquire_st (u : State) (scope : Nat) : (u.acquire scope).st = u.st := by
  rcases acquire_cases u scope with h | h <;> rw [h]
  rfl

theorem exec_barinit {g : BitVec 4} {v : BitVec 1} {b : BitVec 6} (hb : s.hasBarrier n.toNat) (hu : s.uniGuard g = true) :
    exec (.barinit g n v b) s = s.run (.next (s.modBarrier n.toNat (fun w => { w with expected := (s.sreg b.toNat).setWidth 16, auto := v == 1 }))) := by
  obtain ⟨hw, hn, -⟩ := hb
  have hk : ∀ k, s.st.kind ≠ .wave k := by
    intro k hk
    simp [State.isWave, hk] at hw
  change s.run (match s.st.kind with
    | .wave _ => .trap .illegal s.st.exm s
    | _ => if !s.uniGuard g then .next s else if s.un.nb ≤ n.toNat then .trap .prot s.st.exm s else .next (s.modBarrier n.toNat _)) = _
  split
  · next h => exact absurd h (hk _)
  · rw [if_neg (by simp [hu]), if_neg (Nat.not_le.2 hn)]
end

/-- Settles O44: what an arrival leaves, and how each barrier instruction goes on after it. -/
theorem barriers : Obligations.Barriers := by
  intro s g n v b w r hgo hb hr hc
  have hl := goesOn_landed s hgo
  refine ⟨fun ha hq => ⟨barv_arrives hgo hb hr hc ha hq, bsync_arrives hgo hb hr hc ha hq⟩, fun ha => ⟨?_, ?_, ?_⟩, fun ha hp => ?_, fun ha hw hp => ?_, fun hu => ?_⟩
  · refine retires_runN (?_ : _ = s.runN (.next s)) hl rfl hgo
    change s.runN (s.barCheck n.toNat (if s.active g = 0 then _ else _)) = _
    rw [barCheck_held hb, if_pos ha]
  · refine retires_runN (?_ : _ = s.runN (.next s)) hl rfl hgo
    change s.runN (s.barCheck n.toNat (if s.active g = 0 then _ else _)) = _
    rw [barCheck_held hb, if_pos ha]
  · refine retires_noop ((exec_bwait hb).trans ?_) hgo
    rw [if_pos ha]
  · obtain ⟨hsid, hpc, hpos, hhdr, hexm⟩ := flushed_place (flushHeld_st s s.st.sid)
    have hst := acquire_st (s.flushHeld s.st.sid) 1
    have hex : ((s.flushHeld s.st.sid).acquire 1).st.exm ≠ 0 := by
      rw [hst, hexm]
      exact goesOn_exm hgo
    have hpass : (s.st.woken || s.phasePassed n.toNat) = true := by simpa using hp
    refine (exec_bwait hb).trans ?_
    rw [if_neg ha, if_pos hpass, State.run, if_pos hl, finish_next_place false hgo hex (by rw [hst, hsid]) (by rw [hst, hpc]) (by rw [hst, hpos]) (by rw [hst, hhdr])]
  · refine (exec_bwait hb).trans ?_
    rw [if_neg ha, if_neg (by simp [hw, hp]), run_hold _ _ hl]
  · have hst := modBarrier_st (s := s) n.toNat (fun w => { w with expected := (s.sreg b.toNat).setWidth 16, auto := v == 1 }) hr
    have hplace := finish_next_place false hgo (by rw [hst]; exact goesOn_exm hgo) (by rw [hst]) (by rw [hst]) (by rw [hst]) (by rw [hst])
    refine ⟨(s.modBarrier n.toNat (fun w => { w with expected := (s.sreg b.toNat).setWidth 16, auto := v == 1 })).retired s false,
      (exec_barinit hb hu).trans ?_, ?_, ?_, ?_⟩
    · rw [State.run, if_pos hl, hplace]
    · exact modBarrier_mem _ _ _
    · exact sameRegs_retired false (congrArg Group.lanes (modBarrier_gr _ _ _)) hst
    · exact barrier_modBarrier hb

end Sys2Proof.Machine
end

section
/-!
Traps and handlers: O41, O42, O43.
-/
namespace Sys2Proof.Machine

variable {β : Type}

/-! ## Accesses of the device for a group -/

theorem tlbPut_keeps (pi : State → β) (h : ∀ s t d c, pi { s with tlb := t, dies := d, cores := c } = pi s) (s : State) (e : TlbEntry) :
    pi (s.tlbPut e) = pi s := h s _ s.dies s.cores

theorem noteWalk_keeps (pi : State → β) (h : ∀ s t d c, pi { s with tlb := t, dies := d, cores := c } = pi s) (s : State) (core ctx va : Nat) :
    pi (s.noteWalk core ctx va) = pi s := by
  have hcore (u : State) (k : Nat) : pi (u.countCore k 6 1) = pi u := h u u.tlb u.dies _
  have hdie (u : State) (k : Nat) : pi (u.countDie k 6 1) = pi u := h u u.tlb _ u.cores
  unfold State.noteWalk
  split
  · rfl
  · rw [hdie, hcore]
    unfold State.tlbFill
    split
    · exact tlbPut_keeps pi h _ _
    · rfl

theorem areaWalk_keeps (pi : State → β) (h : ∀ s t d c, pi { s with tlb := t, dies := d, cores := c } = pi s) (s : State) (g : Group) (va : Nat) :
    pi (s.areaWalk g va) = pi s := by
  unfold State.areaWalk
  split
  · rfl
  · exact noteWalk_keeps pi h s _ _ _

/-- A read for a group notes its walk alone. -/
theorem areaGet_keeps (pi : State → β) (h : ∀ s t d c, pi { s with tlb := t, dies := d, cores := c } = pi s) {s u : State} {who lane va n v : Nat} {g : Group}
    (hu : s.areaGet who g lane va n = .ok (u, v)) : pi u = pi s := by
  unfold State.areaGet at hu
  split at hu
  · cases ha : s.areaAnswer g lane va false 0 n with
    | error f => simp [ha, Except.map] at hu
    | ok w =>
      simp only [ha, Except.map, Except.ok.injEq, Prod.mk.injEq] at hu
      rw [← hu.1]
  · split at hu
    · exact absurd hu (by simp)
    · simp only [Except.ok.injEq, Prod.mk.injEq] at hu
      rw [← hu.1]
      exact areaWalk_keeps pi h s g va

theorem getBlock_keeps (pi : State → β) (h : ∀ s t d c, pi { s with tlb := t, dies := d, cores := c } = pi s) (os : List Nat) :
    ∀ {s u : State} {ws : List (Nat × Word)}, s.getBlock os = .ok (u, ws) → pi u = pi s := by
  induction os with
  | nil =>
    intro s u ws hu
    simp only [State.getBlock, Except.ok.injEq, Prod.mk.injEq] at hu
    rw [← hu.1]
  | cons o r ih =>
    intro s u ws hu
    simp only [State.getBlock] at hu
    split at hu
    · exact absurd hu (by simp)
    · next t v hget =>
      cases hrest : t.getBlock r with
      | error f => simp [hrest, Except.map] at hu
      | ok x =>
        obtain ⟨w, vs⟩ := x
        simp only [hrest, Except.map, Except.ok.injEq, Prod.mk.injEq] at hu
        rw [← hu.1, ih hrest, areaGet_keeps pi h hget]

/-! ## Leaving a handler -/

theorem rangeSectors_none (l n : Nat) : rangeSectors [(l, n, n)] = [] := by
  unfold rangeSectors
  refine List.flatMap_eq_nil_iff.2 (fun b _ => ?_)
  simp

theorem touchMove_none (s : State) (who : Nat) (g : Group) (w : Bool) (l n : Nat) : s.touchMove who g w [(l, n, n)] = s := by
  rw [State.touchMove, rangeSectors_none]
  rfl

theorem set_getD_self {α : Type} (l : List α) (i : Nat) (d : α) : l.set i (l.getD i d) = l := by
  by_cases h : i < l.length
  · simp [List.getD, h]
  · exact List.set_eq_of_length_le (Nat.le_of_not_lt h)

theorem refillTo_resident (s : State) (who : Nat) (g : Group) (l k : Nat) {x : Lane} {need : Nat} (floor : Nat) (h : x.lowres ≤ need) :
    s.refillTo who g l x need floor (k + 1) = .ok (s, x) := if_pos h

/-- A window that is resident needs no refill. -/
theorem leaveRefill_resident {s : State} {ls : List Nat} (h : ∀ l ∈ ls, (s.lane l).lowres ≤ (s.lane l).fb - 18 - (s.lane l).trapL) : s.leaveRefill ls = .ok s := by
  induction ls with
  | nil => rfl
  | cons l r ih =>
    have hl := h l (List.mem_cons_self ..)
    have hr := ih (fun x hx => h x (List.mem_cons_of_mem _ hx))
    have hset : s.modGr (fun g => { g with lanes := g.lanes.set l (s.lane l) }) = s := by
      have e := set_getD_self s.gr.lanes l Lane.start
      show ({ s with gr := { s.gr with lanes := s.gr.lanes.set l (s.gr.lanes.getD l Lane.start) } } : State) = s
      rw [e]
    rw [State.leaveRefill]
    simp only [refillTo_resident s s.st.sid s.gr l 127 _ hl, touchMove_none, hset, hr]

/-- What leaving a handler gives back, from the words of the save block. -/
theorem leaveHandler_ok {s u : State} (hu : s.leaveHandler = .ok u) : ∃ s0 ws, s.getBlock ((List.range 17).map (4 * ·)) = .ok (s0, ws) ∧
    u.mem = s0.mem ∧ u.host = s0.host ∧ u.events = s0.events ∧ u.gr = (s0.mapLanes (s.st.trap.mask &&& s.gr.alive) (fun _ x =>
      { x with fb := x.fb - 18 - x.trapL, locals := x.trapL })).gr ∧
    u.st.sid = s0.st.sid ∧ u.st.kind = s0.st.kind ∧ u.st.base = s0.st.base ∧ u.st.below = s0.st.below ∧ u.st.held = s0.st.held ∧
    u.st.privileged = false ∧ u.st.pc = s.st.trap.pc ∧ u.st.dep = s.st.trap.depth ∧ u.st.fmt = s.st.trap.tfmt ∧
    u.st.exm = s.st.trap.et &&& s.gr.alive &&& s0.st.base ∧ u.st.hdr = s.st.trap.hdr ∧ u.st.pos = s.st.trap.resumePos ∧ u.st.stack = s0.st.stack ∧
    ∀ i, i < 48 → u.st.sregs.getD i 0 = s0.st.sregs.getD i 0 := by
  unfold State.leaveHandler at hu
  cases hb : s.getBlock ((List.range 17).map (4 * ·)) with
  | error f => simp [hb, Except.map] at hu
  | ok x =>
    obtain ⟨s0, ws⟩ := x
    simp only [hb, Except.map, Except.ok.injEq] at hu
    subst hu
    refine ⟨s0, ws, rfl, rfl, rfl, rfl, rfl, rfl, rfl, rfl, rfl, rfl, rfl, rfl, rfl, rfl, rfl, rfl, rfl, rfl, fun i hi => ?_⟩
    simp [State.markRestart, State.modSt, List.getD, hi, show i < 60 by omega]

theorem privileged_allowed {s : State} (f : Verdict) (h : s.st.privileged = true) : s.privileged s.st.privileged f = f := by
  simp [State.privileged, isPriv_of_privileged h, h]

/-- RFT where the handler's path stands as it was entered. -/
theorem exec_rft {s s3 : State} {g : BitVec 4} (hp : s.st.privileged = true) (hu : s.uniGuard g = true) (hq : s.quiet) (hd : s.st.pathd = s.st.trap.hpathd)
    (hdep : s.st.dep = s.st.trap.hdep) (h4 : s.st.trap.pc.toNat % 4 = 0)
    (hw : ∀ l ∈ (s.st.trap.mask &&& s.gr.alive).lanes, (s.lane l).lowres ≤ (s.lane l).fb - 18 - (s.lane l).trapL) (hleave : s.leaveHandler = .ok s3) :
    exec (.rft g) s = s.run (.moved s3) := by
  change s.run (s.privileged s.st.privileged (if !s.uniGuard g then _ else s.released (fun s1 =>
    if s1.st.pathd ≠ s1.st.trap.hpathd ∨ s1.st.dep ≠ s1.st.trap.hdep then _ else if s1.st.trap.pc.toNat % 4 ≠ 0 then _ else
      match s1.leaveRefill (s1.st.trap.mask &&& s1.gr.alive).lanes with
      | .error f => s1.onStreamFault f
      | .ok s2 => match s2.leaveHandler with
        | .error f => s2.onStreamFault f
        | .ok s3 => .moved s3))) = _
  rw [privileged_allowed _ hp, if_neg (by simp [hu]), released_quiet _ _ hq, if_neg (by simp [hd, hdep]), if_neg (by simp [h4]), leaveRefill_resident hw]
  simp only [hleave]

/-- Settles O42: what the save block gives back, once the trapped window is resident. -/
theorem handlerReturn : Obligations.HandlerReturn := by
  intro s s3 g t m hp hu hq hl hd hdep h4 hw hleave
  obtain ⟨s0, ws, hget, hmem, hhost, -, hgr, hsid, -, -, -, -, hpriv, hpc, hdepth, hfmt, hexm, hhdr, hpos, hstack, hsregs⟩ := leaveHandler_ok hleave
  have kst : s0.st = s.st := getBlock_keeps State.st (fun _ _ _ _ => rfl) _ hget
  have kgr : s0.gr = s.gr := getBlock_keeps State.gr (fun _ _ _ _ => rfl) _ hget
  have kmem : s0.mem = s.mem := getBlock_keeps State.mem (fun _ _ _ _ => rfl) _ hget
  have khost : s0.host = s.host := getBlock_keeps State.host (fun _ _ _ _ => rfl) _ hget
  have hexec := exec_rft hp hu hq hd hdep h4 hw hleave
  rw [run_moved s s3 hl (hsid.trans (by rw [kst]))] at hexec
  refine ⟨_, hexec, ⟨hmem.trans kmem, hhost.trans khost⟩, hpriv, hpc, hdepth, hfmt, ?_, hhdr, hpos, ?_, fun i hi => ?_, fun l hlen => ?_⟩
  · exact hexm.trans (by rw [kst])
  · exact hstack.trans (by rw [kst])
  · exact (hsregs i hi).trans (by rw [kst])
  · have hlane : s3.lane l = (s0.mapLanes (t.mask &&& s.gr.alive) (fun _ x => { x with fb := x.fb - 18 - x.trapL, locals := x.trapL })).lane l :=
      congrArg (fun g : Group => g.lanes.getD l Lane.start) hgr
    have hs0 : s0.lane l = s.lane l := congrArg (fun g : Group => g.lanes.getD l Lane.start) kgr
    refine hlane.trans ?_
    rw [lane_mapLanes _ _ _ _ (by rw [kgr]; exact hlen), hs0]

/-! ## The end of a group -/

theorem foldl_flushHeld_keeps {pi : State → β} (h : ∀ s f, (∀ x : Stream, (f x).flushed = x.flushed) → pi (s.mapStreams f) = pi s)
    (ha : ∀ s a n e, pi { s with atomics := a, nextId := n, events := e } = pi s) (s : State) (l : List Nat) : pi (l.foldl State.flushHeld s) = pi s :=
  foldl_keeps pi (flushHeld_keeps h ha) l s

/-- The streams, the unit's arrivals and the lanes of the group taken away, before a SYSCALL may be due (R307). -/
def State.groupCut (s : State) : State :=
  let mine := (s.allStreams.filter (fun x => x.gid == s.gr.gid)).map (·.sid)
  let arrived := (s.allStreams.filter (fun x => x.gid == s.gr.gid && decide (x.status = .waitSyscall))).foldl (fun n x => n + x.exm.size) 0
  let s1 := mine.foldl State.flushHeld (s.unarrive arrived)
  ({ s1 with streams := s1.streams.filter (fun x => x.gid != s1.gr.gid), st := Stream.none } : State).modGr (fun g => { g with alive := 0 })

theorem killGroup_eq (s : State) : s.killGroup = if s.gr.alive = 0 then s.groupCut.checkSyscall else s.groupCut.checkSyscall.post (.groupEnd s.gr.gid) := rfl

section
variable {pi : State → β}

/-- The end of a group leaves a view that sees neither the streams, the group nor what is due. -/
theorem killGroup_keeps (h : Unmoved pi) (hst : ∀ s x xs, pi { s with st := x, streams := xs } = pi s) (hgr : ∀ s x, pi { s with gr := x } = pi s)
    (ha : ∀ s a n e, pi { s with atomics := a, nextId := n, events := e } = pi s) (s : State) : pi s.killGroup = pi s := by
  have hcut : pi s.groupCut = pi s := by
    refine (hgr _ _).trans ((hst _ _ _).trans ?_)
    exact (foldl_flushHeld_keeps (fun u f _ => hst u _ _) ha _ _).trans (h.un s _)
  rw [killGroup_eq]
  split
  · exact (checkSyscall_keeps h _).trans hcut
  · exact (ha _ s.groupCut.checkSyscall.atomics s.groupCut.checkSyscall.nextId _).trans ((checkSyscall_keeps h _).trans hcut)
end

theorem groupCut_gr (s : State) : s.groupCut.gr = { s.gr with alive := 0 } :=
  congrArg (fun g : Group => { g with alive := 0 }) (foldl_flushHeld_keeps (pi := State.gr) (fun _ _ _ => rfl) (fun _ _ _ _ => rfl) _ _)

theorem killGroup_gr (s : State) : s.killGroup.gr = { s.gr with alive := 0 } := by
  rw [killGroup_eq]
  split
  · exact (checkSyscall_keeps unmoved_gr _).trans (groupCut_gr s)
  · exact (checkSyscall_keeps unmoved_gr _).trans (groupCut_gr s)

theorem modify_pred_zeros (n i : Nat) : (List.replicate n 0).modify i (· - 1) = List.replicate n 0 := by
  refine List.ext_getElem? (fun j => ?_)
  rw [List.getElem?_modify, List.getElem?_replicate]
  split <;> split <;> rfl

theorem clearSysFlags_none {s : State} (h : s.st = Stream.none) (uid : Nat) : (s.clearSysFlags uid).st = Stream.none := by
  unfold State.clearSysFlags
  generalize s.sysWaiters uid = ws
  induction ws generalizing s with
  | nil => exact h
  | cons w r ih =>
    refine ih ?_
    dsimp only
    split
    · show (if s.st.sid = w.2.2.sid then { s.st with flags := s.st.flags.modify (hdrSetB w.2.2.hdr) (· - 1) } else s.st) = Stream.none
      split
      · have hflags : Stream.none.flags.modify (hdrSetB w.2.2.hdr) (· - 1) = Stream.none.flags := modify_pred_zeros 12 _
        rw [h, hflags]
      · exact h
    · exact h

/-- A SYSCALL that is sent changes nothing of a stream that is gone. -/
theorem checkSyscall_none {s : State} (h : s.st = Stream.none) : s.checkSyscall.st = Stream.none := by
  unfold State.checkSyscall
  split
  · exact h
  · split
    · exact h
    · split
      · exact h
      · exact clearSysFlags_none h _

theorem killGroup_st (s : State) : s.killGroup.st = Stream.none := by
  rw [killGroup_eq]
  split
  · exact checkSyscall_none rfl
  · exact checkSyscall_none (s := s.groupCut) rfl

theorem killGroup_streams (s : State) : ∀ x ∈ s.killGroup.streams, x.gid ≠ s.gr.gid := by
  have hcut : ∀ x ∈ s.groupCut.streams, x.gid ≠ s.gr.gid := by
    intro x hx
    have hgr : ∀ l : List Nat, (l.foldl State.flushHeld (s.unarrive ((s.allStreams.filter (fun x =>
        x.gid == s.gr.gid && decide (x.status = .waitSyscall))).foldl (fun n x => n + x.exm.size) 0))).gr = s.gr :=
      fun l => foldl_flushHeld_keeps (pi := State.gr) (fun _ _ _ => rfl) (fun _ _ _ _ => rfl) _ l
    have hmem := (List.mem_filter.1 hx).2
    rw [hgr] at hmem
    simpa using hmem
  have hgids : s.groupCut.checkSyscall.streams.map (fun x => x.resting.gid) = s.groupCut.streams.map (fun x => x.resting.gid) := by
    have h := congrArg (List.map Stream.gid) (checkSyscall_keeps unmoved_streams s.groupCut)
    rw [List.map_map, List.map_map] at h
    exact h
  have hsent : ∀ x ∈ s.groupCut.checkSyscall.streams, x.gid ≠ s.gr.gid := by
    intro x hx
    have hin : x.gid ∈ s.groupCut.checkSyscall.streams.map (fun x => x.resting.gid) := List.mem_map_of_mem (f := fun x : Stream => x.resting.gid) hx
    rw [hgids] at hin
    obtain ⟨y, hy, hyx⟩ := List.mem_map.1 hin
    exact hyx ▸ hcut y hy
  rw [killGroup_eq]
  split
  · exact hsent
  · exact hsent

theorem groupEnd_mem_killGroup {s : State} (h : s.gr.alive ≠ 0) : .groupEnd s.gr.gid ∈ s.killGroup.events := by
  rw [killGroup_eq, if_neg h]
  exact List.mem_append_right _ (List.mem_singleton.2 rfl)

theorem killGroup_mem (s : State) : s.killGroup.sameMem s :=
  ⟨killGroup_keeps unmoved_mem (fun _ _ _ => rfl) (fun _ _ => rfl) (fun _ _ _ _ => rfl) s,
    killGroup_keeps unmoved_host (fun _ _ _ => rfl) (fun _ _ => rfl) (fun _ _ _ _ => rfl) s⟩

theorem status_launchStatus (s : State) (key status : Nat) (d : BitVec 8) : ∀ x ∈ (s.launchStatus key status d).launches, x.key = key → status ≤ x.status := by
  intro x hx hk
  obtain ⟨y, -, rfl⟩ := List.mem_map.1 hx
  by_cases h : y.key = key
  · rw [if_pos h]
    exact Nat.le_max_right _ _
  · rw [if_neg h] at hk
    exact absurd hk h

/-- TEND (R307): every lane of the group ends, whatever its streams do. -/
theorem tend_ends {s : State} {g : BitVec 4} (hp : s.st.privileged = true) (hu : s.uniGuard g = true) (hq : s.quiet) (hl : s.landed = true)
    (hk : s.st.kind = .home) :
    ∃ u, exec (.tend g) s = .next u ∧ u.sameMem s ∧ u.st = Stream.none ∧ u.gr.alive = 0 ∧ (∀ x ∈ u.streams, x.gid ≠ s.gr.gid) ∧
      (s.gr.alive ≠ 0 → .groupEnd s.gr.gid ∈ u.events) ∧ (∀ x ∈ u.launches, x.key = s.un.launch → 1 ≤ x.status) := by
  have hexec : exec (.tend g) s = s.run (.moved ((s.launchStatus s.un.launch 1 0).killGroup)) := by
    change s.run (s.privileged s.st.privileged (if !s.uniGuard g then _ else s.released (fun s1 => match s1.st.kind with
      | .pair => .moved (s1.stopPair s1.gr.die).dropBareGroup
      | _ => .moved ((s1.launchStatus s1.un.launch 1 0).killGroup)))) = _
    rw [privileged_allowed _ hp, if_neg (by simp [hu]), released_quiet _ _ hq]
    simp only [hk]
  rw [run_dropped hl (killGroup_st _)] at hexec
  refine ⟨_, hexec, killGroup_mem (s.launchStatus s.un.launch 1 0), killGroup_st _, congrArg Group.alive (killGroup_gr (s.launchStatus s.un.launch 1 0)),
    killGroup_streams (s.launchStatus s.un.launch 1 0), fun ha => groupEnd_mem_killGroup (s := s.launchStatus s.un.launch 1 0) ha, ?_⟩
  have hlaunches := killGroup_keeps unmoved_launches (fun _ _ _ => rfl) (fun _ _ => rfl) (fun _ _ _ _ => rfl) (s.launchStatus s.un.launch 1 0)
  intro x hx
  exact status_launchStatus s s.un.launch 1 0 x (hlaunches ▸ hx)

/-- Group gid has no lanes left in the issuing group's record, and its end is due. -/
def State.groupOver (s : State) (gid : Nat) : Prop := s.gr.alive = 0 ∧ .groupEnd gid ∈ s.events

/-- What keeps the group and only adds to what is due keeps a group over. -/
theorem groupOver_of {s u : State} {gid : Nat} (h : s.groupOver gid) (hg : u.gr.alive = s.gr.alive) (he : ∀ i ∈ s.events, i ∈ u.events) : u.groupOver gid :=
  ⟨hg.trans h.1, he _ h.2⟩

theorem groupOver_endLanes {s : State} {gid : Nat} (e : Mask) (h : s.groupOver gid) : (s.endLanes e).groupOver gid := by
  refine ⟨?_, mem_endLanes_events h.2⟩
  rw [endLanes_gr]
  show s.gr.alive.minus e = 0
  rw [h.1]
  exact BitVec.zero_and

theorem queueWalk_events (s : State) (core ctx va : Nat) (need : BitVec 3) (ats : Bool) :
    (s.queueWalk core ctx va need ats).events = s.events ∧ (s.queueWalk core ctx va need ats).gr = s.gr := by
  unfold State.queueWalk
  dsimp only
  split
  · exact ⟨rfl, rfl⟩
  · split <;> exact ⟨rfl, rfl⟩

theorem askWalk_events (s : State) (g : Group) (f : LaneFault) : (s.askWalk g f).events = s.events ∧ (s.askWalk g f).gr = s.gr := by
  unfold State.askWalk
  split
  · generalize (if f.write then needW else needR) = need
    obtain ⟨he, hg⟩ := queueWalk_events s g.coreId g.ctx f.va need f.host
    dsimp only
    split
    · exact ⟨rfl, rfl⟩
    · exact ⟨he, hg⟩
  · split <;> exact ⟨rfl, rfl⟩

theorem reportFault_events (s : State) (f : LaneFault) : (s.reportFault f).events = s.events ∧ (s.reportFault f).gr = s.gr := by
  unfold State.reportFault
  split
  · exact ⟨rfl, rfl⟩
  · unfold State.tellFault
    split
    · exact ⟨rfl, rfl⟩
    · split
      · split
        · exact ⟨rfl, rfl⟩
        · unfold State.askHost
          dsimp only
          split
          · exact ⟨rfl, rfl⟩
          · split <;> exact ⟨rfl, rfl⟩
      · exact ⟨rfl, rfl⟩

/-- A path that parks on one fault keeps its group over. -/
theorem groupOver_parkOn {s : State} {gid : Nat} (f : LaneFault) (h : s.groupOver gid) : (s.parkOn [f]).groupOver gid := by
  unfold State.parkOn
  split
  · next hmiss =>
    have hf : [f].filter (·.miss) = [f] := by
      rw [List.any_cons, List.any_nil, Bool.or_false] at hmiss
      simp [hmiss]
    rw [hf]
    obtain ⟨he, hg⟩ := askWalk_events s s.gr f
    exact groupOver_of h (congrArg Group.alive hg) (fun i hi => he ▸ hi)
  · obtain ⟨he, hg⟩ := reportFault_events (s.modSt (fun x => { x.forget with status := .parked, faults := [f] })) f
    dsimp only [List.foldl]
    split
    · exact groupOver_of h (congrArg Group.alive hg) (fun i hi => List.mem_append_left _ (he ▸ hi))
    · exact groupOver_of h (congrArg Group.alive hg) (fun i hi => he ▸ hi)

theorem mem_flushHeld_events {s : State} {i : Instr} (sid : Nat) (h : i ∈ s.events) : i ∈ (s.flushHeld sid).events := by
  unfold State.flushHeld
  split
  · exact h
  · split
    · exact h
    · exact List.mem_append_left _ h

theorem mem_foldl_flushHeld_events {i : Instr} (l : List Nat) {s : State} (h : i ∈ s.events) : i ∈ (l.foldl State.flushHeld s).events := by
  induction l generalizing s with
  | nil => exact h
  | cons a r ih => exact ih (mem_flushHeld_events a h)

theorem groupOver_killGroup {s : State} {gid : Nat} (h : s.groupOver gid) : s.killGroup.groupOver gid := by
  refine ⟨congrArg Group.alive (killGroup_gr s), ?_⟩
  have hcut : .groupEnd gid ∈ s.groupCut.events := mem_foldl_flushHeld_events _ h.2
  rw [killGroup_eq, if_pos h.1, checkSyscall_keeps unmoved_events]
  exact hcut

/-- DOUBLE of a group whose lanes have ended adds nothing to its end (R308). -/
theorem groupOver_doubleIn {s : State} {gid : Nat} (n : Nat) (pc : CodeVa) (hk : s.st.kind = .home) (h : s.groupOver gid) : (s.doubleIn n pc).groupOver gid := by
  have hd : s.doubleIn n pc = ((s.say (if s.confidential s.gr.ctx then .doubleRecord s.gr.ctx s.st.trap.cause.toNat 0 n 0
      else .doubleRecord s.gr.ctx s.st.trap.cause.toNat s.st.trap.at_ n pc)).launchStatus s.un.launch 3 (BitVec.ofNat 8 s.st.trap.cause.toNat)).killGroup := by
    rw [State.doubleIn, State.double]
    simp only [hk]
  rw [hd]
  exact groupOver_killGroup h

theorem groupOver_pathFloor {s : State} {gid : Nat} (hk : s.st.kind = .home) (h : s.groupOver gid) : s.pathFloor.groupOver gid := by
  have hf : (s.flushHeld s.st.sid).groupOver gid := groupOver_of h (congrArg Group.alive (flushHeld_gr s _)) (fun i hi => mem_flushHeld_events _ hi)
  rw [State.pathFloor]
  simp only [hk]
  exact groupOver_endLanes s.st.base hf

/-- The end of a handler's path in a group whose lanes have all ended (R307). -/
theorem groupOver_pathEnd {s : State} {gid : Nat} (hk : s.st.kind = .home) (hp : s.st.privileged = true) (hs : s.st.stack = []) (hb : s.st.below = [])
    (hbase : s.st.base = 0) (h : s.groupOver gid) : s.pathEnd.groupOver gid := by
  generalize hv : s.modSt (fun x => { x with exm := 0, pos := 0, ext := none }) = v
  have hd : v.st.pathd = 0 := by simp [← hv, Stream.pathd, hs, hb]
  have vover : v.groupOver gid := by
    rw [← hv]
    exact h
  have hw := groupOver_endLanes v.st.membership vover
  have hst := endLanes_st v v.st.membership
  generalize hwv : v.endLanes v.st.membership = w at hw hst
  have wk : w.st.kind = .home := (resting_field Stream.kind (fun _ => rfl) hst).trans (hv ▸ hk)
  have ws : w.st.stack = [] := (resting_field Stream.stack (fun _ => rfl) hst).trans (by simp [State.lanesCut, ← hv, hs])
  have wb : w.st.below = [] := (resting_field Stream.below (fun _ => rfl) hst).trans (by simp [State.lanesCut, ← hv, hb])
  have wbase : w.st.base = 0 := (resting_field Stream.base (fun _ => rfl) hst).trans (by
    show v.st.base.minus v.st.membership = 0
    rw [← hv]
    show s.st.base.minus _ = 0
    rw [hbase]
    exact BitVec.zero_and)
  have hnone : ¬ (w.st.trap.mask &&& w.st.base ≠ 0) := by
    rw [wbase]
    exact not_not.2 BitVec.and_zero
  rw [State.pathEnd, hv, State.pathEndFor, if_pos (le_trans (le_of_eq hd) (Nat.zero_le _)), if_pos (hv ▸ hp), hwv]
  dsimp only
  rw [if_neg hnone]
  split
  · split
    · exact groupOver_doubleIn _ _ wk hw
    · exact groupOver_parkOn _ hw
  · next u hleave =>
    obtain ⟨s0, wds, hget, -, -, hev, hgr, -, hkind, hubase, hbelow, -, hpriv, -, -, -, hexm, -, -, hstack, -⟩ := leaveHandler_ok hleave
    have kst : s0.st = w.st := getBlock_keeps State.st (fun _ _ _ _ => rfl) _ hget
    have kgr : s0.gr = w.gr := getBlock_keeps State.gr (fun _ _ _ _ => rfl) _ hget
    have kev : s0.events = w.events := getBlock_keeps State.events (fun _ _ _ _ => rfl) _ hget
    have uover : u.groupOver gid := ⟨(congrArg Group.alive hgr).trans ((congrArg Group.alive kgr :).trans hw.1), by
      rw [hev, kev]
      exact hw.2⟩
    have uexm : ¬ (u.st.exm ≠ 0) := by
      rw [hexm, kst, wbase]
      exact not_not.2 BitVec.and_zero
    have ud : u.st.pathd = 0 := by
      rw [Stream.pathd, hstack, hbelow, kst, ws, wb]
      rfl
    rw [if_neg uexm]
    rw [State.pathEndFor, if_pos (le_trans (le_of_eq ud) (Nat.zero_le _)), if_neg (by simp [hpriv])]
    exact groupOver_pathFloor (hkind.trans (by rw [kst]; exact wk)) uover

/-- TKILL of a path that holds every lane of the group ends the group (R307). -/
theorem tkill_ends {s : State} {g : BitVec 4} (hp : s.st.privileged = true) (hu : s.uniGuard g = true) (hq : s.quiet) (hl : s.landed = true)
    (hk : s.st.kind = .home) (hx : s.st.exm = s.gr.alive) (hbase : s.st.base = s.gr.alive) (hs : s.st.stack = []) (hb : s.st.below = [])
    (ha : s.gr.alive ≠ 0) : ∃ u, exec (.tkill g) s = .next u ∧ u.gr.alive = 0 ∧ .groupEnd s.gr.gid ∈ u.events := by
  have hexec : exec (.tkill g) s = s.run (.moved (s.endLanes s.st.exm).pathEnd) := by
    change s.run (s.privileged s.st.privileged (if !s.uniGuard g then _ else s.released (fun s1 => match s1.st.kind with
      | .pair => .moved (s1.stopPair s1.gr.die).dropBareGroup
      | _ => .moved ((s1.endLanes s1.st.exm).pathEnd)))) = _
    rw [privileged_allowed _ hp, if_neg (by simp [hu]), released_quiet _ _ hq]
    simp only [hk]
  have hz : s.gr.alive.minus s.st.exm = 0 := by rw [hx, Mask.minus_self]
  have hover : (s.endLanes s.st.exm).groupOver s.gr.gid := ⟨(congrArg Group.alive (endLanes_gr s s.st.exm)).trans hz, groupEnd_mem_endLanes ha hz⟩
  have hst := endLanes_st s s.st.exm
  have hend := groupOver_pathEnd ((resting_field Stream.kind (fun _ => rfl) hst).trans hk) ((resting_field Stream.privileged (fun _ => rfl) hst).trans hp)
    ((resting_field Stream.stack (fun _ => rfl) hst).trans (by simp [State.lanesCut, hs]))
    ((resting_field Stream.below (fun _ => rfl) hst).trans (by simp [State.lanesCut, hb]))
    ((resting_field Stream.base (fun _ => rfl) hst).trans (by
      show s.st.base.minus s.st.exm = 0
      rw [hbase, hx, Mask.minus_self])) hover
  generalize (s.endLanes s.st.exm).pathEnd = v at hexec hend
  refine ⟨v.settle s, hexec.trans ?_, hend.1, hend.2⟩
  rw [State.run, if_pos hl]
  rfl

/-- Settles O43: TEND kills the group; TKILL ends its lanes, and what the path's end meets after that keeps the group over. -/
theorem handlerEnds : Obligations.HandlerEnds := fun _ _ hp hu hq hl hk _ _ =>
  ⟨tend_ends hp hu hq hl hk, fun hx hbase _ hs hb _ ha => tkill_ends hp hu hq hl hk hx hbase hs hb ha⟩

/-! ## Handler entry -/

/-- A group without the contents of its frame store and of its tiles. -/
def Lane.bare (x : Lane) : Lane := { x with col := [] }
def Group.still (g : Group) : Group := { g with lanes := g.lanes.map Lane.bare, tiles := [] }

theorem map_bare_mapIdx {f : Nat → Lane → Lane} (h : ∀ i x, (f i x).bare = x.bare) (l : List Lane) : (l.mapIdx f).map Lane.bare = l.map Lane.bare := by
  refine List.ext_getElem (by simp) (fun i _ _ => ?_)
  simp [h]

theorem putChip_still (s : State) (a : Nat) (c : ChipLoc) (v : Byte) : (s.putChip a c v).gr.still = s.gr.still := by
  have hmod : ∀ (gid : Nat) (f : Group → Group), (∀ g, (f g).still = g.still) → (s.modGroup gid f).gr.still = s.gr.still := by
    intro gid f hf
    show (if s.gr.gid = gid then f s.gr else s.gr).still = s.gr.still
    split
    · exact hf _
    · rfl
  cases c with
  | scratch d k off =>
    unfold State.putChip
    dsimp only
    split
    · rfl
    · split <;> rfl
  | frame d k p lane pos b =>
    unfold State.putChip
    dsimp only
    split
    · next h li _ =>
      refine hmod _ _ (fun g => ?_)
      have hlanes := map_bare_mapIdx (f := fun i y => if i = li then y.putPos (pos - h.fsBase) (setByte (y.atPos (pos - h.fsBase)) b v) else y)
        (fun i y => by split <;> rfl) g.lanes
      exact congrArg (fun ls => ({ g with lanes := ls, tiles := [] } : Group)) hlanes
    · rfl
  | acc d k p t r c b =>
    unfold State.putChip
    dsimp only
    split
    · exact hmod _ _ (fun g => rfl)
    · rfl

theorem putByte_still (s : State) (l : Loc) (v : Byte) : (s.putByte l v).gr.still = s.gr.still := by
  cases l with
  | host a => simp only [State.putByte]
  | enc key a => simp only [State.putByte]
  | dev a =>
    unfold State.putByte
    dsimp only
    split
    · rfl
    · split
      · exact putChip_still s a _ v
      · rfl

theorem putN_still (s : State) (l : Loc) (v n : Nat) : (s.putN l v n).gr.still = s.gr.still := by
  induction n with
  | zero => rfl
  | succ k ih => exact (putByte_still _ _ _).trans ih

theorem putN_keeps_st (s : State) (l : Loc) (v n : Nat) : (s.putN l v n).st = s.st := by
  induction n with
  | zero => rfl
  | succ k ih => exact (putByte_keeps State.st (fun _ _ _ _ _ _ _ _ => rfl) _ _ _).trans ih

theorem areaPut_still {s u : State} {who lane va v n : Nat} {g : Group} (hu : s.areaPut who g lane va v n = .ok u) :
    u.st = s.st ∧ u.gr.still = s.gr.still := by
  unfold State.areaPut at hu
  split at hu
  · cases ha : s.areaAnswer g lane va true v n with
    | error f => simp [ha, Except.map] at hu
    | ok w =>
      simp only [ha, Except.map, Except.ok.injEq] at hu
      rw [← hu]
      exact ⟨rfl, rfl⟩
  · split at hu
    · exact absurd hu (by simp)
    · simp only [Except.ok.injEq] at hu
      rw [← hu, putN_keeps_st, putN_still]
      exact ⟨areaWalk_keeps State.st (fun _ _ _ _ => rfl) s g va, congrArg Group.still (areaWalk_keeps State.gr (fun _ _ _ _ => rfl) s g va)⟩

/-- The words banked change the contents of memory alone. -/
theorem putBlock_still (ws : List (Nat × Word)) : ∀ {s u : State}, s.putBlock ws = .ok u → u.st = s.st ∧ u.gr.still = s.gr.still := by
  induction ws with
  | nil =>
    intro s u hu
    simp only [State.putBlock, Except.ok.injEq] at hu
    rw [hu]
    exact ⟨rfl, rfl⟩
  | cons w r ih =>
    intro s u hu
    simp only [State.putBlock] at hu
    split at hu
    · exact absurd hu (by simp)
    · next t hput =>
      obtain ⟨hst, hgr⟩ := ih hu
      obtain ⟨hst', hgr'⟩ := areaPut_still hput
      exact ⟨hst.trans hst', hgr.trans hgr'⟩

theorem lane_still {s u : State} (h : u.gr.still = s.gr.still) (l : Nat) : (u.lane l).bare = (s.lane l).bare := by
  have hl : u.gr.lanes.map Lane.bare = s.gr.lanes.map Lane.bare := congrArg Group.lanes h
  have hd : ∀ ls : List Lane, (ls.map Lane.bare).getD l Lane.start.bare = (ls.getD l Lane.start).bare := by
    intro ls
    simp only [List.getD, List.getElem?_map]
    cases ls[l]? <;> rfl
  show (u.gr.lanes.getD l Lane.start).bare = (s.gr.lanes.getD l Lane.start).bare
  rw [← hd, ← hd, hl]

theorem length_still {s u : State} (h : u.gr.still = s.gr.still) : u.gr.lanes.length = s.gr.lanes.length := by
  have hl : u.gr.lanes.map Lane.bare = s.gr.lanes.map Lane.bare := congrArg Group.lanes h
  simpa using congrArg List.length hl

/-- The handler has started: the window of each lane of EXM has moved up, and the stream stands at its first clause (R301). -/
def State.handlerStarted (s : State) : State :=
  ((s.mapLanes s.st.exm (fun _ x => x.enterHandler s.gr.allot)).modSt (fun x => { x with status := .runnable, pos := 0, fresh := false, slot := none })).markRestart

theorem rangeSectors_nil : rangeSectors [] = [] := by decide

theorem serveAll_none (s : State) : s.serveAll [] = s := by
  have hm : ∀ (u : State) (w : Bool), u.touchMove s.st.sid s.gr w [] = u := fun u w => by
    rw [State.touchMove, rangeSectors_nil]
    rfl
  show (s.touchMove s.st.sid s.gr true []).touchMove s.st.sid s.gr false [] = s
  rw [hm, hm]

/-- An entry whose words are banked, whose windows fit and whose segment is present completes. -/
theorem completeEntry_ready {q b : State} (hput : q.putBlock q.st.bank = .ok b)
    (hfit : ∀ l ∈ b.st.exm.lanes, (b.lane l).fb + 18 + (b.lane l).locals + 58 - b.gr.allot ≤ (b.lane l).lowres) (hs : b.st.status ≠ .waitWalk)
    (hseg : b.segPresent b.st.pc = true) : q.completeEntry = (b.modSt (fun x => { x with faults := [], bank := [] })).handlerStarted := by
  have hds : (b.modSt (fun x => { x with faults := [], bank := [] })).entryDemands = [] := filterMap_none (fun l hl => if_pos (hfit l hl))
  have hrun : ¬ ((b.modSt (fun x => { x with faults := [], bank := [] })).st.status = .waitWalk) := hs
  have hseg' : (b.modSt (fun x => { x with faults := [], bank := [] })).segPresent (b.modSt (fun x => { x with faults := [], bank := [] })).st.pc = true := hseg
  have hfaults : ¬ ((b.modSt (fun x => { x with faults := [], bank := [] })).st.faults ≠ []) := not_not.2 rfl
  rw [State.completeEntry, hput]
  dsimp only
  rw [hds, if_neg (fun h => h.1 rfl), serveAll_none, if_neg hrun, if_neg hfaults, State.startHandler]
  dsimp only
  rw [if_pos hseg']
  rfl

/-- A field of the lanes that a change of them leaves. -/
theorem lane_mapLanes_field {s : State} {m : Mask} {g : Nat → Lane → Lane} {l : Nat} {γ : Type} (f : Lane → γ) (h : ∀ l x, f (g l x) = f x) :
    f ((s.mapLanes m g).lane l) = f (s.lane l) := by
  rcases lane_mapLanes_cases s m g l with e | ⟨-, e⟩ <;> rw [e]
  exact h _ _

theorem noteTrap_lane (s : State) (c : Cause) (t : Mask) (l : Nat) :
    ((s.noteTrap c t).lane l).fb = (s.lane l).fb ∧ ((s.noteTrap c t).lane l).locals = (s.lane l).locals ∧
      ((s.noteTrap c t).lane l).lowres = (s.lane l).lowres ∧
      (t.has l = true → l < s.gr.lanes.length → ((s.noteTrap c t).lane l).lanefault = BitVec.ofNat 32 c.code.toNat) := by
  have hrec : faultRecord 0 false false false c.code.toNat = BitVec.ofNat 32 c.code.toNat := by simp [faultRecord]
  refine ⟨?_, ?_, ?_, fun ht hl => ?_⟩
  · exact lane_mapLanes_field Lane.fb (fun _ _ => rfl)
  · exact lane_mapLanes_field Lane.locals (fun _ _ => rfl)
  · exact lane_mapLanes_field Lane.lowres (fun _ _ => rfl)
  · have h := lane_mapLanes s t (fun _ x => { x with lanefault := faultRecord 0 false false false c.code.toNat }) l hl
    rw [if_pos ht] at h
    exact (congrArg Lane.lanefault h).trans hrec

/-- A trap of a path that is not in a handler, whose frames have room, is taken and the entry goes on (R301). -/
theorem takeTrap_enters {s : State} {c : Cause} {t : Mask} {entry : CodeVa} (ht : t ≠ 0) (hc : c ≠ .segAbsent) (hk : s.st.kind = .home)
    (hp : s.st.privileged = false) (howed : s.owedBank = none) (hentry : s.trapEntry c s.trapWord = some entry)
    (hroom : ∀ l ∈ t.lanes, (s.lane l).fb + 18 + (s.lane l).locals + 57 < s.gr.faw) :
    s.takeTrap c t [] TrapInfo.plain = ((s.trapNoted c t []).trapTaken c t TrapInfo.plain entry).enterIf := by
  have hkind : (s.trapNoted c t []).st.kind = .home := hk
  have hpriv : ¬ ((s.trapNoted c t []).st.privileged = true) := by
    show ¬ (s.st.privileged = true)
    simp [hp]
  have hentry' : (s.trapNoted c t []).trapEntry c (TrapInfo.plain.instr.getD (s.trapNoted c t []).trapWord) = some entry := hentry
  have hfit : ¬ (t.lanes.any (fun l => decide ((s.trapNoted c t []).gr.faw ≤
      ((s.trapNoted c t []).lane l).fb + 18 + ((s.trapNoted c t []).lane l).locals + 57)) = true) := by
    rw [Bool.not_eq_true, List.any_eq_false]
    intro l hl
    obtain ⟨hfb, hloc, -⟩ := noteTrap_lane s c t l
    have hr : ((s.noteTrap c t).lane l).fb + 18 + ((s.noteTrap c t).lane l).locals + 57 < s.gr.faw := by
      rw [hfb, hloc]
      exact hroom l hl
    exact fun h => absurd hr (Nat.not_lt.2 (of_decide_eq_true h))
  unfold State.takeTrap
  rw [howed]
  dsimp only
  rw [if_neg ht, if_neg hc]
  simp only [hkind]
  rw [if_neg hpriv, State.enterHandler, hentry']
  dsimp only
  rw [if_neg hfit]

/-- What a trap taken leaves in the stream, with the trapped stream as it stood (R301, R304). -/
theorem trapTaken_st {s : State} {c : Cause} {t : Mask} {entry : CodeVa} (hc : s.st.cancelAt = none) :
    ((s.trapNoted c t []).trapTaken c t TrapInfo.plain entry).st.status = s.st.status := by
  show (if s.st.cancelAt.isSome then _ else s.st.status) = s.st.status
  rw [hc]
  rfl

theorem getD_regs (f : Nat → Word) (i : Nat) (d : Word) (h : i < 60) : ((List.range 60).map f).getD i d = f i := by
  simp [List.getD, h]

/-- Settles O41: the trap is noted and taken, the words are banked, and with room and code the handler starts. -/
theorem handlerEntry : Obligations.HandlerEntry := by
  intro s c t entry b v q ht hc hk hp hr hcancel howed hentry hroom hput hseg
  obtain ⟨hst, hgr⟩ := putBlock_still _ hput
  have hlane := lane_still hgr
  have hallot : b.gr.allot = s.gr.allot := (congrArg Group.allot hgr :)
  have hlen : b.gr.lanes.length = s.gr.lanes.length := by
    rw [length_still hgr]
    show (s.gr.lanes.mapIdx _).length = _
    rw [List.length_mapIdx]
  have hqs : q.st.status = .runnable := (trapTaken_st hcancel).trans hr
  have hbexm : b.st.exm = t := (congrArg Stream.exm hst :)
  have hbpc : b.st.pc = entry := (congrArg Stream.pc hst :)
  have hfields : ∀ l, (b.lane l).fb = (s.lane l).fb ∧ (b.lane l).locals = (s.lane l).locals ∧ (b.lane l).lowres = (s.lane l).lowres ∧
      (t.has l = true → l < s.gr.lanes.length → (b.lane l).lanefault = BitVec.ofNat 32 c.code.toNat) := by
    intro l
    obtain ⟨hfb, hloc, hlow, hfault⟩ := noteTrap_lane s c t l
    exact ⟨(congrArg Lane.fb (hlane l) :).trans hfb, (congrArg Lane.locals (hlane l) :).trans hloc, (congrArg Lane.lowres (hlane l) :).trans hlow,
      fun h1 h2 => (congrArg Lane.lanefault (hlane l) :).trans (hfault h1 h2)⟩
  have hfit : ∀ l ∈ b.st.exm.lanes, (b.lane l).fb + 18 + (b.lane l).locals + 58 - b.gr.allot ≤ (b.lane l).lowres := by
    intro l hl
    obtain ⟨hfb, hloc, hlow, -⟩ := hfields l
    rw [hfb, hloc, hlow, hallot]
    exact (hroom l (hbexm ▸ hl)).2
  have hv : v = (b.modSt (fun x => { x with faults := [], bank := [] })).handlerStarted := by
    have henter : v = q.enterIf := takeTrap_enters ht hc hk hp howed hentry (fun l hl => (hroom l hl).1)
    rw [henter, State.enterIf, if_neg (by rw [hqs]; decide), completeEntry_ready hput hfit (by rw [hst, hqs]; decide) (by rw [hbpc]; exact hseg)]
  rw [hv]
  refine ⟨?_, ?_, ?_, ?_, ?_, ?_, ?_, ?_, ?_, ?_, ?_, rfl, ?_, ?_, ?_, ?_, ?_, ?_, fun i hi => ?_, fun i hlo hhi => ?_, fun l hl hlt => ?_, fun l hl => ?_, rfl, rfl⟩
  · exact (congrArg (fun x : Stream => x.trap.cause) hst :)
  · exact (congrArg (fun x : Stream => x.trap.instr) hst :)
  · exact (congrArg (fun x : Stream => x.trap.pc) hst :)
  · exact (congrArg (fun x : Stream => x.trap.mask) hst :)
  · exact (congrArg (fun x : Stream => x.trap.hdr) hst :)
  · exact (congrArg (fun x : Stream => x.trap.depth) hst :)
  · exact (congrArg (fun x : Stream => x.trap.et) hst :)
  · exact (congrArg (fun x : Stream => x.trap.hpathd) hst :)
  · exact (congrArg (fun x : Stream => x.trap.tfmt) hst :)
  · exact (congrArg Stream.privileged hst :)
  · exact hbpc
  · exact hbexm
  · exact (congrArg Stream.dep hst :)
  · exact (congrArg Stream.ext hst :)
  · exact (congrArg Stream.q hst :)
  · exact (congrArg Stream.ix hst :)
  · exact (congrArg Stream.stack hst :)
  · exact (congrArg (fun x : Stream => x.sregs.getD i 0) hst :).trans ((getD_regs (fun i => if i < 48 then s.st.sregs.getD i 0 else 0) i 0 (by omega)).trans
      (if_pos hi))
  · exact (congrArg (fun x : Stream => x.sregs.getD i 1) hst :).trans ((getD_regs (fun i => if i < 48 then s.st.sregs.getD i 0 else 0) i 1 hhi).trans
      (if_neg (Nat.not_lt.2 hlo)))
  · have hin : t.has l = true := (Mask.mem_lanes t l).1 hl
    obtain ⟨hfb, hloc, hlow, hfault⟩ := hfields l
    have hentered : (b.modSt (fun x => { x with faults := [], bank := [] })).handlerStarted.lane l = (b.lane l).enterHandler b.gr.allot := by
      refine (lane_mapLanes (b.modSt (fun x => { x with faults := [], bank := [] })) b.st.exm (fun _ x => x.enterHandler b.gr.allot) l (hlen ▸ hlt)).trans ?_
      rw [hbexm, if_pos hin]
      rfl
    rw [hentered]
    refine ⟨?_, rfl, hloc, hfault hin hlt⟩
    show (b.lane l).fb + 18 + (b.lane l).locals = _
    rw [hfb, hloc]
  · rcases lane_mapLanes_cases (b.modSt (fun x => { x with faults := [], bank := [] })) b.st.exm (fun _ x => x.enterHandler b.gr.allot) l with h | ⟨h, -⟩
    · exact h
    · rw [hbexm, hl] at h
      exact absurd h Bool.false_ne_true

end Sys2Proof.Machine
end

section
/-!
Engine commands as they issue: O46.
-/
namespace Sys2Proof.Machine

/-! ## The shape of an engine command -/

section
variable {s : State} {g : BitVec 4} {legal : Bool} {check : Option Cause} {f : State}

theorem engine_ready (hl : legal = true) (hw : s.isWave = false) (hu : s.uniGuard g = true) (hc : check = none) : s.engine g legal check f = .next f := by
  unfold State.engine
  rw [if_neg (by simp [hl, hw]), if_neg (by simp [hu]), hc]

theorem engine_skip (hl : legal = true) (hw : s.isWave = false) (hu : s.uniGuard g = false) : s.engine g legal check f = .next s := by
  unfold State.engine
  rw [if_neg (by simp [hl, hw]), if_pos (by simp [hu])]

theorem engine_wave (hw : s.isWave = true) : s.engine g legal check f = .trap .illegal s.st.exm s := by
  unfold State.engine
  rw [if_pos (by simp [hw])]

theorem retires_engine {i : Instr} (he : exec i s = s.run (s.engine g legal check f)) (hl : legal = true) (hw : s.isWave = false) (hu : s.uniGuard g = false)
    (hgo : s.goesOn = true) : Retires i s s false :=
  retires_noop (he.trans (by rw [engine_skip hl hw hu])) hgo

theorem retires_engineN {i : Instr} (he : exec i s = s.runN (s.engine g legal check f)) (hl : legal = true) (hw : s.isWave = false) (hu : s.uniGuard g = false)
    (hgo : s.goesOn = true) : Retires i s s true :=
  retires_runN (he.trans (by rw [engine_skip hl hw hu])) (goesOn_landed s hgo) rfl hgo

theorem retires_engineIf {i : Instr} {b : Bool} (he : exec i s = if b then s.runN (s.engine g legal check f) else s.run (s.engine g legal check f))
    (hl : legal = true) (hw : s.isWave = false) (hu : s.uniGuard g = false) (hgo : s.goesOn = true) : Retires i s s b := by
  cases b
  · exact retires_engine he hl hw hu hgo
  · exact retires_engineN he hl hw hu hgo

theorem traps_engine {i : Instr} (he : exec i s = s.run (s.engine g legal check f)) (hw : s.isWave = true) : Traps i s .illegal s.st.exm :=
  traps_run (he.trans (by rw [engine_wave hw]))

theorem traps_engineN {i : Instr} (he : exec i s = s.runN (s.engine g legal check f)) (hw : s.isWave = true) : Traps i s .illegal s.st.exm :=
  traps_runN (he.trans (by rw [engine_wave hw]))

theorem traps_engineIf {i : Instr} {b : Bool} (he : exec i s = if b then s.runN (s.engine g legal check f) else s.run (s.engine g legal check f))
    (hw : s.isWave = true) : Traps i s .illegal s.st.exm := by
  cases b
  · exact traps_engine he hw
  · exact traps_engineN he hw
end

/-! ## A command issued -/

/-- A command's snapshot as it retires (R219, R228, R266). -/
def Cmd.issuedAs (c : Cmd) (s : State) (kind : CmdKind) (regs : List Word) (copy matrix : Bool) : Prop :=
  c.id = s.nextId ∧ c.kind = kind ∧ c.regs = regs ∧ c.seq = s.gr.cmdseq ∧ c.fmt = s.st.fmt ∧ c.exm = s.st.exm ∧ c.flag = s.setB ∧ c.state = .retired ∧
    c.cbatch = (if copy then some (s.gr.cbatch + 1) else none) ∧ c.mbatch = (if matrix then some (s.gr.mbatch + 1) else none)

/-- The scalar registers once the sequence number is in the one that dest names (R267). -/
def State.destRegs (s : State) (dest : Option (BitVec 6)) : List Word :=
  match dest with
  | some d => (s.setSreg d.toNat s.gr.cmdseq).st.sregs
  | none => s.st.sregs

/-- u is s with a command issued; its stream has not moved yet. -/
structure Issues (u s : State) (kind : CmdKind) (regs : List Word) (copy matrix : Bool) (dest : Option (BitVec 6)) : Prop where
  mem : u.sameMem s
  gr : u.gr = { s.gr with cmdseq := s.gr.cmdseq + 1 }
  place : u.st.sid = s.st.sid ∧ u.st.pc = s.st.pc ∧ u.st.pos = s.st.pos ∧ u.st.hdr = s.st.hdr ∧ u.st.exm = s.st.exm
  sregs : u.st.sregs = s.destRegs dest
  cmd : ∃ c, c ∈ u.cmds ∧ .commandAccept c.id ∈ u.events ∧ c.issuedAs s kind regs copy matrix

section
variable {u s t : State} {kind : CmdKind} {regs : List Word} {copy matrix : Bool} {dest : Option (BitVec 6)}

/-- A state that differs from s only where the issue of a command does not look. -/
def State.issuesLike (t s : State) : Prop := t.mem = s.mem ∧ t.host = s.host ∧ t.gr = s.gr ∧ t.st = s.st ∧ t.nextId = s.nextId

theorem issuesLike_refl (s : State) : s.issuesLike s := ⟨rfl, rfl, rfl, rfl, rfl⟩

theorem flagAdd_st (s : State) (f : Option Nat) : ∃ fl, (s.flagAdd f).st = { s.st with flags := fl } := by
  cases f with
  | none => exact ⟨_, rfl⟩
  | some i => exact ⟨_, rfl⟩

theorem flagAdd_keeps {β : Type} (pi : State → β) (h : ∀ s x, pi { s with st := x } = pi s) (s : State) (f : Option Nat) : pi (s.flagAdd f) = pi s := by
  cases f with
  | none => rfl
  | some i => exact h s _

theorem flushHeld_cmds (s : State) (sid : Nat) : (s.flushHeld sid).cmds = s.cmds := flushHeld_keeps (fun _ _ _ => rfl) (fun _ _ _ _ => rfl) s sid

/-- The issue of a command (R219, R228, R266). -/
theorem issueCmd_issues {f : Cmd → Cmd} (ht : t.issuesLike s) (hf : ∀ c : Cmd, c.issuedAs s kind regs copy matrix → (f c).issuedAs s kind regs copy matrix) :
    Issues (t.issueCmd kind regs copy matrix f) s kind regs copy matrix none := by
  obtain ⟨hmem, hhost, hgr, hst, hid⟩ := ht
  unfold State.issueCmd
  dsimp only
  generalize hc : f _ = c
  generalize hb : ({ t with cmds := t.cmds ++ [c], nextId := t.nextId + 1 } : State).modGr (fun g => { g with cmdseq := g.cmdseq + 1 }) = b
  have hissued : c.issuedAs s kind regs copy matrix := by
    rw [← hc]
    refine hf _ ⟨hid, rfl, rfl, ?_, ?_, ?_, ?_, rfl, ?_, ?_⟩
    · exact congrArg Group.cmdseq hgr
    · exact congrArg Stream.fmt hst
    · exact congrArg Stream.exm hst
    · show t.setB = s.setB
      rw [State.setB, State.setB, hst]
    · rw [hgr]
    · rw [hgr]
  have hmemb : b.sameMem s := by
    rw [← hb]
    exact ⟨hmem, hhost⟩
  have hgrb : b.gr = { s.gr with cmdseq := s.gr.cmdseq + 1 } := by
    rw [← hb, ← hgr]
    rfl
  have hstb : b.st = s.st := by
    rw [← hb]
    exact hst
  obtain ⟨fl, hfl⟩ := flagAdd_st b t.setB
  have hfst : ((b.flagAdd t.setB).post (.commandAccept t.nextId)).st = { s.st with flags := fl } := by
    rw [← hstb]
    exact hfl
  have hflushed := flushHeld_st ((b.flagAdd t.setB).post (.commandAccept t.nextId)) t.st.sid
  rw [hfst] at hflushed
  have hcmds : (((b.flagAdd t.setB).post (.commandAccept t.nextId)).flushHeld t.st.sid).cmds = t.cmds ++ [c] := by
    rw [flushHeld_cmds]
    refine (flagAdd_keeps State.cmds (fun _ _ => rfl) b t.setB).trans ?_
    rw [← hb]
    rfl
  refine ⟨?_, ?_, (flushed_place hflushed :), (flushed_field Stream.sregs (fun _ => rfl) hflushed :), c, ?_, ?_, hissued⟩
  · refine sameMem_trans _ _ _ (flushHeld_mem _ _) (sameMem_trans _ b _ ⟨?_, ?_⟩ hmemb)
    · exact flagAdd_keeps State.mem (fun _ _ => rfl) b t.setB
    · exact flagAdd_keeps State.host (fun _ _ => rfl) b t.setB
  · rw [flushHeld_gr]
    exact (flagAdd_keeps State.gr (fun _ _ => rfl) b t.setB).trans hgrb
  · rw [hcmds]
    exact List.mem_append_right _ (List.mem_singleton.2 rfl)
  · refine mem_flushHeld_events _ ?_
    rw [hissued.1, ← hid]
    exact List.mem_append_right _ (List.mem_singleton.2 rfl)

/-- The sequence number goes to the register that the instruction names. -/
theorem Issues.putSeq (h : Issues u s kind regs copy matrix none) (d : BitVec 6) : Issues (u.putSeq d s) s kind regs copy matrix (some d) := by
  obtain ⟨hmem, hgr, hplace, hsregs, hcmd⟩ := h
  have hs : u.st.sregs = s.st.sregs := hsregs
  unfold State.putSeq
  have hset : (u.setSreg d.toNat s.gr.cmdseq).st.sregs = (s.setSreg d.toNat s.gr.cmdseq).st.sregs := by
    unfold State.setSreg
    split
    · show u.st.sregs.set _ _ = s.st.sregs.set _ _
      rw [hs]
    · exact hs
  have hkeep : u.setSreg d.toNat s.gr.cmdseq = u ∨ ∃ r, u.setSreg d.toNat s.gr.cmdseq = u.modSt (fun x => { x with sregs := r }) := by
    unfold State.setSreg
    split
    · exact .inr ⟨_, rfl⟩
    · exact .inl rfl
  refine ⟨?_, ?_, ?_, hset, ?_⟩ <;> rcases hkeep with e | ⟨r, e⟩ <;> rw [e]
  all_goals assumption

/-- The instruction that has issued a command retires. -/
theorem Issues.commands {i : Instr} {n : Bool} (h : Issues u s kind regs copy matrix dest) (hgo : s.goesOn = true)
    (he : exec i s = .next (s.finish n (.next u))) : Commands i s kind regs copy matrix dest := by
  obtain ⟨hmem, hgr, ⟨hsid, hpc, hpos, hhdr, hexm⟩, hsregs, c, hc, hev, hid, hk, hr, hseq, hfmt, hx, hflag, hstate, hcb, hmb⟩ := h
  rw [finish_next_place n hgo (by rw [hexm]; exact goesOn_exm hgo) hsid hpc hpos hhdr] at he
  have hkeep : (u.retired s n).mem = u.mem ∧ (u.retired s n).host = u.host ∧ (u.retired s n).gr = u.gr ∧ (u.retired s n).cmds = u.cmds ∧
      (u.retired s n).events = u.events ∧ (u.retired s n).st.pc = u.st.pc + 4 ∧ (u.retired s n).st.sregs = u.st.sregs := by
    cases n <;> exact ⟨rfl, rfl, rfl, rfl, rfl, rfl, rfl⟩
  obtain ⟨kmem, khost, kgr, kcmds, kev, kpc, ksregs⟩ := hkeep
  refine ⟨_, c, he, ⟨kmem.trans hmem.1, khost.trans hmem.2⟩, ?_, ?_, ?_, ?_, ?_, ?_, ?_, kcmds ▸ hc, kev ▸ hev, hid, hk, hr, hseq, hfmt, hx, hflag, hstate, hcb, hmb⟩
  · exact (congrArg Group.lanes (kgr.trans hgr) :)
  · exact (congrArg Group.tiles (kgr.trans hgr) :)
  · exact (congrArg Group.cmdseq (kgr.trans hgr) :)
  · exact (congrArg Group.cbatch (kgr.trans hgr) :)
  · exact (congrArg Group.mbatch (kgr.trans hgr) :)
  · rw [kpc, hpc]
  · exact ksregs.trans hsregs

theorem commands_run {i : Instr} (hgo : s.goesOn = true) (he : exec i s = s.run (.next u)) (h : Issues u s kind regs copy matrix dest) :
    Commands i s kind regs copy matrix dest := h.commands hgo (n := false) (he.trans (by rw [State.run, if_pos (goesOn_landed s hgo)]))

theorem commands_runN {i : Instr} (hgo : s.goesOn = true) (he : exec i s = s.runN (.next u)) (h : Issues u s kind regs copy matrix dest) :
    Commands i s kind regs copy matrix dest := h.commands hgo (n := true) (he.trans (by rw [State.runN, if_pos (goesOn_landed s hgo)]))

variable {i : Instr} {g : BitVec 4} {legal : Bool} {check : Option Cause}

theorem commands_engine (he : exec i s = s.run (s.engine g legal check u)) (hgo : s.goesOn = true) (hl : legal = true) (hw : s.isWave = false)
    (hu : s.uniGuard g = true) (hc : check = none) (h : Issues u s kind regs copy matrix dest) : Commands i s kind regs copy matrix dest :=
  commands_run hgo (he.trans (by rw [engine_ready hl hw hu hc])) h

theorem commands_engineN (he : exec i s = s.runN (s.engine g legal check u)) (hgo : s.goesOn = true) (hl : legal = true) (hw : s.isWave = false)
    (hu : s.uniGuard g = true) (hc : check = none) (h : Issues u s kind regs copy matrix dest) : Commands i s kind regs copy matrix dest :=
  commands_runN hgo (he.trans (by rw [engine_ready hl hw hu hc])) h

/-- An MMA with ACC is one that R310 names. -/
theorem commands_engineIf {b : Bool} (he : exec i s = if b then s.runN (s.engine g legal check u) else s.run (s.engine g legal check u))
    (hgo : s.goesOn = true) (hl : legal = true) (hw : s.isWave = false) (hu : s.uniGuard g = true) (hc : check = none)
    (h : Issues u s kind regs copy matrix dest) : Commands i s kind regs copy matrix dest := by
  cases b
  · exact commands_engine he hgo hl hw hu hc h
  · exact commands_engineN he hgo hl hw hu hc h
end

theorem enterJoint_like (s : State) (w : List Word) (id : Nat) : (s.enterJoint w id).issuesLike s := by
  unfold State.enterJoint
  split
  · exact issuesLike_refl s
  · split
    · exact ⟨rfl, rfl, rfl, rfl, rfl⟩
    · exact issuesLike_refl s

/-- The matrix part of a CP.MMA stands behind its copy. -/
theorem Issues.behind {u s : State} {kind : CmdKind} {regs : List Word} {copy matrix : Bool} {dest : Option (BitVec 6)}
    (h : Issues u s kind regs copy matrix dest) (m : Cmd) (n : Nat) :
    Issues ({ u with cmds := u.cmds ++ [m], nextId := n } : State) s kind regs copy matrix dest := by
  obtain ⟨hmem, hgr, hplace, hsregs, c, hc, hrest⟩ := h
  exact ⟨hmem, hgr, hplace, hsregs, c, List.mem_append_left _ hc, hrest⟩

/-! ## The commands, one by one -/

/-- What an MMA adds to its snapshot: its place in a joint command, and whether the class of its tiles is open (R234, R278). -/
def State.mmaFields (s : State) (w : List Word) (c : Cmd) : Cmd :=
  { c with
    joint := if ((w.getD 0 0).getLsbD 22 && (s.jointOf w).isNone) = true then [c.id] else []
    late := s.classOpen (match s.jointOf w with
      | some c => s.groupOf c.gid
      | none => s.gr) (mmaDesc w).tile (mmaDesc w).tiles }

/-- The checks of an MMV at issue (R277). -/
def State.mmvCheck (s : State) (w : List Word) : Option Cause :=
  if fmtA s.st.fmt ≠ 3 ∨ !(fmtB s.st.fmt = 0 || fmtB s.st.fmt = 1 || fmtB s.st.fmt = 3) then some .mkind
  else if (mmvDesc w).aoff % 4 ≠ 0 ∨ (mmvDesc w).astr % 4 ≠ 0 ∨ (mmvDesc w).yoff % 4 ≠ 0 ∨ (mmvDesc w).ystr % 4 ≠ 0 ∨ (mmvDesc w).b % 4 ≠ 0 then some .misalign
  else if !s.un.holds s.gr.coreIndex (mmvDesc w).aoff (mmvDesc w).v (mmvDesc w).astr (2 * (mmvDesc w).k) ||
    !s.un.holds s.gr.coreIndex (mmvDesc w).yoff (mmvDesc w).v (mmvDesc w).ystr (4 * (mmvDesc w).n) then some .prot
  else if 2 ^ 57 ≤ (mmvDesc w).b then some .prot
  else none

/-- The rows of an MMV's result in the scratchpad (R241). -/
def State.mmvRows (s : State) (w : List Word) : List (Nat × Nat) :=
  (List.range (mmvDesc w).v).filterMap (fun r => (s.un.scr s.gr.coreIndex ((mmvDesc w).yoff + r * (mmvDesc w).ystr) (4 * (mmvDesc w).n)).map (fun l =>
    (l.num, 4 * (mmvDesc w).n)))

/-- The state once the copy of a CP.MMA is issued (R240). -/
def State.copyPart (s : State) (a : BitVec 6) : State :=
  s.issueCmd (.copy 6) (s.descr a.toNat 8) true false (fun c =>
    { c with destVa := (s.cpDests 6 (s.descr a.toNat 8)).1, destPa := (s.cpDests 6 (s.descr a.toNat 8)).2 })

/-- The matrix part of a CP.MMA, issued behind its copy (R240). -/
def State.matrixPart (s s1 : State) (a : BitVec 6) : Cmd :=
  { id := s1.nextId, seq := s.gr.cmdseq, pc := s.instrPc, gid := s.gr.gid, sid := s.st.sid, core := s.gr.coreId, ctx := s.gr.ctx, kind := .mma
    regs := s.descr (a.toNat + 8) 8, fmt := s.st.fmt, exm := s.st.exm, flag := none, cbatch := none, mbatch := some (s.gr.mbatch + 1), state := .retired
    progress := 0, arg := s.nextId, dests := [], rows := [], joint := [], destVa := [], destPa := [], fenced := false, buf := [], peer := none
    frag := fragId s.gr s.st.kind, priv := s.st.isPriv
    late := s.classOpen s.gr (mmaDesc (s.descr (a.toNat + 8) 8)).tile (mmaDesc (s.descr (a.toNat + 8) 8)).tiles }

/-- The checks of a CP.MMA at issue (R240, R268). -/
def State.cpMmaCheck (s : State) (a : BitVec 6) : Option Cause :=
  match s.cpCheck 6 (s.descr a.toNat 8) with
  | some c => some c
  | none =>
    if (mmaDesc (s.descr (a.toNat + 8) 8)).areg ∧ !aregBase ((s.descr (a.toNat + 8) 8).getD 1 0) then some .illegal
    else if (mmaDesc (s.descr (a.toNat + 8) 8)).joint then some .mshape
    else (mmaDesc (s.descr (a.toNat + 8) 8)).check s.st.fmt s.gr.tiles.length s.un s.gr.coreIndex (s.classAhead s.gr)

section
variable {s : State} {g : BitVec 4} {d a b : BitVec 6}

theorem exec_mma (s : State) : exec (.mma g d a) s =
    if (mmaDesc (s.descr a.toNat 8)).acc then
      s.runN (s.engine g (decide (a.toNat % 8 = 0)) (s.mmaCheck (s.descr a.toNat 8))
        (((s.enterJoint (s.descr a.toNat 8) s.nextId).issueCmd .mma (s.descr a.toNat 8) false true (s.mmaFields (s.descr a.toNat 8))).putSeq d s))
    else
      s.run (s.engine g (decide (a.toNat % 8 = 0)) (s.mmaCheck (s.descr a.toNat 8))
        (((s.enterJoint (s.descr a.toNat 8) s.nextId).issueCmd .mma (s.descr a.toNat 8) false true (s.mmaFields (s.descr a.toNat 8))).putSeq d s)) := by
  change execMma g d a s = _
  unfold execMma
  rfl

theorem exec_mmv (s : State) : exec (.mmv g d a) s = s.run (s.engine g (decide (a.toNat % 8 = 0)) (s.mmvCheck (s.descr a.toNat 8))
    ((s.issueCmd .mmv (s.descr a.toNat 8) false true (fun c => { c with destPa := s.mmvRows (s.descr a.toNat 8) })).putSeq d s)) := by
  change execMmv g d a s = _
  unfold execMmv
  rfl

theorem exec_cpMma (s : State) : exec (.cpMma g d a) s =
    if (mmaDesc (s.descr (a.toNat + 8) 8)).acc then
      s.runN (s.engine g (decide (a.toNat % 16 = 0)) (s.cpMmaCheck a)
        (({ s.copyPart a with cmds := (s.copyPart a).cmds ++ [s.matrixPart (s.copyPart a) a], nextId := (s.copyPart a).nextId + 1 } : State).putSeq d s))
    else
      s.run (s.engine g (decide (a.toNat % 16 = 0)) (s.cpMmaCheck a)
        (({ s.copyPart a with cmds := (s.copyPart a).cmds ++ [s.matrixPart (s.copyPart a) a], nextId := (s.copyPart a).nextId + 1 } : State).putSeq d s)) := by
  change execCpMma g d a s = _
  unfold execCpMma
  rfl

/-- CP of every form whose checks pass (R268). -/
theorem commands_copy {i : Instr} {fn : Nat} (he : exec i s = s.run (s.copyCommand fn g d a)) (hgo : s.goesOn = true) (hw : s.isWave = false)
    (hu : s.uniGuard g = true) (ha : a.toNat % 8 = 0) (hc : s.cpCheck fn (s.descr a.toNat 8) = none) :
    Commands i s (.copy fn) (s.descr a.toNat 8) true false (some d) := by
  have hi := (issueCmd_issues (kind := .copy fn) (regs := s.descr a.toNat 8) (copy := true) (matrix := false) (issuesLike_refl s)
    (f := fun c => { c with destVa := (s.cpDests fn (s.descr a.toNat 8)).1, destPa := (s.cpDests fn (s.descr a.toNat 8)).2 }) (fun _ h => h)).putSeq d
  refine commands_run hgo (he.trans ?_) hi
  unfold State.copyCommand
  rw [engine_ready (by simpa using ha) hw hu hc]

theorem commands_cred {i : Instr} {fn : Nat} (he : exec i s = s.runN (s.cred fn g d a)) (hgo : s.goesOn = true) (hw : s.isWave = false)
    (hu : s.uniGuard g = true) (ha : a.toNat % 8 = 0) (hc : credCheck (s.descr a.toNat 8) = none) :
    Commands i s (.cred fn) (s.descr a.toNat 8) true false (some d) := by
  have hi := (issueCmd_issues (kind := .cred fn) (regs := s.descr a.toNat 8) (copy := true) (matrix := false) (issuesLike_refl s)
    (f := fun c => { c with destVa := [(vaPair (c.w 2) (c.w 3), c.credBytes)] }) (fun _ h => h)).putSeq d
  refine commands_runN hgo (he.trans ?_) hi
  unfold State.cred
  rw [engine_ready (by simpa using ha) hw hu hc]

theorem commands_mma (hgo : s.goesOn = true) (hw : s.isWave = false) (hu : s.uniGuard g = true) (ha : a.toNat % 8 = 0)
    (hc : s.mmaCheck (s.descr a.toNat 8) = none) : Commands (.mma g d a) s .mma (s.descr a.toNat 8) false true (some d) := by
  have hi := (issueCmd_issues (kind := .mma) (regs := s.descr a.toNat 8) (copy := false) (matrix := true) (enterJoint_like s (s.descr a.toNat 8) s.nextId)
    (f := s.mmaFields (s.descr a.toNat 8)) (fun _ h => h)).putSeq d
  exact commands_engineIf (exec_mma s) hgo (by simpa using ha) hw hu hc hi

theorem commands_mmv (hgo : s.goesOn = true) (hw : s.isWave = false) (hu : s.uniGuard g = true) (ha : a.toNat % 8 = 0)
    (hka : fmtA s.st.fmt = 3) (hkb : fmtB s.st.fmt = 0 ∨ fmtB s.st.fmt = 1 ∨ fmtB s.st.fmt = 3)
    (hal : (mmvDesc (s.descr a.toNat 8)).aoff % 4 = 0 ∧ (mmvDesc (s.descr a.toNat 8)).astr % 4 = 0 ∧ (mmvDesc (s.descr a.toNat 8)).yoff % 4 = 0 ∧
      (mmvDesc (s.descr a.toNat 8)).ystr % 4 = 0 ∧ (mmvDesc (s.descr a.toNat 8)).b % 4 = 0) (hb : (mmvDesc (s.descr a.toNat 8)).b < 2 ^ 57)
    (hin : s.un.holds s.gr.coreIndex (mmvDesc (s.descr a.toNat 8)).aoff (mmvDesc (s.descr a.toNat 8)).v (mmvDesc (s.descr a.toNat 8)).astr
      (2 * (mmvDesc (s.descr a.toNat 8)).k) = true)
    (hout : s.un.holds s.gr.coreIndex (mmvDesc (s.descr a.toNat 8)).yoff (mmvDesc (s.descr a.toNat 8)).v (mmvDesc (s.descr a.toNat 8)).ystr
      (4 * (mmvDesc (s.descr a.toNat 8)).n) = true) :
    Commands (.mmv g d a) s .mmv (s.descr a.toNat 8) false true (some d) := by
  obtain ⟨h1, h2, h3, h4, h5⟩ := hal
  have hc : s.mmvCheck (s.descr a.toNat 8) = none := by
    unfold State.mmvCheck
    rw [if_neg, if_neg (by simp [h1, h2, h3, h4, h5]), if_neg (by simp [hin, hout]), if_neg (Nat.not_le.2 hb)]
    rcases hkb with h | h | h <;> simp [hka, h]
  have hi := (issueCmd_issues (kind := .mmv) (regs := s.descr a.toNat 8) (copy := false) (matrix := true) (issuesLike_refl s)
    (f := fun c => { c with destPa := s.mmvRows (s.descr a.toNat 8) }) (fun _ h => h)).putSeq d
  exact commands_engine (exec_mmv s) hgo (by simpa using ha) hw hu hc hi

/-- CP.MMA issues its copy and then its matrix part under one sequence number (R240). -/
theorem commands_cpMma (hgo : s.goesOn = true) (hw : s.isWave = false) (hu : s.uniGuard g = true) (ha : a.toNat % 16 = 0)
    (hc : s.cpCheck 6 (s.descr a.toNat 8) = none) (hj : (mmaDesc (s.descr (a.toNat + 8) 8)).joint = false)
    (hr : (mmaDesc (s.descr (a.toNat + 8) 8)).areg = true → aregBase ((s.descr (a.toNat + 8) 8).getD 1 0) = true)
    (hm : (mmaDesc (s.descr (a.toNat + 8) 8)).check s.st.fmt s.gr.tiles.length s.un s.gr.coreIndex (s.classAhead s.gr) = none) :
    Commands (.cpMma g d a) s (.copy 6) (s.descr a.toNat 8) true false (some d) := by
  have hi := ((issueCmd_issues (kind := .copy 6) (regs := s.descr a.toNat 8) (copy := true) (matrix := false) (issuesLike_refl s)
    (f := fun c => { c with destVa := (s.cpDests 6 (s.descr a.toNat 8)).1, destPa := (s.cpDests 6 (s.descr a.toNat 8)).2 })
    (fun _ h => h)).behind (s.matrixPart (s.copyPart a) a) ((s.copyPart a).nextId + 1)).putSeq d
  refine commands_engineIf (exec_cpMma s) hgo (by simpa using ha) hw hu ?_ hi
  unfold State.cpMmaCheck
  have hareg : ¬ ((mmaDesc (s.descr (a.toNat + 8) 8)).areg = true ∧ (!aregBase ((s.descr (a.toNat + 8) 8).getD 1 0)) = true) := by
    rintro ⟨h1, h2⟩
    rw [hr h1] at h2
    exact Bool.false_ne_true h2
  rw [hc]
  dsimp only
  rw [if_neg hareg, if_neg (by simp [hj]), hm]

theorem commands_mmag (hgo : s.goesOn = true) (hw : s.isWave = false) (hu : s.uniGuard g = true) (ha : isPair a.toNat = true)
    (hn : (s.sreg b.toNat).toNat ≤ 4096) (h32 : (s.sregPair a.toNat).toNat % 32 = 0) (hlt : (s.sregPair a.toNat).toNat < 2 ^ 57)
    (hk : (nativeK (fmtA s.st.fmt) (fmtB s.st.fmt)).isSome = true) :
    Commands (.mmag g d a b) s .mmag [s.sreg a.toNat, s.sreg (a.toNat + 1), s.sreg b.toNat] false true (some d) := by
  have hnone : ¬ ((nativeK (fmtA s.st.fmt) (fmtB s.st.fmt)).isNone = true) := by
    cases h : nativeK (fmtA s.st.fmt) (fmtB s.st.fmt) <;> simp [h] at hk ⊢
  refine commands_engineN rfl hgo ha hw hu ?_ ((issueCmd_issues (issuesLike_refl s) (fun _ h => h)).putSeq d)
  rw [if_neg (Nat.not_lt.2 hn), if_neg (by simp [h32]), if_neg (Nat.not_le.2 hlt), if_neg hnone]

theorem commands_accz {t n : BitVec 4} (hgo : s.goesOn = true) (hw : s.isWave = false) (hu : s.uniGuard g = true)
    (hn : t.toNat + n.toNat + 1 ≤ s.gr.tiles.length) :
    Commands (.accz g t n) s .accz [t.setWidth 32, BitVec.ofNat 32 (n.toNat + 1)] false true none :=
  commands_engine rfl hgo rfl hw hu (if_neg (Nat.not_lt.2 hn)) (issueCmd_issues (issuesLike_refl s) (fun _ h => h))

theorem commands_accrd {t : BitVec 4} {c : BitVec 3} (hgo : s.goesOn = true) (hw : s.isWave = false) (hu : s.uniGuard g = true)
    (ht : t.toNat < s.gr.tiles.length) (hd : drainSuits (s.classAhead s.gr t.toNat) (fmtDrain s.st.fmt) = true) (h8 : d.toNat % 8 = 0) (h48 : d.toNat ≤ 48)
    (hb : s.beyondIn s.st.exm ((List.range 8).map (d.toNat + ·)) = 0) :
    Commands (.accrd g d t c) s .accrd [d.setWidth 32, t.setWidth 32, c.setWidth 32] false true none := by
  refine commands_engine (legal := true) (g := g) (check := none) ?_ hgo rfl hw hu rfl (issueCmd_issues (issuesLike_refl s) (fun _ h => h)
    (f := fun x => { x with late := s.classOpen s.gr t.toNat 1 }))
  change s.run (if !(d.toNat % 8 = 0 && decide (d.toNat ≤ 48)) || s.isWave then _ else if !s.uniGuard g then _ else
    if s.beyondIn s.st.exm ((List.range 8).map (d.toNat + ·)) ≠ 0 then _ else s.engine g true (if s.gr.tiles.length ≤ t.toNat then _ else
      if !drainSuits (s.classAhead s.gr t.toNat) (fmtDrain s.st.fmt) then _ else none) _) = _
  rw [if_neg (by simp [h8, h48, hw]), if_neg (by simp [hu]), if_neg (not_not.2 hb), if_neg (Nat.not_le.2 ht), if_neg (by simp [hd])]

theorem commands_accrs {t : BitVec 4} (hgo : s.goesOn = true) (hw : s.isWave = false) (hu : s.uniGuard g = true) (ha : isPair a.toNat = true)
    (ht : t.toNat < s.gr.tiles.length) (hd : drainSuits (s.classAhead s.gr t.toNat) (fmtDrain s.st.fmt) = true) (h4 : (s.sreg a.toNat).toNat % 4 = 0)
    (h4' : (s.sreg (a.toNat + 1)).toNat % 4 = 0)
    (hl : (s.un.locate s.gr.coreIndex (s.sreg a.toNat).toNat (63 * (s.sreg (a.toNat + 1)).toNat + 64 * drainSize (fmtDrain s.st.fmt))).isSome = true) :
    Commands (.accrs g t a) s .accrs [t.setWidth 32, s.sreg a.toNat, s.sreg (a.toNat + 1)] false true none := by
  have hloc : ¬ ((s.un.locate s.gr.coreIndex (s.sreg a.toNat).toNat (63 * (s.sreg (a.toNat + 1)).toNat + 64 * drainSize (fmtDrain s.st.fmt))).isNone = true) := by
    rw [Option.isNone_iff_eq_none]
    exact fun h => by simp [h] at hl
  refine commands_engine rfl hgo ha hw hu ?_ (issueCmd_issues (issuesLike_refl s) (fun _ h => h))
  rw [if_neg (Nat.not_le.2 ht), if_neg (by simp [h4, h4']), if_neg hloc, if_neg (by simp [hd])]

theorem dropAnswers_like (s : State) : s.dropAnswers.issuesLike s := ⟨rfl, rfl, rfl, rfl, rfl⟩

theorem commands_cfetch (hgo : s.goesOn = true) (hw : s.isWave = false) (hu : s.uniGuard g = true) (ha : isPair a.toNat = true)
    (h4k : (s.sregPair a.toNat).toNat % 4096 = 0) (hwait : s.fetchWaits (s.sregPair a.toNat).toNat = false)
    (href : ∀ h, s.fetchCheck (s.sregPair a.toNat).toNat ≠ .refused h) (hlost : s.fetchCheck (s.sregPair a.toNat).toNat ≠ .lost) :
    Commands (.cfetch g a) s .cfetch [s.sreg a.toNat, s.sreg (a.toNat + 1)] false false none := by
  refine commands_engine (legal := true) (g := g) (check := none) ?_ hgo rfl hw hu rfl (issueCmd_issues (dropAnswers_like s) (fun _ h => h)
    (f := fun c => { c with arg := (s.sregPair a.toNat).toNat }))
  change s.run (if isPair a.toNat && !s.isWave && s.uniGuard g && decide ((s.sregPair a.toNat).toNat % 4096 = 0) && s.fetchWaits (s.sregPair a.toNat).toNat then _ else
    s.engine g (isPair a.toNat) (if (s.sregPair a.toNat).toNat % 4096 ≠ 0 then _ else match s.fetchCheck (s.sregPair a.toNat).toNat with
      | .refused _ | .lost => some .prot
      | _ => none) _) = _
  rw [if_neg (by simp [hwait]), if_neg (not_not.2 h4k), ha]
  split
  · next h => exact absurd h (href _)
  · next h => exact absurd h hlost
  · rfl

theorem launchIssue_issues : Issues (s.launchIssue d a) s .launch [s.sreg a.toNat, s.sreg (a.toNat + 1)] false false none := by
  have hlike : (if ((s.launchOf s.un).map (·.graphid)).getD 0 = (0 : Word) then s else
      s.modCounter 1 s.gr.ctx ((((s.launchOf s.un).map (·.graphid)).getD 0 : Word).toNat - 0x10000) (fun c => { c with count := c.count + 1 })).issuesLike s := by
    split
    · exact issuesLike_refl s
    · exact ⟨rfl, rfl, rfl, rfl, rfl⟩
  obtain ⟨hmem, hgr, hplace, hsregs, hcmd⟩ := issueCmd_issues (kind := .launch) (regs := [s.sreg a.toNat, s.sreg (a.toNat + 1)]) (copy := false) (matrix := false)
    hlike (f := fun c => { c with arg := d.toNat, dropped := ((s.launchOf s.un).map (·.dropped)).getD false, rows := [[((s.launchOf s.un).map (·.graphid)).getD 0, ((s.launchOf s.un).map (·.phaseid)).getD 0]] })
    (fun _ h => h)
  exact ⟨hmem, hgr, hplace, hsregs, hcmd⟩

theorem commands_launch (hgo : s.goesOn = true) (hw : s.isWave = false) (hu : s.uniGuard g = true) (ha : isPair a.toNat = true)
    (h128 : vaPair (s.sreg a.toNat) (s.sreg (a.toNat + 1)) % 128 = 0) (hlt : vaPair (s.sreg a.toNat) (s.sreg (a.toNat + 1)) < 2 ^ 57) (hq : s.quiet) :
    Commands (.launch g d a) s .launch [s.sreg a.toNat, s.sreg (a.toNat + 1)] false false none := by
  refine commands_runN hgo ?_ (launchIssue_issues (d := d))
  change s.runN (if !isPair a.toNat || s.isWave then _ else if !s.uniGuard g then _ else if vaPair (s.sreg a.toNat) (s.sreg (a.toNat + 1)) % 128 ≠ 0 then _ else
    if 2 ^ 57 ≤ vaPair (s.sreg a.toNat) (s.sreg (a.toNat + 1)) then _ else s.released (fun s1 => .next (s1.launchIssue d a))) = _
  rw [if_neg (by simp [ha, hw]), if_neg (by simp [hu]), if_neg (not_not.2 h128), if_neg (Nat.not_le.2 hlt), released_quiet _ _ hq]

theorem launch_skip (hgo : s.goesOn = true) (hw : s.isWave = false) (hu : s.uniGuard g = false) (ha : isPair a.toNat = true) :
    Retires (.launch g d a) s s true := by
  refine retires_runN ?_ (goesOn_landed s hgo) rfl hgo
  change s.runN (if !isPair a.toNat || s.isWave then _ else if !s.uniGuard g then _ else _) = _
  rw [if_neg (by simp [ha, hw]), if_pos (by simp [hu])]

theorem launch_wave (hw : s.isWave = true) : Traps (.launch g d a) s .illegal s.st.exm := by
  refine traps_runN ?_
  change s.runN (if !isPair a.toNat || s.isWave then _ else _) = _
  rw [if_pos (by simp [hw])]

theorem cfetch_skip (hgo : s.goesOn = true) (hw : s.isWave = false) (hu : s.uniGuard g = false) (ha : isPair a.toNat = true) :
    Retires (.cfetch g a) s s false := by
  refine retires_noop ?_ hgo
  change s.run (if isPair a.toNat && !s.isWave && s.uniGuard g && decide ((s.sregPair a.toNat).toNat % 4096 = 0) && s.fetchWaits (s.sregPair a.toNat).toNat then _ else
    s.engine g (isPair a.toNat) _ _) = _
  rw [if_neg (by simp [hu]), engine_skip ha hw hu]
end

/-- Settles O46: the shape of an engine command first (its guard and its checks), then the record of the command. -/
theorem engineCommands : Obligations.EngineCommands := by
  intro s g d a b t n c w x y hgo
  refine ⟨fun hw hu => ⟨fun ha => ⟨?_, ?_, ?_, ?_, ?_, ?_, fun hc => commands_mma hgo hw hu ha hc, fun hc => ⟨?_, ?_, ?_⟩, ?_⟩, ?_, ?_, ?_, ?_, ?_, ?_⟩, fun hw hu h16 h56 => ?_,
    fun hw => ⟨?_, traps_engineIf (exec_mma s) hw, ?_, ?_, ?_, launch_wave hw⟩⟩
  · exact fun hc => commands_copy rfl hgo hw hu ha hc
  · exact fun hc => commands_copy rfl hgo hw hu ha hc
  · exact fun hc => commands_copy rfl hgo hw hu ha hc
  · exact fun hc => commands_copy rfl hgo hw hu ha hc
  · exact fun hc => commands_copy rfl hgo hw hu ha hc
  · exact fun hc => commands_copy rfl hgo hw hu ha hc
  · exact commands_cred rfl hgo hw hu ha hc
  · exact commands_cred rfl hgo hw hu ha hc
  · exact commands_cred rfl hgo hw hu ha hc
  · exact fun hka hkb h1 h2 h3 h4 h5 hb hin hout => commands_mmv hgo hw hu ha hka hkb ⟨h1, h2, h3, h4, h5⟩ hb hin hout
  · exact fun ha hc hj hr hm => commands_cpMma hgo hw hu ha hc hj hr hm
  · exact fun ha hn h32 hlt hk => commands_mmag hgo hw hu ha hn h32 hlt hk
  · exact fun hn => commands_accz hgo hw hu hn
  · exact fun ht hd => ⟨fun h8 h48 hb => commands_accrd hgo hw hu ht hd h8 h48 hb, fun ha h4 h4' hl => commands_accrs hgo hw hu ha ht hd h4 h4' hl⟩
  · exact fun ha h4k hwait href hlost => commands_cfetch hgo hw hu ha h4k hwait href hlost
  · exact fun ha h128 hlt hq => commands_launch hgo hw hu ha h128 hlt hq
  · have h8 : a.toNat % 8 = 0 := by omega
    have hpair : isPair a.toNat = true := by
      unfold isPair
      simp
      omega
    exact ⟨retires_engine rfl (by simpa using h8) hw hu hgo, retires_engineIf (exec_mma s) (by simpa using h8) hw hu hgo,
      retires_engineN rfl hpair hw hu hgo, retires_engine rfl rfl hw hu hgo, retires_engine (exec_mmv s) (by simpa using h8) hw hu hgo,
      retires_engineIf (exec_cpMma s) (by simpa using h16) hw hu hgo, cfetch_skip hgo hw hu hpair, launch_skip hgo hw hu hpair⟩
  · exact traps_engine rfl hw
  · exact traps_engine rfl hw
  · exact traps_engine (exec_mmv s) hw
  · exact traps_engineN rfl hw

end Sys2Proof.Machine
end

section
/-!
Batches of engine commands: O47.
-/
namespace Sys2Proof.Machine

section
variable {β : Type} {pi : State → β}

/-- Drained words land in lanes alone (R275). -/
theorem landDrain_keeps (h : ∀ s gid (lanes : Group → List Lane), pi (s.modGroup gid (fun g => { g with lanes := lanes g })) = pi s) (s : State) (c : Cmd) :
    pi (s.landDrain c) = pi s := foldl_keeps pi (fun t _ => h t _ _) _ s

theorem landDrains_keeps (h : ∀ s gid (lanes : Group → List Lane), pi (s.modGroup gid (fun g => { g with lanes := lanes g })) = pi s) (s : State) (cs : List Cmd) :
    pi (cs.foldl State.landDrain s) = pi s := foldl_keeps pi (landDrain_keeps h) cs s

theorem modGroup_lanes_coreId (s : State) (gid : Nat) (lanes : Group → List Lane) :
    (s.modGroup gid (fun g => { g with lanes := lanes g })).gr.coreId = s.gr.coreId := by
  unfold State.modGroup State.mapGroups
  dsimp only
  split <;> rfl
end

/-! ## The wait on a batch -/

/-- The number of the last batch that a wait on s[A] covers (R228, R229). -/
def State.waitedBatch (s : State) (copy : Bool) (a : BitVec 6) : Word :=
  if atOrBefore (s.sreg a.toNat) (if copy then s.gr.cbatch else s.gr.mbatch) then s.sreg a.toNat else if copy then s.gr.cbatch else s.gr.mbatch

/-- The state with the covered commands gone and their drained words landed (R229, R275). -/
def State.batchTaken (s : State) (copy : Bool) (cov : List Cmd) : State :=
  let t := (cov.filter (fun c => decide (c.state = .done))).foldl State.landDrain s
  let v : State := { t with cmds := t.cmds.filter (fun c => !(cov.map (·.id)).contains c.id) }
  if copy && !cov.isEmpty then v.dropL1 v.gr.coreId else v

/-- The first failure among covered commands. -/
def firstFailure (cov : List Cmd) : Option (Cmd × Cause × Nat) :=
  cov.findSome? (fun c => match c.state with
    | .failed cause i => some (c, cause, i)
    | _ => none)

theorem waitBatch_eq (s : State) (copy : Bool) (a : BitVec 6) : s.waitBatch copy a =
    if (s.covered copy (s.waitedBatch copy a)).any (fun c => !c.isOver) then
      .hold (s.modSt (fun x => { x with status := if copy then .waitCopy (s.waitedBatch copy a) else .waitMatrix (s.waitedBatch copy a) }))
    else match firstFailure (s.covered copy (s.waitedBatch copy a)) with
      | none => .next (s.batchTaken copy (s.covered copy (s.waitedBatch copy a)))
      | some (c, cause, i) => .trapWith .batcherr s.st.exm
          { TrapInfo.plain with fl := BitVec.ofNat 24 (cause.code.toNat * 2 ^ 16 + i % 2 ^ 16), cmdPc := c.pc, cmdSeq := c.seq }
          (s.batchTaken copy (s.covered copy (s.waitedBatch copy a))) := rfl

theorem firstFailure_none {cov : List Cmd} (h : ∀ c ∈ cov, c.state = .done) : firstFailure cov = none := by
  refine List.findSome?_eq_none_iff.2 (fun c hc => ?_)
  rw [h c hc]

theorem firstFailure_some {p r : List Cmd} {c : Cmd} {k : Cause} {n : Nat} (hp : ∀ e ∈ p, e.state = .done) (hc : c.state = .failed k n) :
    firstFailure (p ++ c :: r) = some (c, k, n) := by
  unfold firstFailure
  rw [List.findSome?_append, show List.findSome? _ p = none from firstFailure_none hp]
  simp [hc]

section
variable {β : Type} {pi : State → β}

/-- What neither lanes, commands nor L1 sectors are in stays as a batch is taken. -/
theorem batchTaken_keeps (hl : ∀ s gid (lanes : Group → List Lane), pi (s.modGroup gid (fun g => { g with lanes := lanes g })) = pi s)
    (hc : ∀ s x, pi { s with cmds := x } = pi s) (h1 : ∀ s x, pi { s with l1 := x } = pi s) (s : State) (copy : Bool) (cov : List Cmd) :
    pi (s.batchTaken copy cov) = pi s := by
  unfold State.batchTaken
  dsimp only
  split
  · exact (h1 _ _).trans ((hc _ _).trans (landDrains_keeps hl s _))
  · exact (hc _ _).trans (landDrains_keeps hl s _)
end

section
variable {s : State} {copy : Bool} {cov : List Cmd}

theorem batchTaken_st : (s.batchTaken copy cov).st = s.st := batchTaken_keeps (fun _ _ _ => rfl) (fun _ _ => rfl) (fun _ _ => rfl) s copy cov

theorem batchTaken_sameMem : (s.batchTaken copy cov).sameMem s :=
  ⟨batchTaken_keeps (pi := State.mem) (fun _ _ _ => rfl) (fun _ _ => rfl) (fun _ _ => rfl) s copy cov,
    batchTaken_keeps (pi := State.host) (fun _ _ _ => rfl) (fun _ _ => rfl) (fun _ _ => rfl) s copy cov⟩

theorem batchTaken_cmds : (s.batchTaken copy cov).cmds = s.cmds.filter (fun c => !(cov.map (·.id)).contains c.id) := by
  have h : ((cov.filter (fun c => decide (c.state = .done))).foldl State.landDrain s).cmds = s.cmds := landDrains_keeps (pi := State.cmds) (fun _ _ _ => rfl) s _
  unfold State.batchTaken
  dsimp only
  rw [h]
  split <;> rfl

theorem batchTaken_lanes (h : ∀ c ∈ cov, c.state = .done) : (s.batchTaken copy cov).gr.lanes = (cov.foldl State.landDrain s).gr.lanes := by
  have hf : cov.filter (fun c => decide (c.state = .done)) = cov := List.filter_eq_self.2 (fun c hc => decide_eq_true (h c hc))
  unfold State.batchTaken
  rw [hf]
  dsimp only
  split <;> rfl

theorem batchTaken_l1 (hc : copy = true) (hn : cov ≠ []) : ∀ x ∈ (s.batchTaken copy cov).l1, x.core ≠ s.gr.coreId := by
  have hcore := landDrains_keeps (pi := fun t => t.gr.coreId) modGroup_lanes_coreId s (cov.filter (fun c => decide (c.state = .done)))
  have hne : (copy && !cov.isEmpty) = true := by simp [hc, hn]
  intro x hx
  unfold State.batchTaken at hx
  rw [if_pos hne] at hx
  have hx' := (List.mem_filter.1 hx).2
  rw [← hcore]
  simpa using hx'
end

/-! ## The instructions -/

/-- The wait on a batch of one of the two sets. -/
def waitInstr (copy : Bool) (g : BitVec 4) (a : BitVec 6) : Instr := if copy then .waitc g a else .waitm g a

theorem exec_waitInstr (copy : Bool) (g : BitVec 4) (a : BitVec 6) (s : State) :
    exec (waitInstr copy g a) s = s.run (if s.uniGuard g then s.waitBatch copy a else .next s) := by cases copy <;> rfl

section
variable {s : State} {copy : Bool} {g : BitVec 4} {a : BitVec 6}

theorem wait_completes (hgo : s.goesOn = true) (hu : s.uniGuard g = true) (hdone : ∀ c ∈ s.covered copy (s.waitedBatch copy a), c.state = .done) :
    ∃ u, exec (waitInstr copy g a) s = .next u ∧ u.sameMem s ∧ u.st.pc = s.st.pc + 4 ∧ u.st.sregs = s.st.sregs ∧ (∀ c ∈ u.cmds, c ∈ s.cmds) ∧
      (∀ c ∈ s.cmds, c ∈ u.cmds ↔ ∀ e ∈ s.covered copy (s.waitedBatch copy a), e.id ≠ c.id) ∧
      u.gr.lanes = ((s.covered copy (s.waitedBatch copy a)).foldl State.landDrain s).gr.lanes ∧
      (copy = true → s.covered copy (s.waitedBatch copy a) ≠ [] → ∀ x ∈ u.l1, x.core ≠ s.gr.coreId) := by
  generalize hcov : s.covered copy (s.waitedBatch copy a) = cov at hdone ⊢
  have hover : ¬ ((s.covered copy (s.waitedBatch copy a)).any (fun c => !c.isOver) = true) := by
    rw [hcov, List.any_eq_true]
    rintro ⟨c, hc, hno⟩
    simp [Cmd.isOver, hdone c hc] at hno
  have hst : (s.batchTaken copy cov).st = s.st := batchTaken_st
  have he : exec (waitInstr copy g a) s = .next ((s.batchTaken copy cov).retired s false) := by
    rw [exec_waitInstr, if_pos hu, waitBatch_eq, if_neg hover, hcov, firstFailure_none hdone]
    dsimp only
    rw [State.run, if_pos (goesOn_landed s hgo), finish_next_place false hgo (by rw [hst]; exact goesOn_exm hgo) (by rw [hst]) (by rw [hst]) (by rw [hst]) (by rw [hst])]
  obtain ⟨hmem, hhost⟩ := batchTaken_sameMem (s := s) (copy := copy) (cov := cov)
  have hcmds := batchTaken_cmds (s := s) (copy := copy) (cov := cov)
  have hlanes := batchTaken_lanes (s := s) (copy := copy) hdone
  have hl1 := batchTaken_l1 (s := s) (copy := copy) (cov := cov)
  generalize s.batchTaken copy cov = u at *
  refine ⟨_, he, ⟨hmem, hhost⟩, ?_, ?_, ?_, ?_, hlanes, hl1⟩
  · show u.st.pc + 4 = _
    rw [hst]
  · show u.st.sregs = _
    rw [hst]
  · intro c (hc : c ∈ u.cmds)
    rw [hcmds] at hc
    exact (List.mem_filter.1 hc).1
  · intro c hc
    show c ∈ u.cmds ↔ _
    rw [hcmds, List.mem_filter]
    simp [hc]

theorem wait_fails {p r : List Cmd} {c : Cmd} {k : Cause} {n : Nat} (hgo : s.goesOn = true) (hu : s.uniGuard g = true) (ho : s.owedBank = none)
    (hover : ∀ e ∈ s.covered copy (s.waitedBatch copy a), e.isOver = true) (hcov : s.covered copy (s.waitedBatch copy a) = p ++ c :: r)
    (hp : ∀ e ∈ p, e.state = .done) (hc : c.state = .failed k n) :
    ∃ u t : State, exec (waitInstr copy g a) s = .next u ∧ u = t.takeTrap .batcherr s.st.exm []
      { fl := BitVec.ofNat 24 (k.code.toNat * 2 ^ 16 + n % 2 ^ 16), cmdPc := c.pc, cmdSeq := c.seq, dbgst := 0, instr := none } ∧ t.st = s.st := by
  have hnone : ¬ ((s.covered copy (s.waitedBatch copy a)).any (fun c => !c.isOver) = true) := by
    rw [List.any_eq_true]
    rintro ⟨e, he, hno⟩
    rw [hover e he] at hno
    exact Bool.false_ne_true hno
  refine ⟨_, s.batchTaken copy (p ++ c :: r), ?_, rfl, batchTaken_st⟩
  rw [exec_waitInstr, if_pos hu, waitBatch_eq, if_neg hnone, hcov, firstFailure_some hp hc]
  exact run_trapWith s _ _ _ _ (goesOn_landed s hgo) ho

theorem wait_holds (hgo : s.goesOn = true) (hu : s.uniGuard g = true) (hrun : ∃ c ∈ s.covered copy (s.waitedBatch copy a), c.isOver = false) :
    exec (waitInstr copy g a) s =
      .next (s.modSt (fun x => { x with status := if copy then .waitCopy (s.waitedBatch copy a) else .waitMatrix (s.waitedBatch copy a) })) := by
  obtain ⟨c, hc, hno⟩ := hrun
  rw [exec_waitInstr, if_pos hu, waitBatch_eq, if_pos (List.any_eq_true.2 ⟨c, hc, by simp [hno]⟩)]
  exact run_hold s _ (goesOn_landed s hgo)
end

/-- Settles O47: the covered commands decide whether the wait completes, fails or holds. -/
theorem engineBatches : Obligations.EngineBatches := by
  intro s g d a copy cur b wait hgo
  refine ⟨once_of rfl rfl rfl ?_, once_of rfl rfl rfl ?_, once_of rfl rfl rfl ⟨rfl, rfl⟩, fun hu => ?_, fun hu hdone => wait_completes hgo hu hdone,
    fun hu ho hover p c r k n hcov hp hc => wait_fails hgo hu ho hover hcov hp hc, fun hu hrun => wait_holds hgo hu hrun⟩
  · exact standsAs_setSreg (s.modGr (fun y => { y with cbatch := y.cbatch + 1 })) d.toNat _
  · exact standsAs_setSreg (s.modGr (fun y => { y with mbatch := y.mbatch + 1 })) d.toNat _
  · exact retires_noop ((exec_waitInstr copy g a s).trans (by rw [if_neg (by simp [hu])])) hgo

end Sys2Proof.Machine
end

section
/-!
The steps of an accepted engine command: O48.
-/
namespace Sys2Proof.Machine

/-! ## What the end of a command leaves unchanged -/

/-- A stream without whether it waits. -/
def Stream.dozing (x : Stream) : Stream := { x with status := .ended, woken := false }

/-- A view of the state that sees neither whether a stream waits, nor the commands, nor the events. -/
structure OverBlind {β : Type} (pi : State → β) : Prop where
  streams : ∀ s f, (∀ x : Stream, (f x).dozing = x.dozing) → pi (s.mapStreams f) = pi s
  cmds : ∀ s x, pi { s with cmds := x } = pi s
  events : ∀ s ev, pi { s with events := ev } = pi s

section
variable {β : Type} {pi : State → β}

theorem wake_dozes (h : ∀ s f, (∀ x : Stream, (f x).dozing = x.dozing) → pi (s.mapStreams f) = pi s) (s : State) (p : Stream → Bool) : pi (s.wake p) = pi s := by
  refine h s _ (fun x => ?_)
  split <;> rfl

theorem kick_keeps (h : ∀ s ev, pi { s with events := ev } = pi s) (s : State) (gid : Nat) : pi (s.kick gid) = pi s := by
  unfold State.kick
  split
  · rfl
  · split
    · rfl
    · split <;> exact h s _

theorem wakeFetch_keeps (h : ∀ s f, (∀ x : Stream, (f x).dozing = x.dozing) → pi (s.mapStreams f) = pi s) (s : State) (c : Cmd) : pi (s.wakeFetch c) = pi s := by
  unfold State.wakeFetch
  split
  · rfl
  · exact wake_dozes h s _

theorem cmdOver_keeps (h : ∀ s f, (∀ x : Stream, (f x).dozing = x.dozing) → pi (s.mapStreams f) = pi s) (he : ∀ s ev, pi { s with events := ev } = pi s)
    (s : State) (c : Cmd) : pi (s.cmdOver c) = pi s := by
  unfold State.cmdOver
  rw [recheckEnd_keeps pi he, kick_keeps he, wakeFetch_keeps h, wake_dozes h]

theorem dropLoose_keeps (h : ∀ s x, pi { s with cmds := x } = pi s) (s : State) (c : Cmd) : pi (s.dropLoose c) = pi s := by
  unfold State.dropLoose
  split
  · exact h s _
  · rfl

theorem endCmd_keeps (h : OverBlind pi) (s : State) (id : Nat) : pi (s.endCmd id) = pi s := by
  unfold State.endCmd
  split
  · rfl
  · next c _ =>
    have hover : pi (((s.modCmd id (fun x => { x with state := .done })).dropLoose c).cmdOver c) = pi s := by
      rw [cmdOver_keeps h.streams h.events, dropLoose_keeps h.cmds]
      exact h.cmds s _
    dsimp only
    split
    · split
      · exact (h.events _ _).trans hover
      · exact hover
    · exact hover
end

theorem cmdOver_cmds (s : State) (c : Cmd) : (s.cmdOver c).cmds = s.cmds := cmdOver_keeps (fun _ _ _ => rfl) (fun _ _ => rfl) s c

/-- The commands once one has ended: it is done, and gone where no batch will cover it (R228). -/
theorem endCmd_cmds {s : State} {id : Nat} {c : Cmd} (h : s.cmd? id = some c) :
    (s.endCmd id).cmds = ((s.modCmd id (fun x => { x with state := .done })).dropLoose c).cmds := by
  have hover := cmdOver_cmds ((s.modCmd id (fun x => { x with state := .done })).dropLoose c) c
  unfold State.endCmd
  rw [h]
  dsimp only
  split
  · split
    · exact hover
    · exact hover
  · exact hover

theorem mem_dropLoose {s : State} {c e : Cmd} (h : e ∈ (s.dropLoose c).cmds) : e ∈ s.cmds := by
  unfold State.dropLoose at h
  split at h
  · exact (List.mem_filter.1 h).1
  · exact h

/-- A command of the state after the end of one stood there before, done if it is that one. -/
theorem mem_endCmd {s : State} {id : Nat} {e : Cmd} (h : e ∈ (s.endCmd id).cmds) : (e.id = id → e.state = .done) ∧ (e ∈ s.cmds ∨ e.id = id) ∧
    (e.id = id → ∃ x ∈ s.cmds, e = { x with state := .done }) := by
  cases hc : s.cmd? id with
  | none =>
    have hs : s.endCmd id = s := by
      unfold State.endCmd
      rw [hc]
    rw [hs] at h
    have hne : e.id ≠ id := fun he => by
      have hno := List.find?_eq_none.1 hc e h
      simp [he] at hno
    exact ⟨fun he => absurd he hne, .inl h, fun he => absurd he hne⟩
  | some c =>
    rw [endCmd_cmds hc] at h
    obtain ⟨x, hx, hex⟩ := List.mem_map.1 (mem_dropLoose h)
    by_cases hid : x.id = id
    · rw [if_pos hid] at hex
      subst hex
      exact ⟨fun _ => rfl, .inr hid, fun _ => ⟨x, hx, rfl⟩⟩
    · rw [if_neg hid] at hex
      subst hex
      exact ⟨fun he => absurd he hid, .inl hx, fun he => absurd he hid⟩

theorem endCmd_ended (s : State) (id : Nat) : (s.endCmd id).ended id := fun _ hc hid => (mem_endCmd hc).1 hid

theorem endCmd_sameMem (s : State) (id : Nat) : (s.endCmd id).sameMem s :=
  ⟨endCmd_keeps (pi := State.mem) ⟨fun _ _ _ => rfl, fun _ _ => rfl, fun _ _ => rfl⟩ s id,
    endCmd_keeps (pi := State.host) ⟨fun _ _ _ => rfl, fun _ _ => rfl, fun _ _ => rfl⟩ s id⟩

theorem endCmd_gr (s : State) (id : Nat) : (s.endCmd id).gr = s.gr := endCmd_keeps ⟨fun _ _ _ => rfl, fun _ _ => rfl, fun _ _ => rfl⟩ s id

theorem dozing_flags {x y : Stream} (h : x.dozing = y.dozing) : x.flags = y.flags := (congrArg Stream.flags h :)

theorem endCmd_flags (s : State) (id : Nat) : (s.endCmd id).st.flags = s.st.flags :=
  endCmd_keeps (pi := fun s => s.st.flags) ⟨fun s _ h => dozing_flags (h s.st), fun _ _ => rfl, fun _ _ => rfl⟩ s id

theorem cmd?_congr {u s : State} (h : u.cmds = s.cmds) (id : Nat) : u.cmd? id = s.cmd? id := by
  unfold State.cmd?
  rw [h]

theorem kick_cmds (s : State) (gid : Nat) : (s.kick gid).cmds = s.cmds := kick_keeps (fun _ _ => rfl) s gid

/-! ## COMMAND_ACCEPT (R219, R20) -/

/-- u is s with a command taken by its engine: its flag is clear. -/
structure Accepts (u s : State) (c : Cmd) : Prop where
  mem : u.sameMem s
  flags : u.st.flags = (match c.flag with
    | some f => s.st.flags.modify f (· - 1)
    | none => s.st.flags)
  cmds : ∀ e ∈ u.cmds, e.id = c.id → e.state ≠ .retired ∧ e.flag = none

section
variable {u t s : State} {c : Cmd}

/-- A step that keeps both memories, the flags and the commands. -/
theorem Accepts.keeps (h : Accepts t s c) (hmem : u.sameMem t) (hflags : u.st.flags = t.st.flags) (hcmds : u.cmds = t.cmds) : Accepts u s c :=
  ⟨sameMem_trans u t s hmem h.mem, hflags.trans h.flags, fun e he => h.cmds e (hcmds ▸ he)⟩

theorem Accepts.post (h : Accepts t s c) (i : Instr) : Accepts (t.post i) s c := h.keeps (sameMem_refl t) rfl rfl

theorem Accepts.kick (h : Accepts t s c) (gid : Nat) : Accepts (t.kick gid) s c :=
  h.keeps ⟨kick_keeps (pi := State.mem) (fun _ _ => rfl) t gid, kick_keeps (pi := State.host) (fun _ _ => rfl) t gid⟩
    (kick_keeps (pi := fun s => s.st.flags) (fun _ _ => rfl) t gid) (kick_cmds t gid)

theorem Accepts.endCmd (h : Accepts t s c) : Accepts (t.endCmd c.id) s c := by
  refine ⟨sameMem_trans _ t s (endCmd_sameMem t c.id) h.mem, (endCmd_flags t c.id).trans h.flags, fun e he hid => ?_⟩
  obtain ⟨hdone, _, horig⟩ := mem_endCmd he
  obtain ⟨x, hx, hex⟩ := horig hid
  have hxid : x.id = c.id := by rw [← hid, hex]
  refine ⟨by rw [hdone hid]; decide, ?_⟩
  rw [hex]
  exact (h.cmds x hx hxid).2

/-- The commands changed one by one, none back to the state in which it retired and none with a flag. -/
theorem Accepts.map (h : Accepts t s c) {f : Cmd → Cmd} (hid : ∀ x, (f x).id = x.id)
    (hf : ∀ x : Cmd, x.id = c.id → x.state ≠ .retired ∧ x.flag = none → (f x).state ≠ .retired ∧ (f x).flag = none) : Accepts { t with cmds := t.cmds.map f } s c := by
  refine ⟨h.mem, h.flags, fun e he hec => ?_⟩
  obtain ⟨x, hx, rfl⟩ := List.mem_map.1 he
  exact hf x ((hid x).symm.trans hec) (h.cmds x hx ((hid x).symm.trans hec))

theorem Accepts.modCmd (h : Accepts t s c) {f : Cmd → Cmd} (id : Nat) (hid : ∀ x, (f x).id = x.id)
    (hf : ∀ x : Cmd, x.state ≠ .retired ∧ x.flag = none → (f x).state ≠ .retired ∧ (f x).flag = none) : Accepts (t.modCmd id f) s c := by
  refine h.map (fun x => ?_) (fun x _ hx => ?_)
  · split
    · exact hid x
    · rfl
  · split
    · exact hf x hx
    · exact hx

/-- The command as the engine takes it. -/
def Cmd.taken (s : State) (c x : Cmd) : Cmd := { if c.kind = .mma then s.withRows c.flag x else x with flag := none, state := .accepted }

/-- The state once its flag is clear and the engine has it. -/
def State.takenUp (s : State) (c : Cmd) : State := (s.flagDone c.sid c.id c.flag).modCmd c.id (Cmd.taken s c)

theorem withRows_id (s : State) (f : Option Nat) (x : Cmd) : (s.withRows f x).id = x.id := by
  unfold State.withRows
  split <;> rfl

theorem taken_id (s : State) (c x : Cmd) : (Cmd.taken s c x).id = x.id := by
  unfold Cmd.taken
  dsimp only
  split
  · exact withRows_id s c.flag x
  · rfl

theorem flagDone_flags (h : c.sid = s.st.sid) : (s.flagDone c.sid c.id c.flag).st.flags = (match c.flag with
    | some f => s.st.flags.modify f (· - 1)
    | none => s.st.flags) := by
  have hown : s.st.owns c.sid c.id = true := by simp [Stream.owns, h]
  cases hf : c.flag with
  | none => rfl
  | some f =>
    unfold State.flagDone
    simp [State.mapStreams, hown]

theorem takenUp_cmds (s : State) (c : Cmd) : (s.takenUp c).cmds = s.cmds.map (fun x => if x.id = c.id then Cmd.taken s c x else x) :=
  congrArg (List.map _) (flagDone_keeps State.cmds (fun _ _ _ => rfl) s c.sid c.id c.flag)

theorem takenUp_accepts (h : c.sid = s.st.sid) : Accepts (s.takenUp c) s c := by
  refine ⟨⟨flagDone_keeps State.mem (fun _ _ _ => rfl) s _ _ _, flagDone_keeps State.host (fun _ _ _ => rfl) s _ _ _⟩, flagDone_flags h, fun e he hid => ?_⟩
  rw [takenUp_cmds] at he
  obtain ⟨x, hx, rfl⟩ := List.mem_map.1 he
  by_cases hxc : x.id = c.id
  · rw [if_pos hxc]
    exact ⟨by simp [Cmd.taken], rfl⟩
  · rw [if_neg hxc] at hid
    exact absurd hid hxc

theorem takenUp_cmd? (h : s.cmd? c.id = some c) : (s.takenUp c).cmd? c.id = some (Cmd.taken s c c) := by
  refine (cmd?_modCmd _ c.id (Cmd.taken s c) (taken_id s c)).trans ?_
  rw [cmd?_congr (flagDone_keeps State.cmds (fun _ _ _ => rfl) s c.sid c.id c.flag), h]
  rfl

theorem commandAccept_eq (h : s.cmd? c.id = some c) (hret : c.state = .retired) (hk : c.kind ≠ .launch) :
    exec (.commandAccept c.id) s = .next (match c.kind with
      | .copy fn =>
        let s1 : State := { s.takenUp c with cmds := (s.takenUp c).cmds.map (fun (x : Cmd) =>
          if x.arg = c.id ∧ x.kind = .mma ∧ x.state = .retired ∧ x.gid = c.gid ∧ x.seq = c.seq ∧ x.cbatch = none then
            { s.withRows c.flag x with state := .waiting } else x) }
        if (copyShape fn c.regs).words = 0 then s1.endCmd c.id else s1.post (.copyComplete c.id)
      | .mma =>
        if (c.w 0).getLsbD 22 then
          let s1 := (s.takenUp c).modCmd c.id (fun x => { x with state := .waiting })
          match s1.cmds.find? (fun x => x.joint.contains c.id) with
          | some first => if s1.jointReady first then s1.post (.jointMmaStart first.id) else s1
          | none => s1
        else (s.takenUp c).kick c.gid
      | .mmag => if c.w 2 = 0 then (s.takenUp c).endCmd c.id else (s.takenUp c).kick c.gid
      | .accz | .accrs => (s.takenUp c).kick c.gid
      | .accrd =>
        let ds := (s.takenUp c).drainWords c
        let s1 := ((s.takenUp c).modCmd c.id (fun x => { x with dests := ds })).spoil c.gid ds
        (s1.modCmd c.id (fun x => { x with rows := s1.drainHeld c.gid ds })).kick c.gid
      | .mmv => (s.takenUp c).post (.mmvComplete c.id)
      | .cfetch => (s.takenUp c).post (.overlayFetchComplete c.core c.ctx c.arg)
      | .cred _ => if c.w 4 = 0 then (s.takenUp c).endCmd c.id else (s.takenUp c).post (.credContributionArrival c.id)
      | .launch => (s.takenUp c).post (.launchRecordRead c.id)
      | .syscall => s.takenUp c) := by
  show execCommandAccept c.id s = _
  unfold execCommandAccept
  rw [h]
  dsimp only
  rw [if_neg (not_not.2 hret), if_neg hk, if_neg hk]
  rfl
end

/-! ## What acceptance reads (R20, R234, R240, R275) -/

section
variable {β : Type} {pi : State → β}

theorem spoil_keeps (hl : ∀ s gid (lanes : Group → List Lane), pi (s.modGroup gid (fun g => { g with lanes := lanes g })) = pi s)
    (hf : ∀ s n, pi { s with free := n } = pi s) (s : State) (gid : Nat) (ds : List (Nat × List (Nat × Word))) : pi (s.spoil gid ds) = pi s :=
  foldl_keeps pi (fun t _ => foldl_keeps pi (fun u _ => (hf _ _).trans (hl u gid _)) _ t) ds s
end

/-- What the acceptance of a command has read. -/
structure Reads (u s : State) (c : Cmd) : Prop where
  accepts : Accepts u s c
  rows : c.kind = .mma → (c.w 0).getLsbD 21 = true → (u.cmd? c.id).map (·.rows) = some (s.registerRows c)
  drain : c.kind = .accrd → (u.cmd? c.id).map (·.dests) = some (s.drainWords c)
  parts : ∀ m ∈ s.cmds, c.kind = .copy 6 → (copyShape 6 c.regs).words ≠ 0 → m.id ≠ c.id → m.arg = c.id → m.kind = .mma → m.state = .retired → m.gid = c.gid →
    m.seq = c.seq → m.cbatch = none → (m.w 0).getLsbD 21 = true → ∃ e ∈ u.cmds, e.id = m.id ∧ e.state = .waiting ∧ e.rows = s.registerRows m

/-- The state of a copy that its engine has taken, with the matrix part of a CP.MMA waiting for it (R240). -/
def State.copyTaken (s : State) (c : Cmd) : State :=
  { s.takenUp c with cmds := (s.takenUp c).cmds.map (fun (x : Cmd) =>
      if x.arg = c.id ∧ x.kind = .mma ∧ x.state = .retired ∧ x.gid = c.gid ∧ x.seq = c.seq ∧ x.cbatch = none then
        { s.withRows c.flag x with state := .waiting } else x) }

section
variable {s : State} {c : Cmd}

theorem withRows_rows (s : State) (f : Option Nat) {x : Cmd} (h : (x.w 0).getLsbD 21 = true) : (s.withRows f x).rows = s.registerRows x := by
  unfold State.withRows
  rw [if_pos h]

theorem withRows_flag (s : State) (f : Option Nat) (x : Cmd) : (s.withRows f x).flag = x.flag := by
  unfold State.withRows
  split <;> rfl

theorem taken_rows (hk : c.kind = .mma) (h : (c.w 0).getLsbD 21 = true) : (Cmd.taken s c c).rows = s.registerRows c := by
  unfold Cmd.taken
  rw [if_pos hk]
  exact withRows_rows s c.flag h

theorem copyTaken_accepts (h : c.sid = s.st.sid) : Accepts (s.copyTaken c) s c := by
  refine (takenUp_accepts h).map (fun x => ?_) (fun x _ hx => ?_)
  · split
    · exact withRows_id s c.flag x
    · rfl
  · split
    · exact ⟨by simp, (withRows_flag s c.flag x).trans hx.2⟩
    · exact hx

theorem copyTaken_part {m : Cmd} (hm : m ∈ s.cmds) (hid : m.id ≠ c.id) (harg : m.arg = c.id ∧ m.kind = .mma ∧ m.state = .retired ∧ m.gid = c.gid ∧ m.seq = c.seq ∧
    m.cbatch = none) (hareg : (m.w 0).getLsbD 21 = true) :
    ∃ e ∈ (s.copyTaken c).cmds, e.id = m.id ∧ e.state = .waiting ∧ e.rows = s.registerRows m := by
  refine ⟨{ s.withRows c.flag m with state := .waiting }, List.mem_map.2 ⟨m, ?_, if_pos harg⟩, withRows_id s c.flag m, rfl, withRows_rows s c.flag hareg⟩
  rw [takenUp_cmds]
  exact List.mem_map.2 ⟨m, hm, if_neg hid⟩

theorem reads_copy {fn : Nat} (hsid : c.sid = s.st.sid) (hk : c.kind = .copy fn) :
    Reads (if (copyShape fn c.regs).words = 0 then (s.copyTaken c).endCmd c.id else (s.copyTaken c).post (.copyComplete c.id)) s c := by
  have hacc := copyTaken_accepts hsid
  refine ⟨?_, fun h => by simp [hk] at h, fun h => by simp [hk] at h, ?_⟩
  · split
    · exact hacc.endCmd
    · exact hacc.post _
  · intro m hm h6 hw hid harg hmk hret hgid hseq hcb hareg
    obtain rfl : fn = 6 := CmdKind.copy.inj (hk.symm.trans h6)
    rw [if_neg hw]
    exact copyTaken_part hm hid ⟨harg, hmk, hret, hgid, hseq, hcb⟩ hareg

/-- An MMA has read its rows; where it is joint it waits for the other members (R234). -/
theorem reads_mma {u : State} (hk : c.kind = .mma) (hacc : Accepts u s c) (hcmd : (u.cmd? c.id).map (·.rows) = some (Cmd.taken s c c).rows) : Reads u s c := by
  refine ⟨hacc, fun _ hareg => ?_, fun h => by simp [hk] at h, fun _ _ h => by simp [hk] at h⟩
  rw [hcmd, taken_rows hk hareg]

theorem reads_joint {u : State} {f : Option Cmd} (h : s.cmd? c.id = some c) (hsid : c.sid = s.st.sid) (hk : c.kind = .mma)
    (hu : u = match f with
      | some first => if ((s.takenUp c).modCmd c.id (fun x => { x with state := .waiting })).jointReady first then
          ((s.takenUp c).modCmd c.id (fun x => { x with state := .waiting })).post (.jointMmaStart first.id)
        else (s.takenUp c).modCmd c.id (fun x => { x with state := .waiting })
      | none => (s.takenUp c).modCmd c.id (fun x => { x with state := .waiting })) : Reads u s c := by
  have hacc : Accepts ((s.takenUp c).modCmd c.id (fun x => { x with state := .waiting })) s c :=
    (takenUp_accepts hsid).modCmd c.id (fun _ => rfl) (fun _ hx => ⟨by simp, hx.2⟩)
  have hcmd : (((s.takenUp c).modCmd c.id (fun x => { x with state := .waiting })).cmd? c.id).map (·.rows) = some (Cmd.taken s c c).rows := by
    rw [cmd?_modCmd (s.takenUp c) c.id (fun x => { x with state := .waiting }) (fun _ => rfl), takenUp_cmd? h]
    rfl
  subst hu
  split
  · split
    · exact reads_mma hk (hacc.post _) hcmd
    · exact reads_mma hk hacc hcmd
  · exact reads_mma hk hacc hcmd

theorem takenUp_drainWords : (s.takenUp c).drainWords c = s.drainWords c := flagDone_keeps (fun t => t.drainWords c) (fun _ _ _ => rfl) s c.sid c.id c.flag

/-- The state of an ACCRD that its engine has taken: the registers that it names hold free words, and it knows which (R235, R275). -/
def State.drainTaken (s : State) (c : Cmd) : State :=
  ((s.takenUp c).modCmd c.id (fun x => { x with dests := (s.takenUp c).drainWords c })).spoil c.gid ((s.takenUp c).drainWords c)

theorem drainTaken_cmds : (s.drainTaken c).cmds = ((s.takenUp c).modCmd c.id (fun x => { x with dests := (s.takenUp c).drainWords c })).cmds :=
  spoil_keeps (fun _ _ _ => rfl) (fun _ _ => rfl) _ _ _

theorem reads_accrd {rows : List (List Word)} (h : s.cmd? c.id = some c) (hsid : c.sid = s.st.sid) (hk : c.kind = .accrd) :
    Reads (((s.drainTaken c).modCmd c.id (fun x => { x with rows := rows })).kick c.gid) s c := by
  have htaken : Accepts ((s.takenUp c).modCmd c.id (fun x => { x with dests := (s.takenUp c).drainWords c })) s c :=
    (takenUp_accepts hsid).modCmd c.id (fun _ => rfl) (fun _ hx => hx)
  have hmem : (s.drainTaken c).sameMem ((s.takenUp c).modCmd c.id (fun x => { x with dests := (s.takenUp c).drainWords c })) :=
    ⟨spoil_keeps (pi := State.mem) (fun _ _ _ => rfl) (fun _ _ => rfl) _ _ _, spoil_keeps (pi := State.host) (fun _ _ _ => rfl) (fun _ _ => rfl) _ _ _⟩
  have hst : (s.drainTaken c).st.flags = ((s.takenUp c).modCmd c.id (fun x => { x with dests := (s.takenUp c).drainWords c })).st.flags :=
    spoil_keeps (pi := fun t => t.st.flags) (fun _ _ _ => rfl) (fun _ _ => rfl) _ _ _
  have hacc := htaken.keeps hmem hst drainTaken_cmds
  refine ⟨(hacc.modCmd (f := fun x => { x with rows := rows }) c.id (fun _ => rfl) (fun _ hx => hx)).kick c.gid, fun hm => by simp [hk] at hm, fun _ => ?_, fun _ _ hm => by simp [hk] at hm⟩
  rw [cmd?_congr (kick_cmds _ c.gid), cmd?_modCmd (s.drainTaken c) c.id (fun x => { x with rows := rows }) (fun _ => rfl), cmd?_congr drainTaken_cmds,
    cmd?_modCmd (s.takenUp c) c.id (fun x => { x with dests := (s.takenUp c).drainWords c }) (fun _ => rfl),
    takenUp_cmd? h]
  exact congrArg some takenUp_drainWords

/-- A command of another kind reads no register as its engine takes it. -/
theorem reads_plain {u : State} (hacc : Accepts u s c) (h1 : c.kind ≠ .mma) (h2 : c.kind ≠ .accrd) (h3 : c.kind ≠ .copy 6) : Reads u s c :=
  ⟨hacc, fun h => absurd h h1, fun h => absurd h h2, fun _ _ h => absurd h h3⟩

/-- An engine takes a command that has retired (R219, R20). -/
theorem commandAccept_reads (h : s.cmd? c.id = some c) (hret : c.state = .retired) (hl : c.kind ≠ .launch) (hsid : c.sid = s.st.sid) :
    ∃ u, exec (.commandAccept c.id) s = .next u ∧ Reads u s c := by
  have hacc := takenUp_accepts hsid
  refine ⟨_, commandAccept_eq h hret hl, ?_⟩
  cases hk : c.kind with
  | copy fn => exact reads_copy hsid hk
  | mma =>
    dsimp only
    split
    · exact reads_joint h hsid hk rfl
    · refine reads_mma hk (hacc.kick _) ?_
      rw [cmd?_congr (kick_cmds _ c.gid), takenUp_cmd? h]
      rfl
  | mmag =>
    refine reads_plain ?_ (by simp [hk]) (by simp [hk]) (by simp [hk])
    dsimp only
    split
    · exact hacc.endCmd
    · exact hacc.kick _
  | accrd => exact reads_accrd h hsid hk
  | cred n =>
    refine reads_plain ?_ (by simp [hk]) (by simp [hk]) (by simp [hk])
    dsimp only
    split
    · exact hacc.endCmd
    · exact hacc.post _
  | accz => exact reads_plain (hacc.kick _) (by simp [hk]) (by simp [hk]) (by simp [hk])
  | accrs => exact reads_plain (hacc.kick _) (by simp [hk]) (by simp [hk]) (by simp [hk])
  | mmv => exact reads_plain (hacc.post _) (by simp [hk]) (by simp [hk]) (by simp [hk])
  | cfetch => exact reads_plain (hacc.post _) (by simp [hk]) (by simp [hk]) (by simp [hk])
  | syscall => exact reads_plain hacc (by simp [hk]) (by simp [hk]) (by simp [hk])
  | launch => exact absurd hk hl
end

/-- Row k of the registers of an MMA with AREG (R234). -/
theorem registerRows_get (s : State) (c : Cmd) {k i : Nat} (hk : k < 64) (hi : i < 16) (z : Word) : ((s.registerRows c).getD k []).getD i z =
    if k < (s.groupOf c.gid).width ∧ c.exm.has k = true then
      ((((s.groupOf c.gid).lanes.getD k Lane.start).winWord ((c.w 1).toNat % 64 + i)).elim 0 (((s.groupOf c.gid).lanes.getD k Lane.start).word (s.groupOf c.gid).allot))
    else 0 := by
  simp [State.registerRows, List.getD, hk, hi]

/-! ## Parking, resuming and starting (R227, R234, R240) -/

section
variable {β : Type} {pi : State → β}

theorem putTarget_keeps (hg : ∀ s gid (f : Group → Group), pi (s.modGroup gid f) = pi s) (s : State) (c : Cmd) (side : Side) (w : Word) :
    pi (s.putTarget c side w) = pi s := by
  cases side with
  | glob va => rfl
  | scr o => rfl
  | lane gid l f =>
    unfold State.putTarget State.landLane
    exact hg s gid _
  | tile gid t r k => exact hg s gid _

theorem ite_keeps {p : Prop} [Decidable p] {a b s : State} (ha : pi a = pi s) (hb : pi b = pi s) : pi (if p then a else b) = pi s := by
  split
  · exact ha
  · exact hb

theorem spoilTarget_keeps (hg : ∀ s gid (f : Group → Group), pi (s.modGroup gid f) = pi s) (hf : ∀ s n, pi { s with free := n } = pi s) (s : State) (c : Cmd) (k : Nat) :
    pi (s.spoilTarget c k) = pi s := by
  unfold State.spoilTarget
  split
  · next fn _ =>
    have hput (t : State) (i : Nat) : pi ((t.putTarget c (t.copyWord c fn (k + i)).2 (Config.freeWord t.free)).useFree 1) = pi t :=
      (hf _ _).trans (putTarget_keeps hg t c _ _)
    exact ite_keeps (foldl_keeps pi hput _ s) rfl
  · rfl
end

/-- The state of a command that has parked, before the pager knows (R227). -/
def State.parkedAt (s : State) (c : Cmd) (va : Nat) (write host : Bool) : State :=
  (((s.dropAnswersOf c.id).modCmd c.id (fun x => { x with state := .parked va, peer := none })).traceFault c va 0x1F write host).spoilTarget c c.progress

section
variable {β : Type} {pi : State → β} {s : State} {c : Cmd} {va : Nat} {write host : Bool}

theorem parkedAt_keeps (hg : ∀ s gid (f : Group → Group), pi (s.modGroup gid f) = pi s) (hf : ∀ s n, pi { s with free := n } = pi s)
    (ht : ∀ s cl, pi { s with clusters := cl } = pi s) :
    pi (s.parkedAt c va write host) = pi ((s.dropAnswersOf c.id).modCmd c.id (fun x => { x with state := .parked va, peer := none })) :=
  (spoilTarget_keeps hg hf _ c _).trans (trace_keeps pi ht _ _ _ _ _ _)

theorem parkedAt_cmd? (h : s.cmd? c.id = some c) : ((s.parkedAt c va write host).cmd? c.id).map (·.state) = some (.parked va) := by
  rw [cmd?_congr (parkedAt_keeps (pi := State.cmds) (fun _ _ _ => rfl) (fun _ _ => rfl) (fun _ _ => rfl)),
    cmd?_modCmd (s.dropAnswersOf c.id) c.id (fun x => { x with state := .parked va, peer := none }) (fun _ => rfl), show (s.dropAnswersOf c.id).cmd? c.id = some c from h]
  rfl

theorem copyPageFault_parks (h : s.cmd? c.id = some c) (hw : s.window c.ctx va = none) (hp : s.ofPair c = false) :
    ∃ u, exec (.copyPageFault c.id va) s = .next u ∧ u.sameMem s ∧ (u.cmd? c.id).map (·.state) = some (.parked va) ∧ .deviceFault c.ctx va false ∈ u.out := by
  have he : exec (.copyPageFault c.id va) s = .next ((s.parkedAt c va false false).tellFault c.die c.ctx va needR false false) := by
    show execCopyPageFault c.id va s = _
    unfold execCopyPageFault
    rw [h]
    dsimp only
    unfold State.parkCmd
    rw [if_neg (by simp [hp])]
    rfl
  have hwin : (s.parkedAt c va false false).window c.ctx va = none :=
    (parkedAt_keeps (pi := fun t => t.window c.ctx va) (fun _ _ _ => rfl) (fun _ _ => rfl) (fun _ _ => rfl)).trans hw
  have htell : (s.parkedAt c va false false).tellFault c.die c.ctx va needR false false = (s.parkedAt c va false false).ask (.deviceFault c.ctx va false) := by
    unfold State.tellFault
    rw [hwin]
    rfl
  rw [htell] at he
  refine ⟨_, he, ⟨parkedAt_keeps (pi := State.mem) (fun _ _ _ => rfl) (fun _ _ => rfl) (fun _ _ => rfl),
    parkedAt_keeps (pi := State.host) (fun _ _ _ => rfl) (fun _ _ => rfl) (fun _ _ => rfl)⟩, parkedAt_cmd? h, List.mem_append_right _ (List.mem_singleton.2 rfl)⟩

theorem copyResume_accepts {fn : Nat} (h : s.cmd? c.id = some c) (hs : c.state = .parked va) (hk : c.kind = .copy fn) :
    ∃ u, exec (.copyResume c.id) s = .next u ∧ u.sameMem s ∧ (u.cmd? c.id).map (·.state) = some .accepted ∧ .copyComplete c.id ∈ u.events := by
  have he : exec (.copyResume c.id) s = .next ((s.modCmd c.id (fun x => { x with state := .accepted })).post (.copyComplete c.id)) := by
    show Host.Outcome.next (s.resumeCmd c.id) = _
    unfold State.resumeCmd
    rw [h]
    dsimp only
    rw [hs, hk]
    rfl
  refine ⟨_, he, sameMem_refl s, ?_, List.mem_append_right _ (List.mem_singleton.2 rfl)⟩
  show ((s.modCmd c.id (fun x => { x with state := .accepted })).cmd? c.id).map (·.state) = _
  rw [cmd?_modCmd s c.id (fun x => { x with state := .accepted }) (fun _ => rfl), h]
  rfl

theorem kick_sameMem (s : State) (gid : Nat) : (s.kick gid).sameMem s :=
  ⟨kick_keeps (pi := State.mem) (fun _ _ => rfl) s gid, kick_keeps (pi := State.host) (fun _ _ => rfl) s gid⟩

/-- Row p of A as the members of a joint command give it at their partition lanes (R234). -/
def State.jointRow (s : State) (c : Cmd) (p : Nat) : List Word :=
  (c.joint.findSome? (fun i => match s.cmd? i with
    | none => none
    | some m =>
      if 8 * (s.groupOf m.gid).seg ≤ p ∧ p < 8 * (s.groupOf m.gid).seg + (s.groupOf m.gid).width then m.rows[p - 8 * (s.groupOf m.gid).seg]? else none)).getD
    (List.replicate 16 0)

theorem jointMmaStart_accepts (h : s.cmd? c.id = some c) (hs : c.state = .waiting) (hj : s.jointReady c = true) :
    ∃ u, exec (.jointMmaStart c.id) s = .next u ∧ u.sameMem s ∧ (u.cmd? c.id).map (·.state) = some .accepted ∧ (u.cmd? c.id).map (·.rows.length) = some 64 := by
  have he : exec (.jointMmaStart c.id) s =
      .next ((s.modCmd c.id (fun x => { x with state := .accepted, rows := (List.range 64).map (s.jointRow c) })).kick c.gid) := by
    show execJointMmaStart c.id s = _
    unfold execJointMmaStart
    rw [h]
    dsimp only
    rw [if_neg (by simp [hs, hj])]
    rfl
  have hcmd : ((s.modCmd c.id (fun x => { x with state := .accepted, rows := (List.range 64).map (s.jointRow c) })).kick c.gid).cmd? c.id =
      some { c with state := .accepted, rows := (List.range 64).map (s.jointRow c) } := by
    rw [cmd?_congr (kick_cmds _ c.gid), cmd?_modCmd s c.id (fun x => { x with state := .accepted, rows := (List.range 64).map (s.jointRow c) }) (fun _ => rfl), h]
    rfl
  refine ⟨_, he, kick_sameMem _ c.gid, ?_, ?_⟩
  · rw [hcmd]
    rfl
  · rw [hcmd]
    simp

theorem cpMmaHandoff_accepts (h : s.cmd? c.id = some c) (hs : c.state = .waiting) (hk : c.kind = .mma) (hj : (c.w 0).getLsbD 22 = false)
    (hcopy : ∀ k ∈ s.cmds, k.id = c.arg → k.state = .done) :
    ∃ u, exec (.cpMmaHandoff c.id) s = .next u ∧ u.sameMem s ∧ (u.cmd? c.id).map (·.state) = some .accepted := by
  have hdone : s.copyDone c = true := by
    have hall : s.cmds.all (fun k => k.id != c.arg || decide (k.state = .done)) = true := by
      refine List.all_eq_true.2 (fun k hk => ?_)
      by_cases e : k.id = c.arg
      · simp [hcopy k hk e]
      · simp [e]
    simp only [State.copyDone, hs, hk, hj, hall, decide_true, Bool.not_false, Bool.and_self]
  have he : exec (.cpMmaHandoff c.id) s = .next ((s.modCmd c.id (fun x => { x with state := .accepted })).kick c.gid) := by
    show execCpMmaHandoff c.id s = _
    unfold execCpMmaHandoff
    rw [h]
    dsimp only
    rw [if_pos hdone]
  refine ⟨_, he, kick_sameMem _ c.gid, ?_⟩
  rw [cmd?_congr (kick_cmds _ c.gid), cmd?_modCmd s c.id (fun x => { x with state := .accepted }) (fun _ => rfl), h]
  rfl

theorem cpMmaHandoff_waits (h : s.cmd? c.id = some c) (hcopy : ∃ k ∈ s.cmds, k.id = c.arg ∧ k.state ≠ .done) : exec (.cpMmaHandoff c.id) s = .next s := by
  obtain ⟨k, hk, hid, hno⟩ := hcopy
  have hall : s.cmds.all (fun k => k.id != c.arg || decide (k.state = .done)) = false := by
    refine Bool.not_eq_true _ ▸ (fun hc => ?_)
    have := List.all_eq_true.1 hc k hk
    simp [hid, hno] at this
  show execCpMmaHandoff c.id s = _
  unfold execCpMmaHandoff
  rw [h]
  dsimp only
  rw [if_neg (by simp [State.copyDone, hall])]
end

/-! ## Tile commands and the table of an MMAG (R237 to R239) -/

/-- The classes of n tiles set one by one, where no younger command has set one (R278). -/
def Group.setClasses (g : Group) (id lo n : Nat) (cls : TileClass) : Group := (List.range n).foldl (fun k i => k.setClass id (lo + i) cls) g

theorem setClass_of_le {g : Group} {id t : Nat} (cls : TileClass) (h : sparseGet 0 g.classBy t ≤ id) : g.setClass id t cls =
    { g with tiles := g.tiles.modify t (fun x => { x with cls := cls }), classBy := sparsePut 0 g.classBy t id } := if_pos h

theorem setClasses_tiles (g : Group) (id lo n : Nat) (cls : TileClass) (h : ∀ i, sparseGet 0 g.classBy i ≤ id) :
    (g.setClasses id lo n cls).tiles = g.tiles.mapIdx (fun i x => if lo ≤ i ∧ i < lo + n then { x with cls := cls } else x) ∧
      ∀ i, sparseGet 0 (g.setClasses id lo n cls).classBy i ≤ id := by
  induction n with
  | zero =>
    refine ⟨(List.ext_getElem? (fun i => ?_)), h⟩
    simp only [Group.setClasses, List.range_zero, List.foldl_nil, List.getElem?_mapIdx]
    rw [show (fun x : Tile => if lo ≤ i ∧ i < lo + 0 then { x with cls := cls } else x) = (fun x => x) from funext (fun x => if_neg (by omega))]
    simp
  | succ n ih =>
    obtain ⟨htiles, hby⟩ := ih
    have hstep : g.setClasses id lo (n + 1) cls = (g.setClasses id lo n cls).setClass id (lo + n) cls := by
      unfold Group.setClasses
      rw [List.range_succ, List.foldl_append]
      rfl
    rw [hstep, setClass_of_le cls (hby (lo + n))]
    refine ⟨List.ext_getElem? (fun i => ?_), fun i => ?_⟩
    · simp only [List.getElem?_modify, htiles, List.getElem?_mapIdx]
      cases g.tiles[i]? with
      | none => rfl
      | some x =>
        by_cases hi : lo + n = i
        · subst hi
          simp
        · by_cases hin : lo ≤ i ∧ i < lo + n
          · simp [hi, hin, show lo ≤ i ∧ i < lo + (n + 1) from ⟨hin.1, by omega⟩]
          · simp [hi, hin, show ¬ (lo ≤ i ∧ i < lo + (n + 1)) from by omega]
    · show sparseGet 0 (sparsePut 0 _ _ _) i ≤ id
      rw [sparseGet_put]
      split
      · exact Nat.le_refl id
      · exact hby i

section
variable {s : State} {c : Cmd}

/-- An ACCZ that runs empties its tiles (R274). -/
theorem accz_empties (hh : s.matrixHead c.gid = some c) (hk : c.kind = .accz) (hs : c.state = .accepted) (hg : c.gid = s.gr.gid)
    (hby : ∀ i, sparseGet 0 s.gr.classBy i ≤ c.id) :
    ∃ u, exec (.matrixOperation c.gid) s = .next u ∧ exec (.tileCommandComplete c.gid) s = .next u ∧ u.sameMem s ∧ u.ended c.id ∧
      u.gr.tiles = s.gr.tiles.mapIdx (fun i x => if (c.w 0).toNat ≤ i ∧ i < (c.w 0).toNat + (c.w 1).toNat then ⟨.empty, []⟩ else x) := by
  have hop : exec (.matrixOperation c.gid) s = .next (s.tileRun c) := by
    show execMatrixOperation c.gid s = _
    unfold execMatrixOperation
    rw [hh]
    dsimp only
    rw [if_neg (not_not.2 hs), if_neg (by simp [hk])]
  have hcomplete : exec (.tileCommandComplete c.gid) s = .next (s.tileRun c) := by
    show execTileCommandComplete c.gid s = _
    unfold execTileCommandComplete
    rw [hh]
    dsimp only
    rw [if_pos hs]
  have hrun : s.tileRun c = (s.modGroup c.gid (fun h => ({ h with tiles := h.tiles.mapIdx (fun i x =>
      if (c.w 0).toNat ≤ i ∧ i < (c.w 0).toNat + (c.w 1).toNat then { x with data := [] } else x) } : Group).setClasses c.id (c.w 0).toNat (c.w 1).toNat .empty)).endCmd c.id := by
    unfold State.tileRun
    rw [hk]
    rfl
  refine ⟨_, hop, hcomplete, ?_, ?_, ?_⟩
  · rw [hrun]
    exact sameMem_trans _ _ _ (endCmd_sameMem _ c.id) ⟨rfl, rfl⟩
  · rw [hrun]
    exact endCmd_ended _ c.id
  · rw [hrun, endCmd_gr]
    unfold State.modGroup State.mapGroups
    dsimp only
    rw [if_pos hg.symm]
    refine (setClasses_tiles { s.gr with tiles := s.gr.tiles.mapIdx (fun i x =>
      if (c.w 0).toNat ≤ i ∧ i < (c.w 0).toNat + (c.w 1).toNat then { x with data := [] } else x) } c.id _ _ .empty hby).1.trans ?_
    rw [List.mapIdx_mapIdx]
    refine List.mapIdx_eq_mapIdx_iff.2 (fun i hi => ?_)
    dsimp only [Function.comp]
    split <;> rfl

theorem mmagEntry_ends (h : s.cmd? c.id = some c) (hk : c.kind = .mmag) (hs : c.state = .accepted) (hend : (c.w 2).toNat ≤ c.progress) :
    ∃ u, exec (.mmagEntry c.id) s = .next u ∧ u.sameMem s ∧ u.ended c.id := by
  refine ⟨s.endCmd c.id, ?_, endCmd_sameMem s c.id, endCmd_ended s c.id⟩
  show execMmagEntry c.id s = _
  unfold execMmagEntry
  rw [h]
  dsimp only
  rw [if_neg (by simp [hk, hs]), if_pos hend]

/-- The state in which an MMAG goes on to its next entry (R239). -/
def State.nextEntry (t : State) (id : Nat) : State := (t.modCmd id (fun x => { x with progress := x.progress + 1, buf := [] })).post (.mmagEntry id)

/-- What an MMAG does with an entry that it has read (R239). -/
theorem mmagEntry_eq {t : State} {e : List Word} (h : s.cmd? c.id = some c) (hk : c.kind = .mmag) (hs : c.state = .accepted) (hlt : c.progress < (c.w 2).toNat)
    (he : s.entryWords c.id (vaPair (c.w 0) (c.w 1) + 32 * c.progress) 9 = (t, some e)) : exec (.mmagEntry c.id) s = .next (
      if (mmagDesc e).m = 0 then t.nextEntry c.id
      else match (mmagDesc e).check c.fmt (t.groupOf c.gid).tiles.length (t.unitOf (t.groupOf c.gid).uid) (t.groupOf c.gid).coreIndex (t.classAt (t.groupOf c.gid) c) with
        | some cause => t.failCmd c.id cause c.progress
        | none => if t.operandHurt c (t.groupOf c.gid) (t.unitOf (t.groupOf c.gid).uid) (mmagDesc e) then t.failCmd c.id .prot c.progress
          else (t.runOps c (mmagDesc e) 0 ((mmagDesc e).tiles * (mmagDesc e).slices c.fmt)).nextEntry c.id) := by
  show execMmagEntry c.id s = _
  unfold execMmagEntry
  rw [h]
  dsimp only
  rw [if_neg (by simp [hk, hs]), if_neg (Nat.not_le.2 hlt), he]
  rfl

/-- s with words in the buffer of its commands; what a translation goes by is not in one. -/
def State.withCmds (s : State) (cs : List Cmd) : State := { s with cmds := cs }

theorem tlbFill_withCmds (s : State) (cs : List Cmd) (core ctx va : Nat) : (s.withCmds cs).tlbFill core ctx va = (s.tlbFill core ctx va).withCmds cs := by
  unfold State.tlbFill
  rw [show (s.withCmds cs).tlbHit core ctx va = s.tlbHit core ctx va from rfl, show (s.withCmds cs).walkVa ctx va = s.walkVa ctx va from rfl]
  split <;> rfl

theorem engWalk_withCmds {die ctx va : Nat} (cs : List Cmd) (h : s.engWalk die ctx va = s) : (s.withCmds cs).engWalk die ctx va = s.withCmds cs := by
  have hc : (s.withCmds cs).engWalk die ctx va = (s.engWalk die ctx va).withCmds cs := by
    unfold State.engWalk
    split
    · rfl
    · unfold State.noteWalk
      split
      · next hhit =>
        rw [if_pos (show ((s.tlbHit (engineCore die) ctx va).isSome || (s.window ctx va).isSome || s.walkerLoaded (dieOf (engineCore die))) = true from hhit)]
      · next hhit =>
        rw [if_neg (show ¬ ((s.tlbHit (engineCore die) ctx va).isSome || (s.window ctx va).isSome || s.walkerLoaded (dieOf (engineCore die))) = true from hhit), tlbFill_withCmds]
        rfl
  rw [hc, h]

theorem cmdTrans_withCmds (cs : List Cmd) {c' : Cmd} (hd : c'.die = c.die) (hx : c'.ctx = c.ctx) (hid : c'.id = c.id) (hch : c'.seesChip = c.seesChip) (va : Nat)
    (need : BitVec 3) : (s.withCmds cs).cmdTrans c' va need = s.cmdTrans c va need := by
  unfold State.cmdTrans
  rw [hd, hx, hid, hch]
  rfl
/-- A word that an engine reads at a place that its TLB gives. -/
theorem engWord_of_ok {va : Nat} {l : Loc} (hw : s.engWalk c.die c.ctx va = s) (ht : s.cmdTrans c va needR = .ok l) :
    s.engWord c va = (s, some (BitVec.ofNat 32 (s.getN l 4))) := by
  unfold State.engWord State.engAt
  simp only [Bool.false_eq_true, if_false]
  rw [ht]
  dsimp only
  rw [hw]

/-- The first n words of a table entry. -/
def State.entryRead (s : State) (pa n : Nat) : List Word := (List.range n).map (fun k => BitVec.ofNat 32 (s.getN (.dev (pa + 4 * k)) 4))

theorem entryWords_from {va pa : Nat} (hread : ∀ k, k < 8 → s.engWalk c.die c.ctx (va + 4 * k) = s ∧ s.cmdTrans c (va + 4 * k) needR = .ok (.dev (pa + 4 * k)))
    (n j : Nat) (cs : List Cmd) (hj : j + n = 8) (hc : (s.withCmds cs).cmd? c.id = some { c with buf := s.entryRead pa j }) :
    ((s.withCmds cs).entryWords c.id va (n + 1)).2 = some (s.entryRead pa 8) := by
  have hlen : (s.entryRead pa j).length = j := by simp [State.entryRead]
  induction n generalizing j cs with
  | zero =>
    have h8 : j = 8 := by omega
    subst h8
    unfold State.entryWords
    rw [hc]
    dsimp only
    rw [if_pos (by rw [hlen])]
  | succ n ih =>
    obtain ⟨hw, ht⟩ := hread j (by omega)
    have hword : (s.withCmds cs).engWord { c with buf := s.entryRead pa j } (va + 4 * j) =
        (s.withCmds cs, some (BitVec.ofNat 32 ((s.withCmds cs).getN (.dev (pa + 4 * j)) 4))) :=
      engWord_of_ok (engWalk_withCmds cs hw) ((cmdTrans_withCmds cs rfl rfl rfl rfl _ _).trans ht)
    unfold State.entryWords
    rw [hc]
    dsimp only
    rw [if_neg (by rw [hlen]; omega), hlen, hword]
    refine ih (j + 1) (cs.map (fun x => if x.id = c.id then { x with buf := x.buf ++ [BitVec.ofNat 32 ((s.withCmds cs).getN (.dev (pa + 4 * j)) 4)] } else x))
      (by omega) ?_ (by simp [State.entryRead])
    refine (cmd?_modCmd (s.withCmds cs) c.id (fun x => { x with buf := x.buf ++ [BitVec.ofNat 32 ((s.withCmds cs).getN (.dev (pa + 4 * j)) 4)] }) (fun _ => rfl)).trans ?_
    rw [hc]
    unfold State.entryRead
    rw [List.range_succ, List.map_append]
    rfl
end

/-- Settles O48: acceptance, parking, resumption and the starts each by the event's own lemma. -/
theorem engineProgress : Obligations.EngineProgress := by
  intro s c hc
  refine ⟨fun hret hl hsid => ?_, fun k i hk hi => registerRows_get s c hk hi 1, fun va hw hp => copyPageFault_parks hc hw hp, fun va fn hs hk => copyResume_accepts hc hs hk,
    fun hs hj _ => jointMmaStart_accepts hc hs hj, fun hs hk hj hcopy => cpMmaHandoff_accepts hc hs hk hj hcopy, fun _ hcopy => cpMmaHandoff_waits hc hcopy,
    fun hh hk hs hg hby => accz_empties hh hk hs hg hby, fun hk hs hend => mmagEntry_ends hc hk hs hend, fun hk hs hlt => ⟨fun pa hbuf hread => ?_, fun t e he => ?_⟩⟩
  · obtain ⟨u, he, hread⟩ := commandAccept_reads hc hret hl hsid
    exact ⟨u, he, hread.accepts.mem, hread.accepts.cmds, hread.accepts.flags, hread.rows, hread.drain, hread.parts⟩
  · refine entryWords_from hread 8 0 s.cmds rfl (hc.trans ?_)
    rw [show s.entryRead pa 0 = c.buf from hbuf.symm]
  · refine ⟨fun hm => ?_, fun hm hcheck hhurt => ?_, fun cause hm hcheck => ?_⟩ <;> rw [mmagEntry_eq hc hk hs hlt he]
    · rw [if_pos hm]
      rfl
    · rw [if_neg hm, hcheck]
      dsimp only
      rw [if_neg (by simp [hhurt])]
      rfl
    · rw [if_neg hm, hcheck]

end Sys2Proof.Machine
end

section
/-!
SUPPORT. Words that an engine puts into a scratchpad window (R161, R162), and translations that an engine's TLB gives.
-/
namespace Sys2Proof.Machine

/-! ## A window of a unit that is not cooperative -/

/-- A unit's part of a core without what its window holds. -/
def UnitCore.bare (c : UnitCore) : UnitCore := { c with window := [] }

/-- A unit without what its windows hold. -/
def UnitRec.bare (u : UnitRec) : UnitRec := { u with cores := u.cores.map UnitCore.bare }

/-- A byte of a core's scratchpad written in every unit that has a part there. -/
def UnitRec.setScratch (u : UnitRec) (d k off : Nat) (v : Byte) : UnitRec :=
  { u with cores := u.cores.map (fun c => if c.die = d ∧ c.core = k then c.setByteAt u.scratch off v else c) }

/-- What a group's window holds at an offset. -/
def State.windowByte (s : State) (g : Group) (i : Nat) : Byte := (((s.unitOf g.uid).cores[g.coreIndex]?).map (fun c => c.window.get i)).getD 0

theorem setByteAt_bare (c : UnitCore) (n off : Nat) (v : Byte) : (c.setByteAt n off v).bare = c.bare := by
  unfold UnitCore.setByteAt
  split <;> rfl

theorem setScratch_bare (u : UnitRec) (d k off : Nat) (v : Byte) : (u.setScratch d k off v).bare = u.bare := by
  have h : (u.cores.map (fun c => if c.die = d ∧ c.core = k then c.setByteAt u.scratch off v else c)).map UnitCore.bare = u.cores.map UnitCore.bare := by
    rw [List.map_map]
    refine List.map_congr_left (fun c _ => ?_)
    dsimp only [Function.comp]
    split
    · exact setByteAt_bare c _ _ v
    · rfl
  exact congrArg (fun cs => ({ u with cores := cs } : UnitRec)) h

theorem scr_bare {u w : UnitRec} (h : u.bare = w.bare) (ci o n : Nat) : u.scr ci o n = w.scr ci o n := by
  have hb : ∀ x : UnitRec, x.bare.scr ci o n = x.scr ci o n := by
    intro x
    have hl : x.bare.locate ci o n = x.locate ci o n := by
      unfold UnitRec.locate
      simp only [UnitRec.bare, List.length_map]
      rfl
    unfold UnitRec.scr
    rw [hl]
    split
    · rfl
    · simp only [UnitRec.bare, List.getElem?_map, Option.map_map]
      rfl
  rw [← hb u, h, hb w]

section
variable {s t : State} {g : Group} {o n : Nat}

theorem ownWindow_bare (h : (t.unitOf g.uid).bare = (s.unitOf g.uid).bare) (hw : s.ownWindow g o n) : t.ownWindow g o n := by
  obtain ⟨hcoop, hin, c, hc, hd, hk, hlo, hhi⟩ := hw
  have hscratch : (t.unitOf g.uid).scratch = (s.unitOf g.uid).scratch := (congrArg UnitRec.scratch h :)
  have hcore : ((t.unitOf g.uid).cores[g.coreIndex]?).map UnitCore.bare = some c.bare := by
    have hcores : (t.unitOf g.uid).cores.map UnitCore.bare = (s.unitOf g.uid).cores.map UnitCore.bare := congrArg UnitRec.cores h
    rw [← List.getElem?_map, hcores, List.getElem?_map, hc]
    rfl
  obtain ⟨x, hx, hxc⟩ := Option.map_eq_some_iff.1 hcore
  have hdie : x.die = c.die := (congrArg UnitCore.die hxc :)
  have hcoreNo : x.core = c.core := (congrArg UnitCore.core hxc :)
  have hbase : x.base = c.base := (congrArg UnitCore.base hxc :)
  refine ⟨(congrArg UnitRec.coop h :).trans hcoop, hscratch ▸ hin, x, hx, hdie ▸ hd, hcoreNo ▸ hk, hbase ▸ hlo, ?_⟩
  rw [hbase, hscratch]
  exact hhi

theorem ownWindow_part {p m : Nat} (hw : s.ownWindow g o n) (h : p + m ≤ o + n) : s.ownWindow g p m :=
  ⟨hw.1, Nat.le_trans h hw.2.1, hw.2.2⟩

/-- Where offset 0 of a group's window lies. -/
def State.windowBase (s : State) (g : Group) : Nat :=
  (((s.unitOf g.uid).cores[g.coreIndex]?).map (fun c => Config.onChip + c.die * 2 ^ 44 + c.core * 2 ^ 38 + c.base)).getD 0

theorem windowBase_bare (h : (t.unitOf g.uid).bare = (s.unitOf g.uid).bare) : t.windowBase g = s.windowBase g := by
  have hb : ∀ u : State, (((u.unitOf g.uid).bare.cores[g.coreIndex]?).map (fun c => Config.onChip + c.die * 2 ^ 44 + c.core * 2 ^ 38 + c.base)).getD 0 = u.windowBase g := by
    intro u
    unfold State.windowBase
    simp only [UnitRec.bare, List.getElem?_map, Option.map_map]
    rfl
  rw [← hb t, h, hb s]

theorem ownWindow_scr (hw : s.ownWindow g o n) : (s.unitOf g.uid).scr g.coreIndex o n = some (.dev (s.windowBase g + o)) := by
  obtain ⟨hcoop, hin, c, hc, _⟩ := hw
  unfold UnitRec.scr UnitRec.locate State.windowBase
  rw [hcoop, hc]
  simp [hin, hc]

theorem unit?_of_core {uid ci : Nat} {c : UnitCore} (h : (s.unitOf uid).cores[ci]? = some c) : s.unit? uid = some (s.unitOf uid) := by
  unfold State.unitOf at h ⊢
  cases hu : s.unit? uid with
  | none =>
    rw [hu] at h
    simp [UnitRec.none] at h
  | some u => rfl

theorem unit?_mapUnits (s : State) (uid : Nat) (f : UnitRec → UnitRec) (hf : ∀ u, (f u).live = u.live ∧ (f u).uid = u.uid) :
    (s.mapUnits f).unit? uid = (s.unit? uid).map f := by
  have hp : (fun u : UnitRec => u.live && u.uid == uid) ∘ f = fun u => u.live && u.uid == uid := funext (fun u => by simp [(hf u).1, (hf u).2])
  have hall : (s.mapUnits f).allUnits = s.allUnits.map f := by
    unfold State.allUnits State.mapUnits
    rfl
  unfold State.unit?
  rw [hall, List.find?_map, hp]

theorem chipLoc_scratch {d k off : Nat} (hd : d < 4) (hk : k < 36) (ho : off < 0x80000) : chipLoc (Config.onChip + d * 2 ^ 44 + k * 2 ^ 38 + off) = some (.scratch d k off) := by
  have hsub : Config.onChip + d * 2 ^ 44 + k * 2 ^ 38 + off - Config.onChip = d * 2 ^ 44 + k * 2 ^ 38 + off := by omega
  have hdie : (d * 2 ^ 44 + k * 2 ^ 38 + off) >>> 44 = d := by
    rw [Nat.shiftRight_eq_div_pow]
    omega
  have hcore : (d * 2 ^ 44 + k * 2 ^ 38 + off) >>> 38 % 64 = k := by
    rw [Nat.shiftRight_eq_div_pow]
    omega
  have hreg : (d * 2 ^ 44 + k * 2 ^ 38 + off) >>> 35 % 8 = 0 := by
    rw [Nat.shiftRight_eq_div_pow]
    omega
  have hoff : (d * 2 ^ 44 + k * 2 ^ 38 + off) % 2 ^ 35 = off := by omega
  unfold chipLoc
  dsimp only
  rw [hsub, hdie, hcore, hreg, hoff]
  simp [Config.onChip, Config.onChipEnd, Config.coresPerDie, ho]
  omega
theorem putByte_chip {a : Nat} {k : ChipLoc} (ha : Config.onChip ≤ a) (hk : chipLoc a = some k) (v : Byte) : s.putByte (.dev a) v = s.putChip a k v := by
  have hout : ¬ a < Config.hbmBytes := fun h => absurd (Nat.lt_of_lt_of_le h (show Config.hbmBytes ≤ Config.onChip by decide)) (Nat.not_lt.2 ha)
  unfold State.putByte
  dsimp only
  rw [if_neg hout, hk]

theorem putChip_scratch {a d k off : Nat} (h : s.allUnits.any (fun u => u.cores.any (fun uc => uc.die == d && uc.core == k && (uc.byteAt u.scratch off).isSome)) = true)
    (v : Byte) : s.putChip a (.scratch d k off) v = s.mapUnits (fun u => u.setScratch d k off v) := if_pos h

/-- t is s with at most what the units, the tile cache and the commands hold changed, and what counts and what is due. -/
structure Steady (t s : State) : Prop where
  mem : t.sameMem s
  poison : t.poison = s.poison
  tlb : t.tlb = s.tlb
  ctxs : t.ctxs = s.ctxs
  gr : t.gr = s.gr
  groups : t.groups = s.groups

theorem steady_refl (s : State) : Steady s s := ⟨sameMem_refl s, rfl, rfl, rfl, rfl, rfl⟩

theorem Steady.trans {u : State} (h : Steady u t) (k : Steady t s) : Steady u s :=
  ⟨sameMem_trans u t s h.mem k.mem, h.poison.trans k.poison, h.tlb.trans k.tlb, h.ctxs.trans k.ctxs, h.gr.trans k.gr, h.groups.trans k.groups⟩

theorem Steady.groupOf (h : Steady t s) (gid : Nat) : t.groupOf gid = s.groupOf gid := by
  unfold State.groupOf State.group? State.allGroups
  rw [h.gr, h.groups]

theorem Steady.poisoned (h : Steady t s) (line : Bool) (l : Loc) (n : Nat) : t.poisoned line l n = s.poisoned line l n := by
  unfold State.poisoned
  rw [h.poison]

theorem Steady.getN (h : Steady t s) {l : Loc} (hl : l.plain n) : t.getN l n = s.getN l n := by
  refine gatherLE_congr _ _ n (fun i hi => ?_)
  have hp := plain_plus l n i hl hi
  cases hq : l.plus i with
  | host a => simp only [State.byteAt, h.mem.2]
  | dev a =>
    rw [hq] at hp
    have ha : a < Config.hbmBytes := hp
    simp only [State.byteAt, ha, if_true, h.mem.1]
  | enc key a => simp only [State.byteAt, h.mem.1]

/-- A value put into a group's own window: nothing else changes there. -/
structure PutsWindow (t s : State) (g : Group) (w : Nat → Byte) : Prop where
  steady : Steady t s
  cmds : t.cmds = s.cmds
  bare : (t.unitOf g.uid).bare = (s.unitOf g.uid).bare
  bytes : ∀ j, t.windowByte g j = w j

theorem putByte_window (v : Byte) (hw : s.ownWindow g o 1) :
    PutsWindow (s.putByte (.dev (s.windowBase g + o)) v) s g (fun j => if j = o then v else s.windowByte g j) := by
  obtain ⟨hcoop, hin, c, hc, hd, hk, hlo, hhi⟩ := hw
  have hbase : s.windowBase g + o = Config.onChip + c.die * 2 ^ 44 + c.core * 2 ^ 38 + (c.base + o) := by
    unfold State.windowBase
    rw [hc, Option.map_some, Option.getD_some, Nat.add_assoc]
  have hchip : chipLoc (s.windowBase g + o) = some (.scratch c.die c.core (c.base + o)) := by
    rw [hbase]
    exact chipLoc_scratch hd hk (by omega)
  have hu := unit?_of_core hc
  have hbyte : ∃ x, c.byteAt (s.unitOf g.uid).scratch (c.base + o) = some x := by
    refine ⟨c.window.get (c.base + o - c.base), ?_⟩
    unfold UnitCore.byteAt
    rw [if_neg (by omega), if_pos (by omega)]
  obtain ⟨x, hx⟩ := hbyte
  have hany : s.allUnits.any (fun u => u.cores.any (fun uc => uc.die == c.die && uc.core == c.core && (uc.byteAt u.scratch (c.base + o)).isSome)) = true :=
    List.any_eq_true.2 ⟨s.unitOf g.uid, List.mem_of_find?_eq_some hu, List.any_eq_true.2 ⟨c, List.mem_of_getElem? hc, by simp [hx]⟩⟩
  have hput : s.putByte (.dev (s.windowBase g + o)) v = s.mapUnits (fun u => u.setScratch c.die c.core (c.base + o) v) := by
    exact (putByte_chip (by rw [hbase]; omega) hchip v).trans (putChip_scratch hany v)
  have hunit : (s.mapUnits (fun u => u.setScratch c.die c.core (c.base + o) v)).unitOf g.uid = (s.unitOf g.uid).setScratch c.die c.core (c.base + o) v := by
    conv_lhs => unfold State.unitOf
    rw [unit?_mapUnits s g.uid (fun u => u.setScratch c.die c.core (c.base + o) v) (fun u => ⟨rfl, rfl⟩), hu]
    rfl
  rw [hput]
  refine ⟨⟨⟨rfl, rfl⟩, rfl, rfl, rfl, rfl, rfl⟩, rfl, ?_, fun j => ?_⟩
  · rw [hunit]
    exact setScratch_bare _ _ _ _ _
  · unfold State.windowByte
    rw [hunit]
    have hset : (s.unitOf g.uid).setScratch c.die c.core (c.base + o) v |>.cores[g.coreIndex]? = some (c.setByteAt (s.unitOf g.uid).scratch (c.base + o) v) := by
      unfold UnitRec.setScratch
      dsimp only
      rw [List.getElem?_map, hc]
      simp
    rw [hset, hc]
    unfold UnitCore.setByteAt
    rw [if_pos (by omega)]
    simp [Memory.get_put]
theorem putN_window (v : Nat) (hw : s.ownWindow g o n) :
    PutsWindow (s.putN (.dev (s.windowBase g + o)) v n) s g (fun j => if o ≤ j ∧ j < o + n then byteOf v (j - o) else s.windowByte g j) := by
  induction n with
  | zero => exact ⟨steady_refl s, rfl, rfl, fun j => (if_neg (by omega)).symm⟩
  | succ n ih =>
    obtain ⟨hsteady, hcmds, hbare, hbytes⟩ := ih (ownWindow_part hw (by omega))
    rw [State.putN]
    generalize s.putN (.dev (s.windowBase g + o)) v n = t at *
    have hlast := putByte_window (byteOf v n) (ownWindow_part (p := o + n) (m := 1) (ownWindow_bare hbare hw) (by omega))
    rw [windowBase_bare hbare, ← Nat.add_assoc] at hlast
    refine ⟨hlast.steady.trans hsteady, hlast.cmds.trans hcmds, hlast.bare.trans hbare, fun j => ?_⟩
    refine (hlast.bytes j).trans ?_
    by_cases hj : j = o + n
    · rw [if_pos hj, if_pos (by omega), hj, Nat.add_sub_cancel_left]
    · rw [if_neg hj, hbytes]
      by_cases hin : o ≤ j ∧ j < o + n
      · rw [if_pos hin, if_pos (by omega)]
      · rw [if_neg hin, if_neg (by omega)]

theorem windowN_eq (s : State) {c : UnitCore} (hc : (s.unitOf g.uid).cores[g.coreIndex]? = some c) (o n : Nat) :
    s.windowN g o n = gatherLE (fun i => s.windowByte g (o + i)) n := by
  unfold State.windowN State.windowByte
  rw [hc]
  rfl
end

/-! ## What an engine's TLB gives (R227; log entry 9) -/

/-- An engine's TLB places a VA. -/
structure EngHit (s : State) (die ctx va : Nat) (need : BitVec 3) (chip : Bool) (l : Loc) : Prop where
  bound : va < 2 ^ 57
  window : s.window ctx va = none
  entry : ∃ e, s.tlbHit (engineCore die) ctx va = some e ∧ e.perms.allow need = true ∧ (Trans.ok (e.loc.plus (va - e.va))).seen chip = .ok l

section
variable {s t : State} {die ctx va who : Nat} {need : BitVec 3} {chip : Bool} {l : Loc}

theorem EngHit.walk (h : EngHit s die ctx va need chip l) : s.engWalk die ctx va = s := by
  obtain ⟨hb, hw, e, he, _⟩ := h
  unfold State.engWalk State.noteWalk
  rw [if_neg (Nat.not_le.2 hb), if_pos (by simp [he])]

theorem EngHit.ask (h : EngHit s die ctx va need chip l) : s.engAsk die ctx va need who chip = .ok l := by
  obtain ⟨hb, hw, e, he, hp, hs⟩ := h
  have ht : s.engTrans die ctx va need chip = .ok l := by
    unfold State.engTrans
    rw [if_neg (Nat.not_le.2 hb), hw]
    dsimp only
    rw [he]
    dsimp only
    rw [if_pos hp, hs]
  unfold State.engAsk
  dsimp only
  rw [if_neg (by simp [he]), ht]
  rfl

theorem EngHit.steady (h : EngHit s die ctx va need chip l) (hs : Steady t s) : EngHit t die ctx va need chip l := by
  refine ⟨h.bound, ?_, ?_⟩
  · unfold State.window State.ctxRec
    rw [hs.ctxs]
    exact h.window
  · unfold State.tlbHit
    rw [hs.tlb]
    exact h.entry

theorem answered_ok {x : Trans} {a : Option Nat} (h : x.answered a = .ok l) : x = .ok l := by
  unfold Trans.answered at h
  split at h <;> first | exact h | exact Trans.noConfusion h

theorem struck_ok {x : Trans} {b : Bool} {n : Nat} (h : x.struck s b n = .ok l) : x = .ok l ∧ (Trans.ok l).struck s b n = .ok l := by
  cases x with
  | ok k =>
    unfold Trans.struck at h ⊢
    dsimp only at h ⊢
    split at h
    · exact Trans.noConfusion h
    · next hno =>
      obtain rfl : k = l := Trans.ok.inj h
      exact ⟨rfl, if_neg hno⟩
  | _ => exact Trans.noConfusion h

theorem struck_steady {b : Bool} {n : Nat} (hs : Steady t s) (x : Trans) : x.struck t b n = x.struck s b n := by
  cases x with
  | ok k =>
    unfold Trans.struck
    simp only [hs.poisoned]
  | _ => rfl

theorem dieOf_engineCore (die : Nat) : dieOf (engineCore die) = die := by
  unfold dieOf engineCore coreNo
  omega

/-- The entry that a walk leaves is a hit of its VA (R175). -/
theorem tlbHit_of_mem {core size : Nat} {e : TlbEntry} (he : e ∈ s.tlb) (hc : e.core = core) (hx : e.ctx = ctx) (hva : e.va = va / size * size) (hsize : e.size = size)
    (hpos : 0 < size) : (s.tlbHit core ctx va).isSome = true := by
  refine List.find?_isSome.2 ⟨e, he, ?_⟩
  have hle : va / size * size ≤ va := Nat.div_mul_le_self va size
  have hlt : va < va / size * size + size := Nat.lt_div_mul_add hpos
  simp [hc, hx, hva, hsize, hle, hlt]

theorem walkLevel_size {os : Bool} {level base pa size : Nat} {p : Perms} {host b enc : Bool} (h : s.walkLevel os va level base = .page pa size p host b enc) :
    0 < size := by
  have hleaf {e n : Nat} (hl : leafOf os e n = .page pa size p host b enc) (hn : 0 < n) : 0 < size := by
    unfold leafOf at hl
    split at hl
    · exact Leaf.noConfusion hl
    · split at hl
      · cases hl
        exact hn
      · split at hl
        · cases hl
          exact hn
        · exact Leaf.noConfusion hl
  induction level generalizing base with
  | zero =>
    unfold State.walkLevel at h
    dsimp only at h
    split at h
    · exact Leaf.noConfusion h
    · exact hleaf h (Nat.two_pow_pos _)
  | succ k ih =>
    unfold State.walkLevel at h
    dsimp only at h
    split at h
    · exact Leaf.noConfusion h
    · split at h
      · split at h
        · exact Leaf.noConfusion h
        · exact hleaf h (Nat.two_pow_pos _)
      · split at h
        · exact ih h
        · exact Leaf.noConfusion h

theorem walkVa_size {pa size : Nat} {p : Perms} {host b enc : Bool} (h : s.walkVa ctx va = .page pa size p host b enc) : 0 < size := by
  unfold State.walkVa at h
  split at h
  · exact walkLevel_size h
  · exact Leaf.noConfusion h

/-- A translation that gives a place and makes no walk is a hit. -/
theorem engHit_of_ok (hw : s.engWalk die ctx va = s) (h : s.engAsk die ctx va need who chip = .ok l) : EngHit s die ctx va need chip l := by
  unfold State.engAsk at h
  dsimp only at h
  have hinner := answered_ok h
  split at hinner
  · exact Trans.noConfusion hinner
  · next hmiss =>
    unfold State.engTrans at hinner
    split at hinner
    · exact Trans.noConfusion hinner
    · next hb =>
      have hbound : va < 2 ^ 57 := Nat.not_le.1 hb
      split at hinner
      · split at hinner <;> exact Trans.noConfusion hinner
      · next hwin =>
        split at hinner
        · next e he =>
          split at hinner
          · next hp => exact ⟨hbound, hwin, e, he, hp, hinner⟩
          · exact Trans.noConfusion hinner
        · next hno =>
          have hloaded : s.walkerLoaded die = false := by
            refine Bool.eq_false_iff.2 (fun hl => hmiss ?_)
            rw [hl, decide_eq_true hbound, hwin, hno]
            rfl
          split at hinner
          · exact Trans.noConfusion hinner
          · exact Trans.noConfusion hinner
          · next pa size p host b enc hwalk =>
            split at hinner
            · exact Trans.noConfusion hinner
            · split at hinner
              · exact Trans.noConfusion hinner
              · next hhost =>
                obtain rfl : host = false := by simpa using hhost
                have htlb := congrArg State.tlb hw
                unfold State.engWalk State.noteWalk State.tlbFill at htlb
                rw [if_neg hb, if_neg (by simp [hno, hwin, dieOf_engineCore, hloaded]), hno, hwalk] at htlb
                have hmem : ({ core := engineCore die, ctx := ctx, pasid := 0, va := va / size * size, size := size, loc := devLoc (s.keyOf ctx enc) pa, perms := p } : TlbEntry) ∈
                    s.tlb := by
                  rw [← htlb]
                  exact List.mem_append_right _ (List.mem_singleton.2 rfl)
                have hhit := tlbHit_of_mem (s := s) (core := engineCore die) (ctx := ctx) (va := va) hmem rfl rfl rfl rfl (walkVa_size hwalk)
                rw [hno] at hhit
                exact Bool.noConfusion hhit
end

end Sys2Proof.Machine
end

section
/-!
A linear copy into a scratchpad window: O49.
-/
namespace Sys2Proof.Machine

/-! ## The tile cache -/

theorem touchLine_keeps {β : Type} {pi : State → β} (h : ∀ s ls ds, pi { s with lines := ls, dies := ds } = pi s) (s : State) (ctx va : Nat) (l : Loc) (load : Bool)
    (cls : Nat) (tag : BitVec 12) : pi (s.touchLine ctx va l load cls tag) = pi s := by
  have hlines (u : State) (ls : List TileLine) : pi { u with lines := ls } = pi u := h u ls u.dies
  have hdies (u : State) (ds : List DieRec) : pi { u with dies := ds } = pi u := h u u.lines ds
  unfold State.touchLine
  split
  · rfl
  · split
    · rfl
    · split
      · exact (hdies _ _).trans (hlines s _)
      · refine (hdies _ _).trans ((hdies _ _).trans ?_)
        split
        · rfl
        · exact allocLine_keeps pi hlines s _

theorem touchLine_puts (s : State) (g : Group) (ctx va : Nat) (l : Loc) (load : Bool) (cls : Nat) (tag : BitVec 12) :
    PutsWindow (s.touchLine ctx va l load cls tag) s g (s.windowByte g) where
  steady := ⟨⟨touchLine_keeps (pi := State.mem) (fun _ _ _ => rfl) _ _ _ _ _ _ _, touchLine_keeps (pi := State.host) (fun _ _ _ => rfl) _ _ _ _ _ _ _⟩,
    touchLine_keeps (pi := State.poison) (fun _ _ _ => rfl) _ _ _ _ _ _ _, touchLine_keeps (pi := State.tlb) (fun _ _ _ => rfl) _ _ _ _ _ _ _,
    touchLine_keeps (pi := State.ctxs) (fun _ _ _ => rfl) _ _ _ _ _ _ _, touchLine_keeps (pi := State.gr) (fun _ _ _ => rfl) _ _ _ _ _ _ _,
    touchLine_keeps (pi := State.groups) (fun _ _ _ => rfl) _ _ _ _ _ _ _⟩
  cmds := touchLine_keeps (pi := State.cmds) (fun _ _ _ => rfl) _ _ _ _ _ _ _
  bare := touchLine_keeps (pi := fun t => (t.unitOf g.uid).bare) (fun _ _ _ => rfl) _ _ _ _ _ _ _
  bytes := fun j => touchLine_keeps (pi := fun t => t.windowByte g j) (fun _ _ _ => rfl) _ _ _ _ _ _ _

theorem Steady.modCmd {t s : State} (h : Steady t s) {id : Nat} {f : Cmd → Cmd} : Steady (t.modCmd id f) s :=
  ⟨h.mem, h.poison, h.tlb, h.ctxs, h.gr, h.groups⟩

theorem putsWindow_refl (s : State) (g : Group) : PutsWindow s s g (s.windowByte g) := ⟨steady_refl s, rfl, rfl, fun _ => rfl⟩

/-! ## One word of the copy (R224, R227) -/

section
variable {s t : State} {c d : Cmd} {k : Nat}

/-- Word k of a linear copy into the scratchpad (R220, R224). -/
theorem copyWord_linear (t : State) (h2 : cp2d 0 (c.w 7) = false) (hz : (c.w 7).getLsbD 5 = false) (hd : d.regs = c.regs) (hk : k < (copyShape 0 c.regs).words) :
    t.copyWord d 0 k = (some (.glob ((copyShape 0 c.regs).src + 4 * k)), .scr ((copyShape 0 c.regs).dst + 4 * k)) := by
  have hw : d.w 7 = c.w 7 := by
    unfold Cmd.w
    rw [hd]
  have hg : ∀ w : Word, cpGather 0 w = false := fun w => by simp [cpGather]
  have hshape : copyShape 0 c.regs = { src := vaPair (c.w 0) (c.w 1), dst := (c.w 2).toNat, rb := (c.w 4).toNat, rows := 1, sstride := 0, dstride := 0 } := by
    unfold copyShape
    dsimp only
    rw [if_neg (by simp [hg]), if_neg (by rw [show c.regs.getD 7 0 = c.w 7 from rfl, h2]; exact Bool.false_ne_true)]
    rfl
  rw [hshape] at hk ⊢
  have hlt : 4 * k < (c.w 4).toNat := by
    have : k < (c.w 4).toNat / 4 * 1 := hk
    omega
  unfold State.copyWord
  dsimp only
  rw [hd, hw, hshape, if_neg (by decide), if_neg (by decide), if_neg (by simp [hg]), hz]
  dsimp only
  rw [Nat.mod_eq_of_lt hlt, Nat.div_eq_of_lt hlt]
  simp [cpDstGlobal, cpSrcGlobal]

/-- A word read at a place that the engine's TLB gives (R227). -/
theorem copyRead_hit {old : Bool} {va : Nat} {l : Loc} (g : Group) (hh : EngHit t d.die d.ctx va needR d.seesChip l) (hs : (Trans.ok l).struck t true 4 = .ok l) :
    ∃ u, t.copyRead d old (some (.glob va)) = (u, some (BitVec.ofNat 32 (t.getN l 4))) ∧ PutsWindow u t g (t.windowByte g) := by
  have hword : t.engWord d va = (t, some (BitVec.ofNat 32 (t.getN l 4))) := by
    refine engWord_of_ok hh.walk ?_
    unfold State.cmdTrans
    rw [hh.ask, hs]
  unfold State.copyRead
  dsimp only
  rw [hword]
  dsimp only
  split
  · next v k hv _ =>
    obtain rfl := Option.some.inj hv
    cases old
    · exact ⟨_, rfl, touchLine_puts t g _ _ _ _ _ _⟩
    · exact ⟨_, rfl, putsWindow_refl t g⟩
  · exact ⟨_, rfl, putsWindow_refl t g⟩

/-- A word written into the own window (R224). -/
theorem copyPut_window {old : Bool} {o : Nat} {w : Word} (hw : t.ownWindow (t.groupOf d.gid) o 4) (hp : t.poisoned true (.dev (t.windowBase (t.groupOf d.gid) + o)) 4 = false) :
    t.copyPut d old (.scr o) w = (t.putN (.dev (t.windowBase (t.groupOf d.gid) + o)) w.toNat 4, true) := by
  unfold State.copyPut State.scrLoc
  dsimp only
  rw [ownWindow_scr hw]
  dsimp only
  rw [if_neg (by simp [hp])]
end

/-! ## The whole copy -/

/-- A linear copy into the own window, whose source the TLB places word by word (R220, R224). -/
structure LinearCopy (s : State) (c : Cmd) (pa : Nat → Nat) : Prop where
  oneRow : cp2d 0 (c.w 7) = false
  notZero : (c.w 7).getLsbD 5 = false
  window : s.ownWindow (s.groupOf c.gid) (copyShape 0 c.regs).dst (4 * (copyShape 0 c.regs).words)
  whole : ∀ k l, k < (copyShape 0 c.regs).words → s.scrLoc c ((copyShape 0 c.regs).dst + 4 * k) = some l → s.poisoned true l 4 = false
  source : ∀ k, k < (copyShape 0 c.regs).words → EngHit s c.die c.ctx ((copyShape 0 c.regs).src + 4 * k) needR c.seesChip (.dev (pa k)) ∧
    (Trans.ok (.dev (pa k))).struck s true 4 = .ok (.dev (pa k)) ∧ (Loc.dev (pa k)).plain 4

/-- t is s with the first k words of a copy in the window. -/
structure Copied (t s : State) (c : Cmd) (pa : Nat → Nat) (k : Nat) : Prop where
  steady : Steady t s
  bare : (t.unitOf (s.groupOf c.gid).uid).bare = (s.unitOf (s.groupOf c.gid).uid).bare
  cmd : ∃ p, t.cmd? c.id = some { c with started := true, progress := k, buf := [], peer := p }
  bytes : ∀ j i, j < k → i < 4 → t.windowByte (s.groupOf c.gid) ((copyShape 0 c.regs).dst + 4 * j + i) = byteOf (s.getN (.dev (pa j)) 4) i

section
variable {s t : State} {c : Cmd} {pa : Nat → Nat} {k : Nat}

theorem getN_lt (s : State) (l : Loc) (n : Nat) : s.getN l n < 2 ^ (8 * n) := by
  unfold State.getN
  induction n with
  | zero => simp [gatherLE]
  | succ k ih =>
    rw [gatherLE, Nat.shiftLeft_eq]
    have hb := (s.byteAt (l.plus k)).isLt
    have hmul : (s.byteAt (l.plus k)).toNat * 2 ^ (8 * k) ≤ 255 * 2 ^ (8 * k) := Nat.mul_le_mul_right _ (by omega)
    have hpow : 2 ^ (8 * (k + 1)) = 256 * 2 ^ (8 * k) := by
      rw [show 8 * (k + 1) = 8 * k + 8 from rfl, Nat.pow_add]
      omega
    omega

/-- One word more. -/
theorem copyRun_step (hc : LinearCopy s c pa) (ht : Copied t s c pa k) (hk : k < (copyShape 0 c.regs).words) (fuel : Nat) :
    ∃ u, t.copyRun c.id 0 (fuel + 1) = u.copyRun c.id 0 fuel ∧ Copied u s c pa (k + 1) := by
  obtain ⟨hsteady, hbare, ⟨p, hcmd⟩, hbytes⟩ := ht
  obtain ⟨hhit, hstruck, hplain⟩ := hc.source k hk
  have hword := copyWord_linear (d := { c with started := true, progress := k, buf := [], peer := p }) t hc.oneRow hc.notZero rfl hk
  obtain ⟨v, hread, hv⟩ := copyRead_hit (d := { c with started := true, progress := k, buf := [], peer := p }) (s.groupOf c.gid)
    (old := decide (0 < k) && sameSector (some (.glob ((copyShape 0 c.regs).src + 4 * k))) (t.copyWord { c with started := true, progress := k, buf := [], peer := p } 0 (k - 1)).1)
    (hhit.steady hsteady) ((struck_steady hsteady _).trans hstruck)
  have hvs : Steady v s := hv.steady.trans hsteady
  have hvbare := hv.bare.trans hbare
  have hvcmd : v.cmd? c.id = some { c with started := true, progress := k, buf := [], peer := p } := (cmd?_congr hv.cmds c.id).trans hcmd
  have hown : v.ownWindow (s.groupOf c.gid) ((copyShape 0 c.regs).dst + 4 * k) 4 := ownWindow_part (ownWindow_bare hvbare hc.window) (by omega)
  have hpoison : v.poisoned true (.dev (v.windowBase (s.groupOf c.gid) + ((copyShape 0 c.regs).dst + 4 * k))) 4 = false := by
    rw [hvs.poisoned, windowBase_bare hvbare]
    exact hc.whole k _ hk (ownWindow_scr (ownWindow_part hc.window (by omega)))
  have hput := copyPut_window (d := { c with started := true, progress := k, buf := [], peer := p }) (w := BitVec.ofNat 32 (t.getN (.dev (pa k)) 4))
    (old := decide (0 < k) && sameSector (some (.scr ((copyShape 0 c.regs).dst + 4 * k))) (some (t.copyWord { c with started := true, progress := k, buf := [], peer := p } 0 (k - 1)).2))
    (show v.ownWindow (v.groupOf c.gid) _ 4 by rw [hvs.groupOf]; exact hown) (by rw [hvs.groupOf]; exact hpoison)
  rw [show v.groupOf ({ c with started := true, progress := k, buf := [], peer := p } : Cmd).gid = s.groupOf c.gid from hvs.groupOf c.gid] at hput
  have hwin := putN_window (BitVec.ofNat 32 (t.getN (.dev (pa k)) 4)).toNat hown
  generalize v.putN (.dev (v.windowBase (s.groupOf c.gid) + ((copyShape 0 c.regs).dst + 4 * k))) (BitVec.ofNat 32 (t.getN (.dev (pa k)) 4)).toNat 4 = w at hput hwin
  refine ⟨w.modCmd c.id (fun x => { x with progress := x.progress + 1, buf := [], peer := none }), ?_, ?_⟩
  · conv_lhs => unfold State.copyRun
    rw [hcmd]
    dsimp only
    rw [if_neg (Nat.not_le.2 hk), if_neg (by simp [State.badIndex, cpGather]), hword]
    dsimp only
    rw [hread]
    dsimp only
    rw [hvcmd]
    dsimp only
    rw [hput]
    rfl
  · refine ⟨(hwin.steady.trans hvs).modCmd, hwin.bare.trans hvbare, ⟨none, ?_⟩, fun j i hj hi => ?_⟩
    · rw [cmd?_modCmd w c.id (fun x => { x with progress := x.progress + 1, buf := [], peer := none }) (fun _ => rfl), cmd?_congr hwin.cmds, hvcmd]
      rfl
    · refine (hwin.bytes _).trans ?_
      by_cases hjk : j = k
      · subst hjk
        rw [if_pos (by omega), hsteady.getN hplain, BitVec.toNat_ofNat, Nat.mod_eq_of_lt (getN_lt s _ 4)]
        congr 1
        omega
      · rw [if_neg (by omega), hv.bytes]
        exact hbytes j i (by omega) hi

theorem copyRun_words (hc : LinearCopy s c pa) (n : Nat) (ht : Copied t s c pa k) (hn : k + n = (copyShape 0 c.regs).words) :
    ∃ u, t.copyRun c.id 0 (n + 1) = u.endCmd c.id ∧ Copied u s c pa (copyShape 0 c.regs).words := by
  induction n generalizing t k with
  | zero =>
    obtain rfl : k = (copyShape 0 c.regs).words := by omega
    refine ⟨t, ?_, ht⟩
    obtain ⟨p, hp⟩ := ht.cmd
    conv_lhs => unfold State.copyRun
    rw [hp]
    dsimp only
    rw [if_pos (Nat.le_refl _)]
  | succ n ih =>
    obtain ⟨u, hu, hcu⟩ := copyRun_step hc ht (by omega) (n + 1)
    rw [hu]
    exact ih hcu (by omega)

theorem windowN_of_bytes (g : Group) {o : Nat} (hw : t.ownWindow g o 4) {v : Nat} (hv : v < 2 ^ 32) (h : ∀ i, i < 4 → t.windowByte g (o + i) = byteOf v i) :
    t.windowN g o 4 = v := by
  obtain ⟨_, _, x, hx, _⟩ := hw
  rw [windowN_eq t hx, gatherLE_congr _ _ 4 h, byteOf_gather]
  exact Nat.mod_eq_of_lt hv
end

/-- Settles O49: by induction on the words, each read at the place that the TLB gives and put into the window. -/
theorem copyBytes : Obligations.CopyBytes := by
  intro s c pa x hcmd hkind hstate hprog hbuf h2 hz hown hpoison hread
  have hc : LinearCopy s c pa := by
    refine ⟨h2, hz, hown, hpoison, fun k hk => ?_⟩
    obtain ⟨hw, ht, hin⟩ := hread k hk
    obtain ⟨hok, hst⟩ := struck_ok ht
    exact ⟨engHit_of_ok hw hok, hst, hin⟩
  have hstart : Copied (s.modCmd c.id (fun x => { x with started := true })) s c pa 0 := by
    refine ⟨⟨sameMem_refl s, rfl, rfl, rfl, rfl, rfl⟩, rfl, ⟨c.peer, ?_⟩, fun j i hj => absurd hj (Nat.not_lt_zero j)⟩
    rw [cmd?_modCmd s c.id (fun x => { x with started := true }) (fun _ => rfl), hcmd, Option.map_some, ← hprog, ← hbuf]
  obtain ⟨u, hu, hcopied⟩ := copyRun_words hc x.words hstart (Nat.zero_add _)
  have he : exec (.copyComplete c.id) s = .next (u.endCmd c.id) := by
    show execCopyComplete c.id s = _
    unfold execCopyComplete
    rw [hcmd]
    dsimp only
    rw [hkind, hstate, hprog]
    dsimp only
    rw [show (if c.started then none else s.cpCapable c 0) = none by simp [State.cpCapable, cpTarget]]
    exact congrArg Host.Outcome.next hu
  refine ⟨_, he, sameMem_trans _ u s (endCmd_sameMem u c.id) hcopied.steady.mem, endCmd_ended u c.id, fun k hk => ?_⟩
  have hwin : (u.endCmd c.id).windowN (s.groupOf c.gid) (x.dst + 4 * k) 4 = u.windowN (s.groupOf c.gid) (x.dst + 4 * k) 4 :=
    endCmd_keeps (pi := fun t => t.windowN (s.groupOf c.gid) (x.dst + 4 * k) 4) ⟨fun _ _ _ => rfl, fun _ _ => rfl, fun _ _ => rfl⟩ u c.id
  rw [hwin]
  exact windowN_of_bytes _ (ownWindow_part (ownWindow_bare hcopied.bare hown) (by omega)) (getN_lt s _ 4) (fun i hi => hcopied.bytes k i hk hi)

end Sys2Proof.Machine
end

section
/-!
What a native matrix operation and an MMV write: O50.
-/
namespace Sys2Proof.Machine

/-! ## A native operation (R233, R36, R37) -/

/-- Elements of a tile written by their number. -/
theorem get_foldl_put (t : Tile) (f : Nat → Word) (l : List Nat) (r k : Nat) (hk : k < 64) :
    (l.foldl (fun (x : Tile) i => x.put (i / 64) (i % 64) (f i)) t).get r k = if 64 * r + k ∈ l then f (64 * r + k) else t.get r k := by
  induction l generalizing t with
  | nil => simp
  | cons i l ih =>
    have hput : (t.put (i / 64) (i % 64) (f i)).get r k = if 64 * r + k = i then f i else t.get r k := by
      unfold Tile.put Tile.get
      dsimp only
      rw [sparseGet_put, Nat.div_add_mod i 64]
    rw [List.foldl_cons, ih, hput]
    by_cases hl : 64 * r + k ∈ l
    · simp [hl]
    · by_cases hi : 64 * r + k = i
      · simp [hi]
      · simp [hl, hi]

/-- The elements that the first native operation of a product writes (R239). -/
def firstCells (m : Nat) : List Nat := (List.range 4096).filter (fun i => decide (64 * 0 + i / 64 < m))

theorem Tile.get_class (t : Tile) (cls : TileClass) (r k : Nat) : ({ t with cls := cls } : Tile).get r k = t.get r k := rfl

theorem mem_cells {m r k : Nat} (hr : r < 64) (hk : k < 64) (hm : r < m) : 64 * r + k ∈ firstCells m := by
  refine List.mem_filter.2 ⟨List.mem_range.2 (by omega), decide_eq_true ?_⟩
  omega

theorem foldl_endCmd_keeps {β : Type} {pi : State → β} (h : OverBlind pi) (l : List Nat) (s : State) : pi (l.foldl State.endCmd s) = pi s :=
  foldl_keeps pi (endCmd_keeps h) l s

theorem endJoint_keeps {β : Type} {pi : State → β} (h : OverBlind pi) (s : State) (c : Cmd) : pi (s.endJoint c) = pi s :=
  (foldl_endCmd_keeps h _ _).trans (endCmd_keeps h s c.id)

section
variable {s : State} {c : Cmd}

/-- Elements of a tile written one by one. -/
def Tile.putCells (t : Tile) (f : Nat → Word) (l : List Nat) : Tile := l.foldl (fun (x : Tile) i => x.put (i / 64) (i % 64) (f i)) t

/-- The tile of the first native operation once it has run. -/
def State.firstTile (s : State) (c : Cmd) (d : MatDesc) : Tile :=
  { ((s.groupOf c.gid).tiles.getD d.tile ⟨.empty, []⟩).putCells (fun i => s.sliceAt c (s.groupOf c.gid) (s.unitOf (s.groupOf c.gid).uid) d
      ((nativeK (fmtA c.fmt) (fmtB c.fmt)).getD 64) (64 * 0 + i / 64) (64 * 0 + i % 64) 0) (firstCells d.m) with
    cls := ((s.groupOf c.gid).tiles.getD d.tile ⟨.empty, []⟩).cls }

theorem firstTile_get (s : State) (c : Cmd) {d : MatDesc} {r k : Nat} (hr : r < 64) (hk : k < 64) (hm : r < d.m) : (s.firstTile c d).get r k =
    s.sliceAt c (s.groupOf c.gid) (s.unitOf (s.groupOf c.gid).uid) d ((nativeK (fmtA c.fmt) (fmtB c.fmt)).getD 64) r k 0 := by
  have hcell := get_foldl_put ((s.groupOf c.gid).tiles.getD d.tile ⟨.empty, []⟩) (fun i => s.sliceAt c (s.groupOf c.gid) (s.unitOf (s.groupOf c.gid).uid) d
    ((nativeK (fmtA c.fmt) (fmtB c.fmt)).getD 64) (64 * 0 + i / 64) (64 * 0 + i % 64) 0) (firstCells d.m) r k hk
  rw [if_pos (mem_cells hr hk hm), show 64 * 0 + (64 * r + k) / 64 = r by omega, show 64 * 0 + (64 * r + k) % 64 = k by omega] at hcell
  exact (Tile.get_class _ _ r k).trans hcell

theorem runOps_first {d : MatDesc} (hacc : d.acc = false) (hsl : d.slices c.fmt = 1) : s.runOps c d 0 1 =
    (s.modGroup c.gid (fun h => ({ h with tiles := h.tiles.set d.tile (s.firstTile c d) } : Group).setClass c.id d.tile (kindClass (fmtA c.fmt)))).useFree (2 ^ 22) := by
  unfold State.runOps
  rw [List.range_succ]
  simp only [List.range_zero, List.nil_append, List.foldl_cons, List.foldl_nil, Nat.add_zero, hsl, Nat.zero_div, Nat.zero_mod]
  unfold State.nativeOp
  simp only [hacc, Bool.not_false, Nat.zero_mul, Nat.add_zero, and_self, if_true]
  rfl

theorem matrixOperation_first (hh : s.matrixHead c.gid = some c) (hk : c.kind = .mma) (hs : c.state = .accepted) (hp : c.progress = 0)
    (hacc : (mmaDesc c.regs).acc = false) (hg : s.groupOf c.gid = s.gr) (hsl : (mmaDesc c.regs).slices c.fmt = 1)
    (hhurt : s.operandHurt c s.gr (s.unitOf s.gr.uid) (mmaDesc c.regs) = false) :
    ∃ u, exec (.matrixOperation c.gid) s = .next u ∧ u.sameMem s ∧ u.gr = (s.runOps c (mmaDesc c.regs) 0 1).gr := by
  have hclash : s.clashNow c (mmaDesc c.regs) = false := by simp [State.clashNow, hacc]
  have he : exec (.matrixOperation c.gid) s = .next (if (mmaDesc c.regs).tiles * (mmaDesc c.regs).slices c.fmt ≤ c.progress + 1 then
        ((s.runOps c (mmaDesc c.regs) 0 1).modCmd c.id (fun x => { x with progress := x.progress + 1 })).endJoint c
      else ((s.runOps c (mmaDesc c.regs) 0 1).modCmd c.id (fun x => { x with progress := x.progress + 1 })).post (.matrixOperation c.gid)) := by
    show execMatrixOperation c.gid s = _
    unfold execMatrixOperation
    rw [hh]
    dsimp only
    rw [if_neg (not_not.2 hs), if_pos hk, if_neg (by simp [hclash]), hg, if_neg (by simp [hhurt]), hp]
  have hmem : (s.runOps c (mmaDesc c.regs) 0 1).sameMem s := by
    rw [runOps_first hacc hsl]
    exact ⟨rfl, rfl⟩
  refine ⟨_, he, ?_, ?_⟩
  · split
    · exact sameMem_trans _ _ s ⟨endJoint_keeps (pi := State.mem) ⟨fun _ _ _ => rfl, fun _ _ => rfl, fun _ _ => rfl⟩ _ c,
        endJoint_keeps (pi := State.host) ⟨fun _ _ _ => rfl, fun _ _ => rfl, fun _ _ => rfl⟩ _ c⟩ hmem
    · exact hmem
  · split
    · exact endJoint_keeps (pi := State.gr) ⟨fun _ _ _ => rfl, fun _ _ => rfl, fun _ _ => rfl⟩ _ c
    · rfl

theorem firstOp_tiles {d : MatDesc} (hacc : d.acc = false) (hsl : d.slices c.fmt = 1) (hgid : c.gid = s.gr.gid) (hby : sparseGet 0 s.gr.classBy d.tile ≤ c.id) :
    (s.runOps c d 0 1).gr.tiles = (s.gr.tiles.set d.tile (s.firstTile c d)).modify d.tile (fun x => { x with cls := kindClass (fmtA c.fmt) }) := by
  rw [runOps_first hacc hsl]
  show (if s.gr.gid = c.gid then ({ s.gr with tiles := s.gr.tiles.set d.tile (s.firstTile c d) } : Group).setClass c.id d.tile (kindClass (fmtA c.fmt)) else s.gr).tiles = _
  rw [if_pos hgid.symm, setClass_of_le (g := { s.gr with tiles := s.gr.tiles.set d.tile (s.firstTile c d) }) _ hby]
end

/-! ## An MMV (R241) -/

section
variable {s t : State} {c : Cmd} {g : Group}

/-- The results of an MMV of one row put into its window. -/
theorem mmvResults_window {u : UnitRec} {o n str : Nat} (f : Nat → Word) (hu : u.bare = (t.unitOf g.uid).bare) (hw : t.ownWindow g o (4 * n)) (m : Nat) (hm : m ≤ n) :
    PutsWindow ((List.range m).foldl (fun (w : State) i => match u.scr g.coreIndex (o + i / n * str + 4 * (i % n)) 4 with
      | some l => w.putN l (f i).toNat 4
      | none => w) t) t g (fun j => if o ≤ j ∧ j < o + 4 * m then byteOf (f ((j - o) / 4)).toNat ((j - o) % 4) else t.windowByte g j) := by
  induction m with
  | zero => exact ⟨steady_refl t, rfl, rfl, fun j => (if_neg (by omega)).symm⟩
  | succ m ih =>
    obtain ⟨hsteady, hcmds, hbare, hbytes⟩ := ih (by omega)
    rw [List.range_succ, List.foldl_append, List.foldl_cons, List.foldl_nil, Nat.div_eq_of_lt (show m < n by omega), Nat.mod_eq_of_lt (show m < n by omega)]
    generalize List.foldl _ t (List.range m) = v at hsteady hcmds hbare hbytes ⊢
    have hown : v.ownWindow g (o + 4 * m) 4 := ownWindow_part (ownWindow_bare hbare hw) (by omega)
    rw [show u.scr g.coreIndex (o + 0 * str + 4 * m) 4 = some (.dev (v.windowBase g + (o + 4 * m))) by
      rw [Nat.zero_mul, Nat.add_zero, scr_bare (hu.trans hbare.symm), ownWindow_scr hown]]
    have hput := putN_window (f m).toNat hown
    refine ⟨hput.steady.trans hsteady, hput.cmds.trans hcmds, hput.bare.trans hbare, fun j => ?_⟩
    refine (hput.bytes j).trans ?_
    by_cases hj : o + 4 * m ≤ j ∧ j < o + 4 * m + 4
    · rw [if_pos hj, if_pos (by omega), show (j - o) / 4 = m by omega, show j - (o + 4 * m) = (j - o) % 4 by omega]
    · rw [if_neg hj, hbytes]
      by_cases hin : o ≤ j ∧ j < o + 4 * m
      · rw [if_pos hin, if_pos (by omega)]
      · rw [if_neg hin, if_neg (by omega)]

/-- An MMV whose B has been read ends with its results in the window. -/
theorem mmvComplete_done {ws : List Word} (h : s.cmd? c.id = some c) (hk : c.kind = .mmv) (hs : c.state = .accepted) (hv : (mmvDesc c.regs).v = 1)
    (hw : s.ownWindow (s.groupOf c.gid) (mmvDesc c.regs).yoff (4 * (mmvDesc c.regs).n))
    (hin : s.rowsHurt (s.groupOf c.gid) (s.unitOf (s.groupOf c.gid).uid) (mmvDesc c.regs).aoff (mmvDesc c.regs).v (mmvDesc c.regs).astr (2 * (mmvDesc c.regs).k) = false)
    (hout : s.rowsHurt (s.groupOf c.gid) (s.unitOf (s.groupOf c.gid).uid) (mmvDesc c.regs).yoff (mmvDesc c.regs).v (mmvDesc c.regs).ystr (4 * (mmvDesc c.regs).n) = false)
    (hread : s.mmvRead c.id (mmvDesc c.regs).b ((mmvDesc c.regs).n * (mmvDesc c.regs).rowBytes (fmtB c.fmt))
      ((mmvDesc c.regs).n * (mmvDesc c.regs).rowBytes (fmtB c.fmt) / 4096 + 3) = (t, true))
    (ht : Steady t s) (hbare : (t.unitOf (s.groupOf c.gid).uid).bare = (s.unitOf (s.groupOf c.gid).uid).bare)
    (hcmd : (t.cmd? c.id).map (·.buf) = some ws) (hat : ∀ v n, t.mmvAt c (s.groupOf c.gid) (s.unitOf (s.groupOf c.gid).uid) (mmvDesc c.regs) ws.toArray v n =
      s.mmvAt c (s.groupOf c.gid) (s.unitOf (s.groupOf c.gid).uid) (mmvDesc c.regs) ws.toArray v n) :
    ∃ u, exec (.mmvComplete c.id) s = .next u ∧ u.sameMem s ∧ u.ended c.id ∧ ∀ n, n < (mmvDesc c.regs).n →
      u.windowN (s.groupOf c.gid) ((mmvDesc c.regs).yoff + 4 * n) 4 =
        (s.mmvAt c (s.groupOf c.gid) (s.unitOf (s.groupOf c.gid).uid) (mmvDesc c.regs) ws.toArray 0 n).toNat := by
  have hput := mmvResults_window (str := (mmvDesc c.regs).ystr) (fun i => t.mmvAt c (s.groupOf c.gid) (s.unitOf (s.groupOf c.gid).uid) (mmvDesc c.regs) ws.toArray (i / (mmvDesc c.regs).n)
    (i % (mmvDesc c.regs).n)) hbare.symm (ownWindow_bare hbare hw) _ (Nat.le_refl _)
  have he : exec (.mmvComplete c.id) s = .next ((((List.range (mmvDesc c.regs).n).foldl (fun (w : State) i =>
      match (s.unitOf (s.groupOf c.gid).uid).scr (s.groupOf c.gid).coreIndex ((mmvDesc c.regs).yoff + i / (mmvDesc c.regs).n * (mmvDesc c.regs).ystr + 4 * (i % (mmvDesc c.regs).n)) 4 with
      | some l => w.putN l (t.mmvAt c (s.groupOf c.gid) (s.unitOf (s.groupOf c.gid).uid) (mmvDesc c.regs) ws.toArray (i / (mmvDesc c.regs).n) (i % (mmvDesc c.regs).n)).toNat 4
      | none => w) t).useFree (2 ^ 22)).endCmd c.id) := by
    show execMmvComplete c.id s = _
    unfold execMmvComplete
    rw [h]
    dsimp only
    rw [if_neg (by simp [hk, hs]), hin, hout, hread]
    dsimp only
    rw [hcmd, hv, Nat.one_mul]
    rfl
  generalize List.foldl _ t (List.range (mmvDesc c.regs).n) = w at hput he
  refine ⟨_, he, sameMem_trans _ _ s (endCmd_sameMem _ c.id) (hput.steady.trans ht).mem, endCmd_ended _ c.id, fun n hn => ?_⟩
  have hwin : ((w.useFree (2 ^ 22)).endCmd c.id).windowN (s.groupOf c.gid) ((mmvDesc c.regs).yoff + 4 * n) 4 =
      w.windowN (s.groupOf c.gid) ((mmvDesc c.regs).yoff + 4 * n) 4 :=
    endCmd_keeps (pi := fun t => t.windowN (s.groupOf c.gid) ((mmvDesc c.regs).yoff + 4 * n) 4) ⟨fun _ _ _ => rfl, fun _ _ => rfl, fun _ _ => rfl⟩ _ c.id
  rw [hwin, ← hat 0 n]
  refine windowN_of_bytes _ (ownWindow_part (ownWindow_bare (hput.bare.trans hbare) hw) (by omega)) (BitVec.isLt _) (fun i hi => ?_)
  refine (hput.bytes _).trans ?_
  rw [if_pos (by omega), show ((mmvDesc c.regs).yoff + 4 * n + i - (mmvDesc c.regs).yoff) / 4 = n by omega,
    show ((mmvDesc c.regs).yoff + 4 * n + i - (mmvDesc c.regs).yoff) % 4 = i by omega, Nat.div_eq_of_lt hn, Nat.mod_eq_of_lt hn]
/-! ### The bytes of B -/

/-- A command without what it has read of B. -/
def Cmd.unread (c : Cmd) : Cmd := { c with buf := [] }

/-- An operand does not depend on what a command has read of B. -/
theorem mmvAt_withCmds {cs : List Cmd} (h : cs.map Cmd.unread = s.cmds.map Cmd.unread) (u : UnitRec) (d : MmvDesc) (ws : Array Word) (v n : Nat) :
    (s.withCmds cs).mmvAt c g u d ws v n = s.mmvAt c g u d ws v n := by
  have hany (a : Nat) : cs.any (fun x => !(x.gid == c.gid && x.seq == c.seq) && x.unsettled && covers x.destPa a) =
      s.cmds.any (fun x => !(x.gid == c.gid && x.seq == c.seq) && x.unsettled && covers x.destPa a) := by
    have hmap (l : List Cmd) : (l.map Cmd.unread).any (fun x => !(x.gid == c.gid && x.seq == c.seq) && x.unsettled && covers x.destPa a) =
        l.any (fun x => !(x.gid == c.gid && x.seq == c.seq) && x.unsettled && covers x.destPa a) := List.any_map
    rw [← hmap cs, h, hmap s.cmds]
  have hbyte (o : Nat) : (s.withCmds cs).opByte c g u o = s.opByte c g u o := by
    unfold State.opByte
    split
    · next l _ =>
      dsimp only
      rw [show (s.withCmds cs).cmds = cs from rfl, hany l.num]
      rfl
    · rfl
  have hbytes (o n : Nat) : (s.withCmds cs).opBytes c g u o n = s.opBytes c g u o n := by
    unfold State.opBytes
    simp only [hbyte]
  unfold State.mmvAt
  simp only [hbytes]

theorem struck_mono {b : Bool} {l : Loc} {m n : Nat} (h : (Trans.ok l).struck s b n = .ok l) (hm : m ≤ n) : (Trans.ok l).struck s b m = .ok l := by
  have hp (line : Bool) (hno : s.poisoned line l n = false) : s.poisoned line l m = false := by
    cases l with
    | host a => rfl
    | dev a =>
      refine List.any_eq_false.2 (fun p hp => ?_)
      have := List.any_eq_false.1 hno p hp
      simp only [Bool.and_eq_true, decide_eq_true_eq] at this ⊢
      exact fun hc => this ⟨⟨hc.1.1, by omega⟩, hc.2⟩
    | enc key a =>
      refine List.any_eq_false.2 (fun p hp => ?_)
      have := List.any_eq_false.1 hno p hp
      simp only [Bool.and_eq_true, decide_eq_true_eq] at this ⊢
      exact fun hc => this ⟨⟨hc.1.1, by omega⟩, hc.2⟩
  unfold Trans.struck at h ⊢
  dsimp only at h ⊢
  split at h
  · exact Trans.noConfusion h
  · next hno =>
    rw [Bool.not_eq_true, Bool.or_eq_false_iff] at hno
    refine if_neg ?_
    rw [hp false hno.1]
    cases b
    · simp
    · simp [hp true (by simpa using hno.2)]

/-- The first n words of B, page by page. -/
def State.bWords (s : State) (pa : Nat → Nat) (n : Nat) : List Word := (List.range n).map (fun i => BitVec.ofNat 32 (s.getN (.dev (pa (i / 1024) + 4 * (i % 1024))) 4))

theorem bWords_length (s : State) (pa : Nat → Nat) (n : Nat) : (s.bWords pa n).length = n := by simp [State.bWords]

/-- The first n words of a page. -/
def State.pageWords (s : State) (l : Loc) (n : Nat) : List Word := (List.range n).map (fun i => BitVec.ofNat 32 (s.getN (l.plus (4 * i)) 4))

theorem bWords_page (s : State) (pa : Nat → Nat) (j n : Nat) (hn : n ≤ 1024) : s.bWords pa (1024 * j) ++ s.pageWords (.dev (pa j)) n = s.bWords pa (1024 * j + n) := by
  unfold State.bWords State.pageWords
  rw [List.range_add, List.map_append, List.map_map]
  refine congrArg _ (List.map_congr_left (fun i hi => ?_))
  have hi := List.mem_range.1 hi
  dsimp only [Function.comp, Loc.plus]
  rw [show (1024 * j + i) / 1024 = j by omega, show (1024 * j + i) % 1024 = i by omega]

theorem mmvRead_all {b bytes : Nat} {d : Cmd} (h : s.cmd? c.id = some d) (hb : bytes ≤ 4 * d.buf.length) (fuel : Nat) : s.mmvRead c.id b bytes (fuel + 1) = (s, true) := by
  unfold State.mmvRead
  rw [h]
  dsimp only
  rw [if_pos (Nat.add_le_add_left hb b)]

theorem mmvRead_pages {b bytes : Nat} {pa : Nat → Nat} (hb : b % 4096 = 0) (h4 : bytes % 4 = 0)
    (hpage : ∀ j, 4096 * j < bytes → EngHit s c.die c.ctx (b + 4096 * j) needR c.seesChip (.dev (pa j)) ∧ (Loc.dev (pa j)).homeDie = c.die ∧
      (Trans.ok (.dev (pa j))).struck s true 4096 = .ok (.dev (pa j)))
    (n j : Nat) (cs : List Cmd) (hcs : cs.map Cmd.unread = s.cmds.map Cmd.unread) (hcmd : (s.withCmds cs).cmd? c.id = some { c with buf := s.bWords pa (min (1024 * j) (bytes / 4)) })
    (hn : bytes ≤ 4096 * (j + n)) :
    ∃ cs', (s.withCmds cs).mmvRead c.id b bytes (n + 1) = (s.withCmds cs', true) ∧ cs'.map Cmd.unread = s.cmds.map Cmd.unread ∧
      ((s.withCmds cs').cmd? c.id).map (·.buf) = some (s.bWords pa (bytes / 4)) := by
  induction n generalizing j cs with
  | zero =>
    rw [Nat.min_eq_right (by omega)] at hcmd
    refine ⟨cs, mmvRead_all hcmd (by rw [bWords_length]; omega) 0, hcs, by rw [hcmd]; rfl⟩
  | succ n ih =>
    by_cases hend : bytes ≤ 4096 * j
    · rw [Nat.min_eq_right (by omega)] at hcmd
      refine ⟨cs, mmvRead_all hcmd (by rw [bWords_length]; omega) (n + 1), hcs, by rw [hcmd]; rfl⟩
    · obtain ⟨hhit, hdie, hclean⟩ := hpage j (by omega)
      rw [Nat.min_eq_left (by omega)] at hcmd
      have hsteady : Steady (s.withCmds cs) s := ⟨sameMem_refl s, rfl, rfl, rfl, rfl, rfl⟩
      have hva : b + 4 * (1024 * j) = b + 4096 * j := by omega
      have hsize : min (b + bytes) ((b + 4096 * j) / 4096 * 4096 + 4096) - (b + 4096 * j) = min (bytes - 4096 * j) 4096 := by omega
      have hstep : (s.withCmds cs).mmvRead c.id b bytes (n + 1 + 1) = (((s.withCmds cs).modCmd c.id (fun x =>
          { x with buf := x.buf ++ s.pageWords (.dev (pa j)) (min (bytes - 4096 * j) 4096 / 4) })).mmvRead c.id b bytes (n + 1)) := by
        conv_lhs => unfold State.mmvRead
        rw [hcmd]
        dsimp only
        rw [bWords_length, hva, if_neg (by omega), hsize, show (s.withCmds cs).engAsk ({ c with buf := s.bWords pa (1024 * j) } : Cmd).die c.ctx (b + 4096 * j) needR c.id
            ({ c with buf := s.bWords pa (1024 * j) } : Cmd).seesChip = .ok (.dev (pa j)) from (hhit.steady hsteady).ask,
          (struck_steady hsteady _).trans (struck_mono hclean (Nat.min_le_right _ _)),
          show (s.withCmds cs).engWalk ({ c with buf := s.bWords pa (1024 * j) } : Cmd).die c.ctx (b + 4096 * j) = s.withCmds cs from (hhit.steady hsteady).walk]
        dsimp only
        rw [if_pos (by
          rw [hdie]
          exact Bool.and_eq_true_iff.2 ⟨rfl, beq_self_eq_true _⟩)]
        rfl
      rw [hstep]
      refine ih (j + 1) _ ?_ ?_ (by omega)
      · rw [← hcs, List.map_map]
        refine List.map_congr_left (fun x _ => ?_)
        dsimp only [Function.comp]
        split <;> rfl
      · refine (cmd?_modCmd (s.withCmds cs) c.id (fun x =>
          { x with buf := x.buf ++ s.pageWords (.dev (pa j)) (min (bytes - 4096 * j) 4096 / 4) }) (fun _ => rfl)).trans ?_
        rw [hcmd, Option.map_some]
        dsimp only
        rw [bWords_page s pa j _ (by omega), show 1024 * j + min (bytes - 4096 * j) 4096 / 4 = min (1024 * (j + 1)) (bytes / 4) by omega]
end

theorem mmvBytes_mod (d : MmvDesc) (bk : Nat) : d.n * d.rowBytes bk % 4 = 0 := by
  unfold MmvDesc.rowBytes
  rw [← Nat.mul_assoc]
  omega

/-- Settles O50: the tile by the elements that its operation puts; the window by the results that the MMV puts, B from its buffer or page by page. -/
theorem matrixResults : Obligations.MatrixResults := by
  intro s c
  refine ⟨fun hh hk hs hp hacc hgid hlive hsl _ htile hhurt hby => ?_, fun hcmd hk hs hv hw hin hout => ⟨fun hbytes => ?_, fun pa hbuf hb hpage => ?_⟩⟩
  · have hg : s.groupOf c.gid = s.gr := by
      unfold State.groupOf
      rw [hgid, group?_self s hlive]
      rfl
    obtain ⟨u, he, hmem, hgr⟩ := matrixOperation_first hh hk hs hp hacc hg hsl hhurt
    have htiles := firstOp_tiles (s := s) (c := c) hacc hsl hgid hby
    rw [← hgr] at htiles
    have hown : u.gr.tiles.getD (mmaDesc c.regs).tile ⟨.empty, []⟩ = { s.firstTile c (mmaDesc c.regs) with cls := kindClass (fmtA c.fmt) } := by
      rw [htiles]
      simp [List.getD, htile]
    refine ⟨u, he, hmem, by rw [hown], fun i hi => ?_, fun r k hr hk64 hm => ?_⟩
    · rw [htiles, List.getElem?_modify, List.getElem?_set, if_neg (Ne.symm hi)]
      simp [Ne.symm hi]
    · rw [hown]
      rw [Tile.get_class, firstTile_get s c hr hk64 hm, hg]
  · exact mmvComplete_done hcmd hk hs hv hw hin hout (mmvRead_all hcmd hbytes _) (steady_refl s) rfl (by rw [hcmd]; rfl) (fun _ _ => rfl)
  · have hpages : ∀ j, 4096 * j < (mmvDesc c.regs).n * (mmvDesc c.regs).rowBytes (fmtB c.fmt) →
        EngHit s c.die c.ctx ((mmvDesc c.regs).b + 4096 * j) needR c.seesChip (.dev (pa j)) ∧ (Loc.dev (pa j)).homeDie = c.die ∧
          (Trans.ok (.dev (pa j))).struck s true 4096 = .ok (.dev (pa j)) := by
      intro j hj
      obtain ⟨hwalk, hdie, hask⟩ := hpage j hj
      obtain ⟨hok, hclean⟩ := struck_ok hask
      exact ⟨engHit_of_ok hwalk hok, hdie, hclean⟩
    obtain ⟨cs, hread, hcs, hws⟩ := mmvRead_pages hb (mmvBytes_mod _ _) hpages ((mmvDesc c.regs).n * (mmvDesc c.regs).rowBytes (fmtB c.fmt) / 4096 + 2) 0 s.cmds rfl
      (hcmd.trans (by rw [Nat.mul_zero, Nat.zero_min, show s.bWords pa 0 = c.buf from hbuf.symm])) (by omega)
    exact mmvComplete_done hcmd hk hs hv hw hin hout hread ⟨sameMem_refl s, rfl, rfl, rfl, rfl, rfl⟩ rfl hws (fun v n => mmvAt_withCmds hcs _ _ _ v n)

end Sys2Proof.Machine
end

section
/-!
Code segments in their slots: O51.
-/
namespace Sys2Proof.Machine

/-! ## CINV and the deferred drop (R243) -/

section
variable {s : State} {scope ctx va : Nat}

/-- A slot that CINV reaches. -/
def State.cinvHits (s : State) (scope ctx va : Nat) (o : Overlay) : Prop := o.ctx = ctx ∧ o.va = segOf (BitVec.ofNat 57 va) ∧ s.cinvReach scope o.core = true

theorem mem_invalidateSegment (q : Overlay) : q ∈ (s.invalidateSegment scope ctx va).overlays ↔
    ∃ o ∈ s.overlays, (s.cinvHits scope ctx va o ∧ s.pinned o = true ∧ q = { o with marked := true }) ∨ (¬ s.cinvHits scope ctx va o ∧ q = o) := by
  unfold State.invalidateSegment
  dsimp only
  rw [List.mem_filterMap]
  refine exists_congr (fun o => and_congr_right (fun _ => ?_))
  by_cases hit : o.ctx = ctx ∧ o.va = segOf (BitVec.ofNat 57 va) ∧ s.cinvReach scope o.core = true
  · have hh : s.cinvHits scope ctx va o := hit
    rw [if_pos hit]
    by_cases hp : s.pinned o = true
    · rw [if_pos hp]
      refine ⟨fun h => .inl ⟨hh, hp, (Option.some.inj h).symm⟩, ?_⟩
      rintro (⟨_, _, rfl⟩ | ⟨hno, _⟩)
      · rfl
      · exact absurd hh hno
    · rw [if_neg hp]
      refine ⟨fun h => absurd h (by simp), ?_⟩
      rintro (⟨_, hpin, _⟩ | ⟨hno, _⟩)
      · exact absurd hpin hp
      · exact absurd hh hno
  · have hh : ¬ s.cinvHits scope ctx va o := hit
    rw [if_neg hit]
    refine ⟨fun h => .inr ⟨hh, (Option.some.inj h).symm⟩, ?_⟩
    rintro (⟨hyes, _, _⟩ | ⟨_, rfl⟩)
    · exact absurd hyes hh
    · rfl

theorem cinv_retires {g : BitVec 4} {sc : BitVec 3} {a : BitVec 6} (hgo : s.goesOn = true) (hsc : sc.toNat < 3) (ha : isPair a.toNat = true) (hu : s.uniGuard g = true)
    (hq : s.quiet) : exec (.cinv g sc a) s = .next ((s.invalidateSegment sc.toNat s.gr.ctx (s.sregPair a.toNat).toNat).retired s false) := by
  change s.run (if 3 ≤ sc.toNat ∨ !isPair a.toNat then _ else if !s.uniGuard g then _ else
    s.released (fun s1 => .next (s1.invalidateSegment sc.toNat s1.gr.ctx (s1.sregPair a.toNat).toNat))) = _
  rw [if_neg (by simp [ha]; omega), if_neg (by simp [hu]), released_quiet _ _ hq, State.run, if_pos (goesOn_landed s hgo),
    finish_next_place (u := s.invalidateSegment sc.toNat s.gr.ctx (s.sregPair a.toNat).toNat) false hgo (goesOn_exm hgo) rfl rfl rfl rfl]
end

/-! ## Fetches (R242) -/

section
variable {s : State} {core ctx va : Nat} {ws : List (Nat × Word)}

theorem slotPut_new (h : s.slotFor core ctx va = none) (hroom : (s.overlays.filter (fun o => o.core == core)).length < slotCount core) :
    ∃ o : Overlay, s.slotPut core ctx va ws = { s with overlays := s.overlays ++ [o] } ∧ o.core = core ∧ o.ctx = ctx ∧ o.va = va ∧ o.marked = false ∧ o.words = ws := by
  unfold State.slotPut
  rw [h]
  dsimp only
  rw [if_pos hroom]
  exact ⟨_, rfl, rfl, rfl, rfl, rfl, rfl⟩

theorem slotFor_append {o : Overlay} (h : s.slotFor core ctx va = none) (hc : o.core = core) (hx : o.ctx = ctx) (hv : o.va = va) (hm : o.marked = false) :
    ({ s with overlays := s.overlays ++ [o] } : State).slotFor core ctx va = some o := by
  unfold State.slotFor at h ⊢
  rw [List.find?_append, h]
  simp [hc, hx, hv, hm]

theorem overlayFetch_fills {c : Cmd} {l : Loc} (hc : s.cmds.find? (fun x => x.kind = .cfetch && x.state = .accepted && x.ctx == ctx && x.arg == va && x.core == core) = some c)
    (hno : s.slotFor core ctx va = none) (hroom : (s.overlays.filter (fun o => o.core == core)).length < slotCount core)
    (hask : (s.fetchAsk (dieOf core) ctx va c.id c.priv).struck s true 4096 = .ok l) :
    ∃ u o, exec (.overlayFetchComplete core ctx va) s = .next u ∧ u.sameMem s ∧ u.slotFor core ctx va = some o ∧ o.words = s.wordsAt l ∧
      ∀ d ∈ u.cmds, d.id ≠ c.id ∨ d.state = .done := by
  have he : exec (.overlayFetchComplete core ctx va) s = .next (((s.engWalk (dieOf core) ctx va).slotPut core ctx va (s.wordsAt l)).endCmd c.id) := by
    show execOverlayFetchComplete core ctx va s = _
    unfold execOverlayFetchComplete
    rw [hc]
    dsimp only
    rw [if_neg (by simp [hno]), hask]
  have hwalk {β : Type} {pi : State → β} (hp : ∀ s t d c, pi { s with tlb := t, dies := d, cores := c } = pi s) : pi (s.engWalk (dieOf core) ctx va) = pi s := by
    unfold State.engWalk
    split
    · rfl
    · exact noteWalk_keeps pi hp s _ _ _
  have hovl : (s.engWalk (dieOf core) ctx va).overlays = s.overlays := hwalk (pi := State.overlays) (fun _ _ _ _ => rfl)
  have hslot : (s.engWalk (dieOf core) ctx va).slotFor core ctx va = none := by
    unfold State.slotFor
    rw [hovl]
    exact hno
  obtain ⟨o, ho, hcore, hctx, hva, hmark, hwords⟩ := slotPut_new (ws := s.wordsAt l) hslot (by rw [hovl]; exact hroom)
  refine ⟨_, o, he, ?_, ?_, hwords, fun d hd => ?_⟩
  · refine sameMem_trans _ _ s (endCmd_sameMem _ c.id) ?_
    rw [ho]
    exact ⟨hwalk (pi := State.mem) (fun _ _ _ _ => rfl), hwalk (pi := State.host) (fun _ _ _ _ => rfl)⟩
  · refine (endCmd_keeps (pi := fun t => t.slotFor core ctx va) ⟨fun _ _ _ => rfl, fun _ _ => rfl, fun _ _ => rfl⟩ _ c.id).trans ?_
    rw [ho]
    exact slotFor_append hslot hcore hctx hva hmark
  · by_cases hid : d.id = c.id
    · exact .inr (endCmd_ended _ c.id d hd hid)
    · exact .inl hid
end

/-! ## The entry segment (R244) -/

/-- Whether a stream waits for its unit's entry segment on a core. -/
def State.entryHere (s : State) (uid core : Nat) (gid : Nat) : Bool :=
  s.allGroups.any (fun g => g.live && g.gid == gid && g.uid == uid && g.coreId == core)

/-- A change of the streams that keeps their groups and starts no wait for an entry segment. -/
structure Starts (u t : State) : Prop where
  mem : u.sameMem t
  overlays : u.overlays = t.overlays
  groups : u.allGroups = t.allGroups
  unit : ∀ uid, u.unitOf uid = t.unitOf uid
  streams : ∀ y ∈ u.allStreams, ∃ x ∈ t.allStreams, y.gid = x.gid ∧ (x.status ≠ .waitPlaced → y.status ≠ .waitPlaced)

theorem Starts.trans {w u t : State} (h : Starts w u) (k : Starts u t) : Starts w t := by
  refine ⟨sameMem_trans w u t h.mem k.mem, h.overlays.trans k.overlays, h.groups.trans k.groups, fun uid => (h.unit uid).trans (k.unit uid), fun y hy => ?_⟩
  obtain ⟨x, hx, hg, hs⟩ := h.streams y hy
  obtain ⟨z, hz, hg', hs'⟩ := k.streams x hx
  exact ⟨z, hz, hg.trans hg', fun hw => hs (hs' hw)⟩

theorem starts_mapStreams (t : State) (f : Stream → Stream) (hg : ∀ x, (f x).gid = x.gid) (hs : ∀ x : Stream, x.status ≠ .waitPlaced → (f x).status ≠ .waitPlaced) :
    Starts (t.mapStreams f) t := by
  refine ⟨sameMem_refl t, rfl, rfl, fun _ => rfl, fun y hy => ?_⟩
  obtain ⟨x, hx, rfl⟩ := List.mem_map.1 (show y ∈ t.allStreams.map f from hy)
  exact ⟨x, hx, hg x, hs x⟩

theorem fetchEntry_starts {t : State} {uid core va : Nat} (h : (t.slotFor core (t.unitOf uid).ctx va).isSome = true) :
    Starts (t.fetchEntry uid core va) t ∧ ∀ y ∈ (t.fetchEntry uid core va).allStreams, t.entryHere uid core y.gid = true → y.status ≠ .waitPlaced := by
  have he : ∃ f : Stream → Stream, (∀ x, (f x).gid = x.gid ∧ (f x).status = x.status) ∧
      t.fetchEntry uid core va = (t.mapStreams f).wake (fun x => decide (x.status = .waitPlaced) && t.entryHere uid core x.gid) := by
    refine ⟨fun x => if x.status = .waitPlaced ∧ t.entryHere uid core x.gid ∧ x.restart.pos = 0 then { x with restart := { x.restart with
      hdr := ((t.slotFor core (t.unitOf uid).ctx va).map (fun o => sparseGet 0#32 o.words (x.restart.pc.toNat % 4096 / 4 * 4))).getD 0 } } else x, fun x => ?_, ?_⟩
    · dsimp only
      split <;> exact ⟨rfl, rfl⟩
    · unfold State.fetchEntry
      dsimp only
      rw [if_pos h]
      rfl
  obtain ⟨f, hf, he⟩ := he
  rw [he]
  refine ⟨(starts_mapStreams _ _ (fun x => ?_) (fun x hx => ?_)).trans (starts_mapStreams t f (fun x => (hf x).1) (fun x hx => by rw [(hf x).2]; exact hx)), fun y hy hh => ?_⟩
  · dsimp only
    split <;> rfl
  · dsimp only
    split
    · simp
    · exact hx
  · obtain ⟨x, _, rfl⟩ := List.mem_map.1 (show y ∈ (t.mapStreams f).allStreams.map (fun x => if (decide (x.status = .waitPlaced) && t.entryHere uid core x.gid) = true then
      { x with status := .runnable, woken := x.bwait } else x) from hy)
    have hgid : ∀ z : Stream, (if (decide (z.status = .waitPlaced) && t.entryHere uid core z.gid) = true then { z with status := .runnable, woken := z.bwait } else z).gid = z.gid := by
      intro z
      split <;> rfl
    rw [hgid] at hh
    rw [hh, Bool.and_true]
    by_cases hw : x.status = .waitPlaced
    · simp [hw]
    · simp [hw]

theorem entryHere_congr {u t : State} (h : u.allGroups = t.allGroups) (uid core gid : Nat) : u.entryHere uid core gid = t.entryHere uid core gid := by
  unfold State.entryHere
  rw [h]

theorem foldl_fetchEntry {uid e : Nat} (cs : List UnitCore) (t : State) (h : ∀ c ∈ cs, (t.slotFor (coreNo c.die c.core) (t.unitOf uid).ctx e).isSome = true) :
    Starts (cs.foldl (fun t c => t.fetchEntry uid (coreNo c.die c.core) e) t) t ∧
      ∀ y ∈ (cs.foldl (fun t c => t.fetchEntry uid (coreNo c.die c.core) e) t).allStreams, (∃ c ∈ cs, t.entryHere uid (coreNo c.die c.core) y.gid = true) → y.status ≠ .waitPlaced := by
  induction cs generalizing t with
  | nil => exact ⟨⟨sameMem_refl t, rfl, rfl, fun _ => rfl, fun y hy => ⟨y, hy, rfl, fun h => h⟩⟩, fun y _ ⟨c, hc, _⟩ => absurd hc List.not_mem_nil⟩
  | cons c cs ih =>
    obtain ⟨hfirst, hwoken⟩ := fetchEntry_starts (h c List.mem_cons_self)
    rw [List.foldl_cons]
    generalize t.fetchEntry uid (coreNo c.die c.core) e = v at hfirst hwoken ⊢
    obtain ⟨hrest, hothers⟩ := ih v (fun d hd => by
      have hd := h d (List.mem_cons_of_mem c hd)
      unfold State.slotFor at hd ⊢
      rw [hfirst.overlays, hfirst.unit]
      exact hd)
    refine ⟨hrest.trans hfirst, fun y hy ⟨d, hd, hh⟩ => ?_⟩
    rcases List.mem_cons.1 hd with rfl | hd
    · obtain ⟨x, hx, hgid, hkeep⟩ := hrest.streams y hy
      exact hkeep (hwoken x hx (hgid ▸ hh))
    · exact hothers y hy ⟨d, hd, (entryHere_congr hfirst.groups _ _ _).trans hh⟩

theorem unitOf_fetchHeld (s : State) (uid : Nat) (b : Bool) : ((s.modUnit uid (fun y => { y with fetchHeld := b })).unitOf uid).ctx = (s.unitOf uid).ctx := by
  have hu : (s.modUnit uid (fun y => { y with fetchHeld := b })).unit? uid = (s.unit? uid).map (fun y => if y.uid = uid then { y with fetchHeld := b } else y) :=
    unit?_mapUnits s uid _ (fun u => by split <;> exact ⟨rfl, rfl⟩)
  unfold State.unitOf
  rw [hu]
  cases s.unit? uid with
  | none => rfl
  | some u =>
    show (if u.uid = uid then { u with fetchHeld := b } else u).ctx = u.ctx
    split <;> rfl

/-- Settles O51: CINV by the slots that it maps, a fetch by the slot that it adds, the starts core by core. -/
theorem codeOverlay : Obligations.CodeOverlay := by
  intro s g sc a core ctx va uid
  refine ⟨fun hgo hsc ha hu hq => ?_, ?_, fun c l hc hno hroom hask => overlayFetch_fills hc hno hroom hask, fun e x hx hw hg hall hslots => ?_⟩
  · refine ⟨_, cinv_retires hgo hsc ha hu hq, ⟨rfl, rfl⟩, ⟨rfl, rfl, rfl, rfl, rfl⟩, fun q hq hit => ?_, fun o ho hit hp => ?_, fun o ho hno => ?_⟩
    · obtain ⟨o, ho, ⟨_, hp, hqo⟩ | ⟨hno, hqo⟩⟩ := (mem_invalidateSegment q).1 hq
      · exact ⟨o, ho, hp, hqo⟩
      · exact absurd (hqo ▸ hit) hno
    · exact (mem_invalidateSegment _).2 ⟨o, ho, .inl ⟨hit, hp, rfl⟩⟩
    · exact (mem_invalidateSegment _).2 ⟨o, ho, .inr ⟨hno, rfl⟩⟩
  · refine ⟨_, rfl, ⟨rfl, rfl⟩, fun o => ?_⟩
    show o ∈ s.overlays.filter (fun o => !(o.core == core && o.marked && !s.pinned o)) ↔ _
    rw [List.mem_filter]
    refine and_congr_right (fun _ => ?_)
    cases o.marked <;> cases s.pinned o <;> simp
  · have hin : x ∈ s.allStreams.filter (fun x => decide (x.status = .waitPlaced) && s.allGroups.any (fun g => g.gid == x.gid && g.uid == uid)) := by
      obtain ⟨y, hy, hgid, huid⟩ := hg
      exact List.mem_filter.2 ⟨hx, by simp only [hw, decide_true, Bool.true_and]; exact List.any_eq_true.2 ⟨y, hy, by simp [hgid, huid]⟩⟩
    have hfold := foldl_fetchEntry (uid := uid) (e := e) (s.unitOf uid).cores (s.modUnit uid (fun y => { y with fetchHeld := false })) (fun c hc => by
      rw [unitOf_fetchHeld]
      exact hslots c hc)
    have he : exec (.entrySegmentFetch uid) s = .next ((s.unitOf uid).cores.foldl (fun t c => t.fetchEntry uid (coreNo c.die c.core) e)
        (s.modUnit uid (fun y => { y with fetchHeld := false }))) := by
      show execEntrySegmentFetch uid s = _
      unfold execEntrySegmentFetch
      dsimp only
      split
      · next hnil => exact absurd (hnil ▸ hin) List.not_mem_nil
      · next z r hcons =>
        have hz := List.mem_filter.1 (hcons ▸ List.mem_cons_self : z ∈ s.allStreams.filter _)
        have hz2 := Bool.and_eq_true_iff.1 hz.2
        obtain ⟨y, hy, hyz⟩ := List.any_eq_true.1 hz2.2
        have hyz := Bool.and_eq_true_iff.1 hyz
        rw [hall z hz.1 (of_decide_eq_true hz2.1) ⟨y, hy, by simpa using hyz.1, by simpa using hyz.2⟩]
    refine ⟨_, he, hfold.1.mem, fun y hy ⟨h, hh, hlive, hgid, huid, c, hc, hcore⟩ => hfold.2 y hy ⟨c, hc, ?_⟩⟩
    have hh' : h ∈ s.allGroups := hfold.1.groups ▸ hh
    exact List.any_eq_true.2 ⟨h, hh', by simp [hlive, hgid, huid, hcore]⟩

end Sys2Proof.Machine
end

section
/-!
Combining objects: O52.
-/
namespace Sys2Proof.Machine

/-! ## OBJDEF (R245, R281) -/

theorem lowestIdx_some (os : List ObjSlot) (fuel i j : Nat) (h : lowestIdx os fuel i = some j) :
    i ≤ j ∧ j < i + fuel ∧ os.any (fun o => o.idx == j && (o.live || o.ending)) = false ∧
      ∀ k, i ≤ k → k < j → os.any (fun o => o.idx == k && (o.live || o.ending)) = true := by
  induction fuel generalizing i with
  | zero => exact absurd h (by simp [lowestIdx])
  | succ n ih =>
    unfold lowestIdx at h
    split at h
    · next hi =>
      obtain ⟨hle, hlt, hfree, hbelow⟩ := ih (i + 1) h
      refine ⟨by omega, by omega, hfree, fun k hk hkj => ?_⟩
      by_cases he : k = i
      · rw [he]
        exact hi
      · exact hbelow k (by omega) hkj
    · next hi =>
      obtain rfl := Option.some.inj h
      exact ⟨Nat.le_refl _, by omega, by simpa using hi, fun k hk hkj => absurd hkj (by omega)⟩

theorem handle_fields (o : ObjSlot) (h : o.idx < 4096) : (o.handle.extractLsb' 30 2).toNat = o.die % 4 ∧ o.handle.extractLsb' 12 18 = o.gen ∧
    (o.handle.extractLsb' 0 12).toNat = o.idx := by
  have hgen : o.gen.toNat < 2 ^ 18 := o.gen.isLt
  have hn : o.handle.toNat = (o.die * 2 ^ 30 + o.gen.toNat * 2 ^ 12 + o.idx) % 2 ^ 32 := BitVec.toNat_ofNat _ _
  refine ⟨?_, BitVec.eq_of_toNat_eq ?_, ?_⟩
  · rw [BitVec.extractLsb'_toNat, hn, Nat.shiftRight_eq_div_pow]
    omega
  · rw [BitVec.extractLsb'_toNat, hn, Nat.shiftRight_eq_div_pow]
    omega
  · rw [BitVec.extractLsb'_toNat, hn, Nat.shiftRight_eq_div_pow]
    omega

section
variable {s : State} {g : BitVec 4} {d a : BitVec 6} {c : Ctx} {w : List Word} {o : ObjSlot} {die : Nat}

/-- The lowest free index, and the object that takes it. -/
theorem newObject_fields (h : c.newObject w die = some o) : o.idx < 4096 ∧ (∀ q ∈ c.objects, q.idx = o.idx → q.live = false ∧ q.ending = false) ∧
    (∀ k, k < o.idx → ∃ q ∈ c.objects, q.idx = k ∧ (q.live = true ∨ q.ending = true)) ∧
    o.gen = ((c.objects.find? (fun q => q.idx == o.idx)).map (fun q => nextGen q.gen)).getD 1 ∧ o.die = (if w.getD 5 0 = 0xFFFFFFFF then die else (w.getD 5 0).toNat) ∧
    o.live = true ∧ o.running = false ∧ o.queue = [] ∧ o.stateSize = (w.getD 4 0).toNat ∧ o.stateVa = vaPair (w.getD 0 0) (w.getD 1 0) % 2 ^ 57 ∧
    o.table = vaPair (w.getD 2 0) (w.getD 3 0) % 2 ^ 57 := by
  obtain ⟨i, hi, rfl⟩ := Option.map_eq_some_iff.1 h
  obtain ⟨_, hlt, hfree, hbelow⟩ := lowestIdx_some c.objects 4096 0 i hi
  refine ⟨by simpa using hlt, fun q hq hidx => ?_, fun k hk => ?_, rfl, rfl, rfl, rfl, rfl, rfl, rfl, rfl⟩
  · have hno := List.any_eq_false.1 hfree q hq
    have hidx : q.idx = i := hidx
    simpa [hidx] using hno
  · obtain ⟨q, hq, hyes⟩ := List.any_eq_true.1 (hbelow k (Nat.zero_le k) hk)
    simp only [Bool.and_eq_true, beq_iff_eq, Bool.or_eq_true] at hyes
    exact ⟨q, hq, hyes⟩

theorem objdef_none (hgo : s.goesOn = true) (hu : s.uniGuard g = true) (hw : s.isWave = false) (ha : a.toNat % 8 = 0) (hc : objCheck (s.descr a.toNat 8) = none)
    (hctx : s.ctxRec s.gr.ctx = some c) (hno : c.newObject (s.descr a.toNat 8) s.gr.die = none) : Retires (.objdef g d a) s (s.setSreg d.toNat 0) true := by
  refine retires_runN ?_ (goesOn_landed s hgo) (setSreg_sid s _ _) ((goesOn_setSreg s _ _).trans hgo)
  change s.runN (s.engine g (decide (a.toNat % 8 = 0)) (objCheck (s.descr a.toNat 8)) (s.defineObject d (s.descr a.toNat 8))) = _
  rw [engine_ready (by simpa using ha) hw hu hc]
  unfold State.defineObject
  rw [hctx, Option.bind_some, hno]

theorem objdef_some (hgo : s.goesOn = true) (hu : s.uniGuard g = true) (hw : s.isWave = false) (ha : a.toNat % 8 = 0) (hc : objCheck (s.descr a.toNat 8) = none)
    (hctx : s.ctxRec s.gr.ctx = some c) (ho : c.newObject (s.descr a.toNat 8) s.gr.die = some o) :
    ∃ u, exec (.objdef g d a) s = .next u ∧ u.sameMem s ∧ u.gr.lanes = s.gr.lanes ∧ u.st.sregs = (s.setSreg d.toNat o.handle).st.sregs ∧
      ∃ c', u.ctxRec s.gr.ctx = some c' ∧ o ∈ c'.objects := by
  have he : exec (.objdef g d a) s = .next ((({ s.setSreg d.toNat o.handle with
      ctxs := (s.modCtx s.gr.ctx (fun c => { c with objects := c.objects.filter (fun x => x.idx != o.idx) ++ [o] })).ctxs } : State)).retired s true) := by
    have hset : (s.modCtx s.gr.ctx (fun c => { c with objects := c.objects.filter (fun x => x.idx != o.idx) ++ [o] })).setSreg d.toNat o.handle =
        { s.setSreg d.toNat o.handle with ctxs := (s.modCtx s.gr.ctx (fun c => { c with objects := c.objects.filter (fun x => x.idx != o.idx) ++ [o] })).ctxs } := by
      unfold State.setSreg
      split <;> rfl
    refine retires_runN ?_ (goesOn_landed s hgo) (setSreg_sid s _ _) ((goesOn_setSreg s _ _).trans hgo)
    change s.runN (s.engine g (decide (a.toNat % 8 = 0)) (objCheck (s.descr a.toNat 8)) (s.defineObject d (s.descr a.toNat 8))) = _
    rw [engine_ready (by simpa using ha) hw hu hc, ← hset]
    unfold State.defineObject
    rw [hctx, Option.bind_some, ho]
  have hkeep : (s.setSreg d.toNat o.handle).mem = s.mem ∧ (s.setSreg d.toNat o.handle).host = s.host ∧ (s.setSreg d.toNat o.handle).gr = s.gr := by
    unfold State.setSreg
    split <;> exact ⟨rfl, rfl, rfl⟩
  have hrec := ctxRec_modCtx s s.gr.ctx (fun c => { c with objects := c.objects.filter (fun x => x.idx != o.idx) ++ [o] }) (fun _ => rfl)
  rw [hctx] at hrec
  exact ⟨_, he, ⟨hkeep.1, hkeep.2.1⟩, congrArg Group.lanes hkeep.2.2, rfl, _, hrec, List.mem_append_right _ (List.mem_singleton.2 rfl)⟩

/-! ## OBJDEL (R246, R282) -/

theorem exec_objdel (hw : s.isWave = false) (hu : s.uniGuard g = true) : exec (.objdel g a) s = s.run (
    if (s.object s.gr.ctx (s.sreg a.toNat)).isSome then
      .hold ((s.post (.objdelAtHome s.gr.ctx (s.sreg a.toNat))).modSt (fun x => { x with status := .waitObjdel (s.sreg a.toNat) }))
    else if ((s.ctxRec s.gr.ctx).bind (fun c => c.objects.find? (fun o => o.handle == s.sreg a.toNat && o.ending))).isSome then
      .hold (s.modSt (fun x => { x with status := .waitObjdel (s.sreg a.toNat) }))
    else .next s) := by
  change s.run (if s.isWave then _ else if !s.uniGuard g then _ else _) = _
  rw [if_neg (by simp [hw]), if_neg (by simp [hu])]

theorem objdel_waits (hgo : s.goesOn = true) (hw : s.isWave = false) (hu : s.uniGuard g = true) (ho : s.object s.gr.ctx (s.sreg a.toNat) ≠ none) :
    ∃ u, exec (.objdel g a) s = .next u ∧ u.sameMem s ∧ u.st.status = .waitObjdel (s.sreg a.toNat) ∧ .objdelAtHome s.gr.ctx (s.sreg a.toNat) ∈ u.events := by
  refine ⟨(s.post (.objdelAtHome s.gr.ctx (s.sreg a.toNat))).modSt (fun x => { x with status := .waitObjdel (s.sreg a.toNat) }), (exec_objdel hw hu).trans ?_, ⟨rfl, rfl⟩, rfl,
    List.mem_append_right _ (List.mem_singleton.2 rfl)⟩
  rw [if_pos (Option.isSome_iff_ne_none.2 ho)]
  exact run_hold s _ (goesOn_landed s hgo)

theorem objdel_gone (hgo : s.goesOn = true) (hw : s.isWave = false) (hu : s.uniGuard g = true) (hctx : s.ctxRec s.gr.ctx = some c)
    (hall : ∀ o ∈ c.objects, o.handle = s.sreg a.toNat → o.live = false ∧ o.ending = false) : Retires (.objdel g a) s s false := by
  have hobj : s.object s.gr.ctx (s.sreg a.toNat) = none := by
    unfold State.object Ctx.object
    rw [hctx, Option.bind_some]
    refine List.find?_eq_none.2 (fun o ho hyes => ?_)
    simp only [Bool.and_eq_true, beq_iff_eq] at hyes
    exact Bool.false_ne_true ((hall o ho hyes.1.2).1.symm.trans hyes.1.1)
  have hend : c.objects.find? (fun o => o.handle == s.sreg a.toNat && o.ending) = none := by
    refine List.find?_eq_none.2 (fun o ho hyes => ?_)
    simp only [Bool.and_eq_true, beq_iff_eq] at hyes
    exact Bool.false_ne_true ((hall o ho hyes.1).2.symm.trans hyes.2)
  refine retires_noop ((exec_objdel hw hu).trans ?_) hgo
  rw [hobj, if_neg (by simp), hctx, Option.bind_some, hend, if_neg (by simp)]
end

/-! ## OBJEND (R250, R283) -/

/-- Bytes written one after the other: each place holds the last one put there. -/
theorem byteAt_foldl_put (s : State) (ws : List (Loc × Byte)) (h : ∀ x ∈ ws, x.1.plain 1) (l : Loc) (hl : l.plain 1) :
    (ws.foldl (fun t x => (t.putByte x.1 x.2).syncLine x.1) s).byteAt l = ((ws.reverse.find? (fun x => decide (x.1 = l))).map (·.2)).getD (s.byteAt l) := by
  have hsync (t : State) (x : Loc) : (t.syncLine x).byteAt l = t.byteAt l := syncLine_keeps (fun u => u.byteAt l) (fun _ _ _ => rfl) t x
  induction ws using List.reverseRecOn with
  | nil => rfl
  | append_singleton ws x ih =>
    rw [List.foldl_append, List.foldl_cons, List.foldl_nil, hsync, byteAt_putByte _ _ _ _ (h x (by simp)) hl, ih (fun y hy => h y (by simp [hy])), List.reverse_append,
      List.reverse_singleton, List.singleton_append, List.find?_cons]
    by_cases hx : l = x.1
    · simp [hx]
    · rw [if_neg hx, decide_eq_false (fun e => hx e.symm)]

theorem sendReplies_keeps {β : Type} {pi : State → β} (h : ∀ s r e, pi { s with replies := r, events := e } = pi s) (s : State) (rs : List ObjReply) :
    pi (s.sendReplies rs) = pi s := foldl_keeps pi (fun t _ => h t _ _) rs s

/-- Replies sent stay, each with its arrival due. -/
theorem mem_sendReplies (s : State) (rs : List ObjReply) : ∀ x, x ∈ rs ∨ (x ∈ s.replies ∧ .objectReplyArrival x.id ∈ s.events) →
    x ∈ (s.sendReplies rs).replies ∧ .objectReplyArrival x.id ∈ (s.sendReplies rs).events := by
  unfold State.sendReplies
  induction rs generalizing s with
  | nil =>
    rintro x (hx | hx)
    · exact absurd hx List.not_mem_nil
    · exact hx
  | cons r rs ih =>
    intro x hx
    rw [List.foldl_cons]
    refine ih _ x ?_
    rcases hx with hx | ⟨hx, he⟩
    · rcases List.mem_cons.1 hx with rfl | hx
      · exact .inr ⟨List.mem_append_right _ (List.mem_singleton.2 rfl), List.mem_append_right _ (List.mem_singleton.2 rfl)⟩
      · exact .inl hx
    · exact .inr ⟨List.mem_append_left _ hx, List.mem_append_left _ he⟩

/-- What the end of a batch leaves unchanged. -/
theorem endWave_keeps {β : Type} {pi : State → β} (h : ∀ s x g u d c e, pi { s with st := x, gr := g, un := u, dies := d, ctxs := c, events := e } = pi s) (s : State) :
    pi s.endWave = pi s := by
  unfold State.endWave
  split
  · exact h s _ _ _ s.dies s.ctxs s.events
  · have hcols : pi s.keepColumns = pi s := by
      unfold State.keepColumns
      split
      · exact h s s.st s.gr s.un _ s.ctxs s.events
      · rfl
    have hpost (t : State) (i : Instr) : pi (t.post i) = pi t := h t t.st t.gr t.un t.dies t.ctxs _
    have hbare (t : State) : pi t.dropBareGroup = pi t := h t _ _ _ t.dies t.ctxs t.events
    have hobj (t : State) (ctx idx : Nat) (f : ObjSlot → ObjSlot) : pi (t.modObject ctx idx f) = pi t := h t t.st t.gr t.un t.dies _ t.events
    dsimp only
    split
    · split
      · rw [hpost, hbare, hobj, hcols]
      · rw [hpost, hpost, hbare, hobj, hcols]
    · rw [hpost, hbare, hobj, hcols]

theorem endWave_st (s : State) : s.endWave.st = Stream.none := by
  unfold State.endWave
  split
  · rfl
  · dsimp only
    split
    · split <;> rfl
    · rfl

theorem mem_endWave_events {s : State} {i : Instr} (h : i ∈ s.events) : i ∈ s.endWave.events := by
  unfold State.endWave
  split
  · exact h
  · next w _ =>
    have hkeep : s.keepColumns.events = s.events := by
      unfold State.keepColumns
      split <;> rfl
    have hmem : i ∈ ((s.keepColumns.modObject s.gr.ctx w.obj (fun o => { o with running := false })).dropBareGroup.post (.conjugatorBatchStart s.gr.die)).events :=
      List.mem_append_left _ (show i ∈ s.keepColumns.events from hkeep ▸ h)
    dsimp only
    split
    · split
      · exact hmem
      · exact List.mem_append_left _ hmem
    · exact hmem

theorem settle_none {s u : State} (h : u.st = Stream.none) : (u.settle s).st = Stream.none := by
  show (if u.st.sid = s.st.sid then u.st.retire else u.st) = _
  rw [h]
  split <;> rfl

theorem objend_ends {s : State} {g : BitVec 4} {v : Wave} {ws : List (Loc × Byte)} (hgo : s.goesOn = true) (hu : s.uniGuard g = true) (hw : s.isWave = true)
    (hv : s.st.wave = some v) (hc : s.commitWrites v.buf = .ok ws) (hp : ∀ x ∈ ws, x.1.plain 1) :
    ∃ u, exec (.objend g) s = .next u ∧ u.st = Stream.none ∧ (∀ x ∈ v.finalReplies, x ∈ u.replies ∧ .objectReplyArrival x.id ∈ u.events) ∧
      ∀ l : Loc, l.plain 1 → u.byteAt l = ((ws.reverse.find? (fun x => decide (x.1 = l))).map (·.2)).getD (s.byteAt l) := by
  have he : exec (.objend g) s = .next ((((ws.foldl (fun t x => (t.putByte x.1 x.2).syncLine x.1) s).sendReplies v.finalReplies).endWave).settle s) := by
    change s.run (if !s.isWave then _ else if !s.uniGuard g then _ else
      match s.commitWrites (s.st.wave.getD ⟨0, false, [], [], [], [], 0, 0, 0⟩).buf with
      | .ok ws => .moved (((ws.foldl (fun t x => (t.putByte x.1 x.2).syncLine x.1) s).sendReplies (s.st.wave.getD ⟨0, false, [], [], [], [], 0, 0, 0⟩).finalReplies).endWave)
      | .error (va, .absent h) => _
      | .error (va, .walk ats) => _
      | .error _ => _) = _
    rw [if_neg (by simp [hw]), if_neg (by simp [hu]), hv, Option.getD_some, hc]
    dsimp only
    rw [State.run, if_pos (goesOn_landed s hgo)]
    rfl
  have hbytes := byteAt_foldl_put s ws hp
  generalize ws.foldl (fun t x => (t.putByte x.1 x.2).syncLine x.1) s = t at he hbytes
  have hsent := mem_sendReplies t v.finalReplies
  refine ⟨_, he, settle_none (endWave_st _), fun x hx => ⟨?_, mem_endWave_events (hsent x (.inl hx)).2⟩, fun l hl => ?_⟩
  · show x ∈ (t.sendReplies v.finalReplies).endWave.replies
    rw [endWave_keeps (pi := State.replies) (fun _ _ _ _ _ _ _ => rfl)]
    exact (hsent x (.inl hx)).1
  · have hkeep {γ : Type} (f : State → γ) (hend : ∀ s x g u d c e, f { s with st := x, gr := g, un := u, dies := d, ctxs := c, events := e } = f s)
        (hsend : ∀ s r e, f { s with replies := r, events := e } = f s) (hset : ∀ s x c, f { s with st := x, cores := c } = f s) :
        f (((t.sendReplies v.finalReplies).endWave).settle s) = f t :=
      (hset (t.sendReplies v.finalReplies).endWave _ _).trans ((endWave_keeps hend _).trans (sendReplies_keeps hsend t _))
    have hmem := hkeep State.mem (fun _ _ _ _ _ _ _ => rfl) (fun _ _ _ => rfl) (fun _ _ _ => rfl)
    have hhost := hkeep State.host (fun _ _ _ _ _ _ _ => rfl) (fun _ _ _ => rfl) (fun _ _ _ => rfl)
    rw [← hbytes l hl]
    exact byteAt_plain_congr hl hmem hhost

/-! ## OBJCALL and OBJRET (R247, R250, R284, R285) -/

/-- A state with another L1. -/
def State.withL1 (s : State) (x : List L1Sector) : State := { s with l1 := x }

theorem foldl_withL1 {α : Type} {f : State → α → State} (h : ∀ s i, s.st.held = [] → ∃ x, f s i = s.withL1 x) (l : List α) {s : State} (hh : s.st.held = []) :
    ∃ x, l.foldl f s = s.withL1 x := by
  induction l generalizing s with
  | nil => exact ⟨s.l1, rfl⟩
  | cons i l ih =>
    obtain ⟨x, hx⟩ := h s i hh
    rw [List.foldl_cons, hx]
    exact ih (s := s.withL1 x) hh

theorem flushAt_idle {s : State} (hh : s.st.held = []) (ls : List Loc) (n : Nat) : s.flushAt ls n = s := by
  unfold State.flushAt
  rw [hh]
  rfl

/-- With no quantum RED held, the state of an object leaves the core's L1 and nothing else changes (R166, R255). -/
theorem touchState_withL1 {s : State} (hh : s.st.held = []) (o : ObjSlot) : ∃ x, s.touchState o = s.withL1 x := by
  unfold State.touchState
  refine foldl_withL1 (fun t i ht => ?_) _ hh
  dsimp only
  split
  · exact ⟨t.l1, rfl⟩
  · split
    · rw [flushAt_idle ht]
      exact ⟨_, rfl⟩
    · exact ⟨t.l1, rfl⟩

section
variable {s : State} {g : BitVec 4} {d a h : BitVec 6} {m : BitVec 3}

theorem exec_objcall (hw : s.isWave = false) (ha : a.toNat < 55) (hb : s.beyondIn (s.active g) [a.toNat, a.toNat + 1, h.toNat, d.toNat] = 0) :
    exec (.objcall g d a h m) s = s.runN (if s.active g = 0 then .next s.nextSeq else s.unlessOwed (fun s0 => s0.releasedIf (s.modx.getLsbD 1) (fun s1 =>
      .hold ((({ ((s1.objRequests (s.active g) a h m).filterMap (fun r => s1.object s1.gr.ctx r.handle)).eraseDups.foldl State.touchState s1 with
          requests := (((s1.objRequests (s.active g) a h m).filterMap (fun r => s1.object s1.gr.ctx r.handle)).eraseDups.foldl State.touchState s1).requests ++
            s1.objRequests (s.active g) a h m
          nextId := (((s1.objRequests (s.active g) a h m).filterMap (fun r => s1.object s1.gr.ctx r.handle)).eraseDups.foldl State.touchState s1).nextId +
            (s1.objRequests (s.active g) a h m).length } : State).modSt (fun x =>
        { x with status := .waitRequests, objMask := s.active g, objErr := 0, objCause := none, objDest := d })).post (.objcallSend s.st.sid))))) := by
  change s.runN (if 55 ≤ a.toNat || s.isWave then _ else if s.beyondIn (s.active g) [a.toNat, a.toNat + 1, h.toNat, d.toNat] ≠ 0 then _ else _) = _
  rw [if_neg (by simp [hw]; omega), if_neg (not_not.2 hb)]

theorem beyondIn_zero (s : State) (fields : List Nat) : s.beyondIn 0 fields = 0 := by
  refine Mask.ext (fun l => ?_)
  unfold State.beyondIn
  rw [Mask.has_ofPred_and, Mask.has_zero]
  rfl

theorem objcall_none (hgo : s.goesOn = true) (hw : s.isWave = false) (ha : a.toNat < 55) (hp : s.active g = 0) : Retires (.objcall g d a h m) s s.nextSeq true := by
  refine retires_runN ((exec_objcall hw ha (by rw [hp]; exact beyondIn_zero s _)).trans ?_) (goesOn_landed s hgo) rfl hgo
  rw [if_pos hp]

/-- The requests of an OBJCALL by what they ask (R247). -/
theorem objRequests_map (s : State) (p : Mask) (a h : BitVec 6) (m : BitVec 3) :
    (s.objRequests p a h m).map (fun r => (r.ctx, r.handle, r.method, r.a0, r.a1, r.lane, r.sid)) =
      p.lanes.map (fun l => (s.gr.ctx, s.reg l h.toNat, m, s.reg l a.toNat, s.reg l (a.toNat + 1), l, s.st.sid)) := by
  unfold State.objRequests
  refine List.ext_getElem? (fun i => ?_)
  simp only [List.getElem?_map, List.getElem?_mapIdx, Option.map_map]
  rfl

theorem objcall_sends (hgo : s.goesOn = true) (hw : s.isWave = false) (ha : a.toNat < 55) (hp : s.active g ≠ 0)
    (hb : s.beyondIn (s.active g) [a.toNat, a.toNat + 1, h.toNat, d.toNat] = 0) (ho : s.owedBank = none) (hh : s.st.held = []) (hm : s.modx.getLsbD 1 = true → s.owing = false) :
    ∃ u, exec (.objcall g d a h m) s = .next u ∧ u.sameMem s ∧ u.gr.lanes = s.gr.lanes ∧ u.st.pc = s.st.pc ∧ u.st.status = .waitRequests ∧ u.st.objMask = s.active g ∧
      u.st.objDest = d ∧ u.requests.map (fun r => (r.ctx, r.handle, r.method, r.a0, r.a1, r.lane, r.sid)) =
        s.requests.map (fun r => (r.ctx, r.handle, r.method, r.a0, r.a1, r.lane, r.sid)) ++
          (s.active g).lanes.map (fun l => (s.gr.ctx, s.reg l h.toNat, m, s.reg l a.toNat, s.reg l (a.toNat + 1), l, s.st.sid)) ∧ .objcallSend s.st.sid ∈ u.events := by
  have hrel (f : State → Verdict) : s.releasedIf (s.modx.getLsbD 1) f = f s := by
    unfold State.releasedIf
    split
    · next hyes => exact released_quiet s f ⟨hm hyes, hh⟩
    · rfl
  have howe (f : State → Verdict) : s.unlessOwed f = f s := by
    unfold State.unlessOwed
    rw [ho]
  obtain ⟨x, hx⟩ := foldl_withL1 (f := State.touchState) (fun t o ht => touchState_withL1 ht o)
    ((s.objRequests (s.active g) a h m).filterMap (fun r => s.object s.gr.ctx r.handle)).eraseDups hh
  have he : exec (.objcall g d a h m) s = .next ((({ s.withL1 x with
      requests := s.requests ++ s.objRequests (s.active g) a h m, nextId := s.nextId + (s.objRequests (s.active g) a h m).length } : State).modSt (fun x =>
        { x with status := .waitRequests, objMask := s.active g, objErr := 0, objCause := none, objDest := d })).post (.objcallSend s.st.sid)) := by
    rw [exec_objcall hw ha hb, if_neg hp, howe, hrel, hx]
    exact runN_hold s _ (goesOn_landed s hgo)
  refine ⟨_, he, ⟨rfl, rfl⟩, rfl, rfl, rfl, rfl, rfl, ?_, List.mem_append_right _ (List.mem_singleton.2 rfl)⟩
  show (s.requests ++ s.objRequests (s.active g) a h m).map _ = _
  rw [List.map_append, objRequests_map]

theorem objReply_keeps {v : Wave} {err : Bool} {i : Instr} (he : exec i s = s.run (s.objReply g a err)) (hgo : s.goesOn = true) (hw : s.isWave = true)
    (hv : s.st.wave = some v) (hb : s.beyondIn (s.active g) [a.toNat] = 0) :
    ∃ u, exec i s = .next u ∧ u.sameMem s ∧ u.sameRegs s ∧ u.st.wave = some (s.answering v (s.active g) a err) := by
  have hrep : s.objReply g a err = .next (s.modSt (fun x => { x with wave := some (s.answering v (s.active g) a err) })) := by
    unfold State.objReply
    dsimp only
    rw [if_neg (by simp [hw]), if_neg (not_not.2 hb)]
    unfold State.modSt State.answering
    dsimp only
    rw [hv]
    rfl
  refine ⟨(s.modSt (fun x => { x with wave := some (s.answering v (s.active g) a err) })).retired s false, he.trans ?_, ⟨rfl, rfl⟩, ⟨rfl, rfl, rfl, rfl, rfl⟩, rfl⟩
  rw [hrep, State.run, if_pos (goesOn_landed s hgo), finish_next_place (u := s.modSt (fun x => { x with wave := some (s.answering v (s.active g) a err) })) false hgo
    (goesOn_exm hgo) rfl rfl rfl rfl]

theorem objReply_traps {err : Bool} {i : Instr} (he : exec i s = s.run (s.objReply g a err)) (hw : s.isWave = false) : Traps i s .illegal s.st.exm := by
  refine traps_run (he.trans ?_)
  unfold State.objReply
  dsimp only
  rw [if_pos (by simp [hw])]
end

/-! ## The events of a call (R246, R247, R253) -/

section
variable {s : State}

theorem foldl_dropL1_withL1 (l : List Nat) (s : State) : ∃ x, l.foldl State.dropL1 s = s.withL1 x := by
  induction l generalizing s with
  | nil => exact ⟨s.l1, rfl⟩
  | cons i l ih =>
    obtain ⟨x, hx⟩ := ih (s.dropL1 i)
    exact ⟨x, hx⟩

theorem objdelAtHome_ends {hd : Word} {c : Ctx} {o : ObjSlot} (hctx : s.ctxRec s.gr.ctx = some c) (ho : c.objects.find? (fun x => x.handle == hd) = some o)
    (hq : o.queue = []) (hr : o.running = false) :
    ∃ u, exec (.objdelAtHome s.gr.ctx hd) s = .next u ∧ u.sameMem s ∧ (s.st.status = .waitObjdel hd → s.st.gid = s.gr.gid → u.st.status = .runnable) ∧
      ∀ c', u.ctxRec s.gr.ctx = some c' → ∀ x ∈ c'.objects, x.idx = o.idx → x.live = false := by
  have he : exec (.objdelAtHome s.gr.ctx hd) s = .next (((((s.allGroups.filter (fun g => (s.allStreams.filter (fun x => decide (x.status = .waitObjdel hd) &&
      s.allGroups.any (fun g => g.gid == x.gid && g.ctx == s.gr.ctx))).any (fun x => x.gid == g.gid))).map Group.coreId).foldl State.dropL1
        (s.modObject s.gr.ctx o.idx (fun x => { x with live := false })))).wake (fun x =>
      decide (x.status = .waitObjdel hd) && s.allGroups.any (fun g => g.gid == x.gid && g.ctx == s.gr.ctx))) := by
    show execObjdelAtHome s.gr.ctx hd s = _
    unfold execObjdelAtHome
    rw [hctx, Option.bind_some, ho]
    dsimp only
    rw [if_neg (by simp [hq, hr])]
    rfl
  have hdrop := foldl_dropL1_withL1 ((s.allGroups.filter (fun g => (s.allStreams.filter (fun x => decide (x.status = .waitObjdel hd) &&
    s.allGroups.any (fun g => g.gid == x.gid && g.ctx == s.gr.ctx))).any (fun x => x.gid == g.gid))).map Group.coreId)
    (s.modObject s.gr.ctx o.idx (fun x => { x with live := false }))
  obtain ⟨l1, hl1⟩ := hdrop
  rw [hl1] at he
  refine ⟨_, he, ⟨rfl, rfl⟩, fun hs hg => ?_, fun c' hc' y hy hidx => ?_⟩
  · show (if (decide (s.st.status = .waitObjdel hd) && s.allGroups.any (fun g => g.gid == s.st.gid && g.ctx == s.gr.ctx)) = true then _ else s.st : Stream).status = _
    rw [if_pos (by
      rw [hs, decide_eq_true rfl, Bool.true_and]
      exact List.any_eq_true.2 ⟨s.gr, List.mem_cons_self, by simp [hg]⟩)]
  · have hrec := ctxRec_modCtx s s.gr.ctx (fun c => { c with objects := c.objects.map (fun y => if y.idx = o.idx then { y with live := false } else y) }) (fun _ => rfl)
    rw [hctx] at hrec
    obtain rfl := Option.some.inj (hc'.symm.trans hrec)
    obtain ⟨z, _, rfl⟩ := List.mem_map.1 hy
    by_cases hz : z.idx = o.idx
    · rw [if_pos hz]
    · rw [if_neg hz] at hidx
      exact absurd hidx hz

/-- Events posted one after the other. -/
theorem foldl_post {α : Type} (f : α → Instr) (l : List α) (s : State) : l.foldl (fun t r => t.post (f r)) s = { s with events := s.events ++ l.map f } := by
  induction l generalizing s with
  | nil => simp
  | cons r l ih =>
    rw [List.foldl_cons, ih]
    simp [State.post]

theorem objcallSend_goes (hst : s.st.status = .waitRequests) (hroom : ∀ x ∈ s.requests.filter (fun x => x.sid == s.st.sid), s.objRoom x.ctx (x.handle.toNat / 2 ^ 30) (fun d =>
      ((s.requests.filter (fun x => x.sid == s.st.sid)).filter (fun y => y.handle.toNat / 2 ^ 30 == d)).length) = true) :
    ∃ u, exec (.objcallSend s.st.sid) s = .next u ∧ u.sameMem s ∧ u.st.status = .waitReplies ∧
      ∀ x ∈ s.requests.filter (fun x => x.sid == s.st.sid), .objectRequestArrival x.id ∈ u.events := by
  have hfits : ((List.range Config.dies).all (fun die => ((s.requests.filter (fun r => r.sid == s.st.sid)).filter (fun r => r.handle.toNat / 2 ^ 30 == die)).all (fun r =>
      s.objRoom r.ctx die (fun d => ((s.requests.filter (fun r => r.sid == s.st.sid)).filter (fun q => q.handle.toNat / 2 ^ 30 == d)).length)))) = true := by
    refine List.all_eq_true.2 (fun die _ => List.all_eq_true.2 (fun r hr => ?_))
    obtain ⟨hmine, hdie⟩ := List.mem_filter.1 hr
    have hdie : r.handle.toNat / 2 ^ 30 = die := by simpa using hdie
    rw [← hdie]
    exact hroom r hmine
  refine ⟨(s.requests.filter (fun r => r.sid == s.st.sid)).foldl (fun t r => t.post (.objectRequestArrival r.id)) (s.modStream s.st.sid (fun y => { y with status := .waitReplies })), ?_, ?_⟩
  · show execObjcallSend s.st.sid s = _
    unfold execObjcallSend
    rw [stream?_self]
    dsimp only
    rw [hfits, if_neg (by simp [hst])]
  · rw [foldl_post]
    refine ⟨⟨rfl, rfl⟩, ?_, fun x hx => List.mem_append_right _ (List.mem_map.2 ⟨x, hx, rfl⟩)⟩
    show (if s.st.sid = s.st.sid then { s.st with status := .waitReplies } else s.st : Stream).status = _
    rw [if_pos rfl]

theorem requestArrival_refused {r : ObjRequest} (hr : s.requests.find? (fun x => x.id == r.id) = some r) (ho : s.object r.ctx r.handle = none) :
    ∃ u, exec (.objectRequestArrival r.id) s = .next u ∧ u.sameMem s ∧ .objectReplyArrival r.id ∈ u.events ∧
      ({ id := r.id, sid := r.sid, lane := r.lane, value := 0, error := some .prot } : ObjReply) ∈ u.replies := by
  refine ⟨({ s with requests := s.requests.filter (fun x => x.id != r.id) } : State).sendReplies [{ id := r.id, sid := r.sid, lane := r.lane, value := 0, error := some .prot }], ?_, ⟨rfl, rfl⟩,
    List.mem_append_right _ (List.mem_singleton.2 rfl), List.mem_append_right _ (List.mem_singleton.2 rfl)⟩
  show execObjectRequestArrival r.id s = _
  unfold execObjectRequestArrival
  rw [hr]
  dsimp only
  rw [show ({ s with requests := s.requests.filter (fun x => x.id != r.id) } : State).object r.ctx r.handle = none from ho]

theorem mem_of_object {ctx : Nat} {hd : Word} {o : ObjSlot} (h : s.object ctx hd = some o) : ∃ c, s.ctxRec ctx = some c ∧ o ∈ c.objects := by
  obtain ⟨c, hc, ho⟩ := Option.bind_eq_some_iff.1 h
  exact ⟨c, hc, List.mem_of_find?_eq_some ho⟩

theorem requestArrival_queues {r : ObjRequest} {o : ObjSlot} (hr : s.requests.find? (fun x => x.id == r.id) = some r) (ho : s.object r.ctx r.handle = some o) :
    ∃ u c', exec (.objectRequestArrival r.id) s = .next u ∧ u.sameMem s ∧ .conjugatorBatchStart o.die ∈ u.events ∧
      u.ctxRec r.ctx = some c' ∧ { o with queue := o.queue ++ [{ r with at_ := s.nextId }] } ∈ c'.objects := by
  obtain ⟨c, hc, hmem⟩ := mem_of_object ho
  have hrec := ctxRec_modCtx s r.ctx (fun c => { c with objects := c.objects.map (fun y => if y.idx = o.idx then { y with queue := y.queue ++ [{ r with at_ := s.nextId }] } else y) })
    (fun _ => rfl)
  rw [hc] at hrec
  refine ⟨(({ s with requests := s.requests.filter (fun x => x.id != r.id), nextId := s.nextId + 1 } : State).modObject r.ctx o.idx (fun x =>
      { x with queue := x.queue ++ [{ r with at_ := s.nextId }] })).post (.conjugatorBatchStart o.die), _, ?_, ⟨rfl, rfl⟩,
    List.mem_append_right _ (List.mem_singleton.2 rfl), hrec, List.mem_map.2 ⟨o, hmem, if_pos rfl⟩⟩
  show execObjectRequestArrival r.id s = _
  unfold execObjectRequestArrival
  rw [hr]
  dsimp only
  rw [show ({ s with requests := s.requests.filter (fun x => x.id != r.id) } : State).object r.ctx r.handle = some o from ho]
end

/-! ### A reply (R253, R284) -/

/-- The issuing OBJCALL with a reply in its lane. -/
def State.replied (s : State) (q : ObjReply) : State :=
  (({ s with replies := s.replies.filter (fun x => x.id != q.id) } : State).landLane s.gr.gid q.lane
    [((s.lane q.lane).winWord s.st.objDest.toNat, if q.error.isSome then 0 else q.value)]).modSt (fun y => y.noteReply q)

section
variable {s : State} {q : ObjReply}

theorem exec_replyArrival (hq : s.replies.find? (fun x => x.id == q.id) = some q) (hsid : q.sid = s.st.sid) (hm : s.st.objMask.has q.lane = true) :
    exec (.objectReplyArrival q.id) s = .next (if (s.replied q).st.objMask = 0 then (s.replied q).retireObjcall else s.replied q) := by
  show execObjectReplyArrival q.id s = _
  unfold execObjectReplyArrival
  rw [hq]
  dsimp only
  rw [hsid, show ({ s with replies := s.replies.filter (fun x => x.id != q.id) } : State).stream? s.st.sid = some s.st from
    stream?_self ({ s with replies := s.replies.filter (fun x => x.id != q.id) } : State)]
  dsimp only
  rw [if_neg (by simp [hm]), show ({ s with replies := s.replies.filter (fun x => x.id != q.id) } : State).focus s.st.sid = { s with replies := s.replies.filter (fun x => x.id != q.id) } from
    focus_self ({ s with replies := s.replies.filter (fun x => x.id != q.id) } : State)]
  rfl

theorem noteReply_objMask (x : Stream) (r : ObjReply) : (x.noteReply r).objMask = x.objMask.minus (Mask.one r.lane) := by
  unfold Stream.noteReply
  split <;> rfl

theorem noteReply_status (x : Stream) (r : ObjReply) : (x.noteReply r).status = x.status := by
  unfold Stream.noteReply
  split <;> rfl

theorem minus_one_ne_zero {m : Mask} {l : Nat} (h : m.has l = true) (hne : m ≠ Mask.one l) (hl : l < 64) : m.minus (Mask.one l) ≠ 0 := by
  intro hz
  refine hne (Mask.ext (fun k => ?_))
  have hk : (m.minus (Mask.one l)).has k = Mask.has 0 k := by rw [hz]
  rw [Mask.has_minus, Mask.has_zero] at hk
  by_cases hkl : k = l
  · rw [hkl, h, Mask.has_one l l hl, decide_eq_true rfl]
  · by_cases h64 : k < 64
    · rw [Mask.has_one l k h64, decide_eq_false hkl] at hk ⊢
      simpa using hk
    · unfold Mask.has
      rw [BitVec.getLsbD_of_ge m k (by omega), BitVec.getLsbD_of_ge (Mask.one l) k (by omega)]

theorem replyArrival_lands (hq : s.replies.find? (fun x => x.id == q.id) = some q) (hsid : q.sid = s.st.sid) (hl : q.lane < 64) (hm : s.st.objMask.has q.lane = true)
    (hne : s.st.objMask ≠ Mask.one q.lane) :
    ∃ u, exec (.objectReplyArrival q.id) s = .next u ∧ u.sameMem s ∧ u.st.objMask = s.st.objMask.minus (Mask.one q.lane) ∧ u.st.status = s.st.status ∧
      u.gr.lanes = s.gr.lanes.modify q.lane (fun y => y.land s.gr.allot [((s.lane q.lane).winWord s.st.objDest.toNat, if q.error.isSome = true then 0 else q.value)]) := by
  refine ⟨s.replied q, (exec_replyArrival hq hsid hm).trans ?_, ⟨rfl, rfl⟩, noteReply_objMask s.st q, noteReply_status s.st q, ?_⟩
  · rw [if_neg]
    show (s.st.noteReply q).objMask ≠ 0
    rw [noteReply_objMask]
    exact minus_one_ne_zero hm hne hl
  · show (if s.gr.gid = s.gr.gid then _ else s.gr : Group).lanes = _
    rw [if_pos rfl]
    rfl

theorem replyArrival_retires (hq : s.replies.find? (fun x => x.id == q.id) = some q) (hsid : q.sid = s.st.sid) (hl : q.lane < 64) (hm : s.st.objMask = Mask.one q.lane)
    (herr : q.error = none) (hnone : s.st.objErr = 0) (hgo : s.goesOn = true) (hcancel : s.st.cancelAt = none)
    (hmodx : s.modx = 0) :
    ∃ u, exec (.objectReplyArrival q.id) s = .next u ∧ u.sameMem s ∧ u.st.objMask = 0 ∧ u.st.status = .runnable ∧ u.st.pc = s.st.pc + 4 ∧ u.gr.cmdseq = s.gr.cmdseq + 1 := by
  have hhas : s.st.objMask.has q.lane = true := by rw [hm, Mask.has_one _ _ hl, decide_eq_true rfl]
  have hst : (s.replied q).st = { s.st with objMask := 0 } := by
    show s.st.noteReply q = _
    unfold Stream.noteReply
    rw [herr]
    dsimp only
    rw [hm, Mask.minus_self]
  have hgo' : (s.replied q).goesOn = true := by
    rw [← hgo]
    unfold State.goesOn State.landed
    rw [hst]
    rfl
  have hret : (s.replied q).retireObjcall = ((s.replied q).nextSeq.modSt (fun x => { x with status := .runnable, objErr := 0, objCause := none })).retired (s.replied q) true := by
    unfold State.retireObjcall
    dsimp only
    rw [hst]
    dsimp only
    rw [hnone, if_pos rfl, if_neg (show ¬ (s.replied q).modx.getLsbD 0 = true by
      rw [show (s.replied q).modx = s.modx by
        unfold State.modx
        rw [hst], hmodx]
      decide)]
    exact finish_next_place (u := (s.replied q).nextSeq.modSt (fun x => { x with status := .runnable, objErr := 0, objCause := none })) true hgo' (goesOn_exm hgo') rfl rfl rfl rfl
  refine ⟨((s.replied q).nextSeq.modSt (fun x => { x with status := .runnable, objErr := 0, objCause := none })).retired (s.replied q) true,
    (exec_replyArrival hq hsid hhas).trans ?_, ⟨rfl, rfl⟩, ?_, ?_, ?_, ?_⟩
  · rw [if_pos (by rw [hst]), hret]
  · exact (congrArg Stream.objMask hst :)
  · show (if (s.replied q).st.cancelAt.isSome then .stopped else .runnable : StreamStatus) = _
    rw [hst]
    exact if_neg (by simp [hcancel])
  · exact (congrArg (fun x : Stream => x.pc + 4) hst :)
  · show (if s.gr.gid = s.gr.gid then _ else s.gr : Group).cmdseq + 1 = _
    rw [if_pos rfl]
end

/-- Settles O52: the instructions by their effects, the events by what they put into the lists. -/
theorem objects : Obligations.Objects := by
  refine ⟨fun s g d a hgo hu => ⟨fun c hw ha hc hctx => ⟨fun hno => objdef_none hgo hu hw ha hc hctx hno, fun o ho => ?_⟩, fun hw ho => objdel_waits hgo hw hu ho,
    fun c hw hctx hall => objdel_gone hgo hw hu hctx hall, fun v ws hw hv hc hp => objend_ends hgo hu hw hv hc hp, fun hw => traps_run ?_⟩,
    fun s g d a h m hgo => ⟨fun hw ha hp => objcall_none hgo hw ha hp, fun hw ha hp hb ho hh hm => objcall_sends hgo hw ha hp hb ho hh hm, fun v hw hv hb =>
      ⟨objReply_keeps rfl hgo hw hv hb, objReply_keeps rfl hgo hw hv hb⟩, fun hw => ⟨objReply_traps rfl hw, objReply_traps rfl hw⟩⟩,
    fun s r q => ⟨fun hd c o hctx ho hq hr => objdelAtHome_ends hctx ho hq hr, fun hst hroom => objcallSend_goes hst hroom, fun hr => ⟨fun ho => requestArrival_refused hr ho,
      fun o ho => requestArrival_queues hr ho⟩, fun hq hsid _ hl _ => ⟨fun hm hne => replyArrival_lands hq hsid hl hm hne, fun hm herr hnone hgo hcancel hmodx =>
        replyArrival_retires hq hsid hl hm herr hnone hgo hcancel hmodx⟩⟩⟩
  · obtain ⟨hidx, hfree, hbelow, hgen, hdie, hlive, hrun, hqueue, hsize, hva, htable⟩ := newObject_fields ho
    obtain ⟨h30, h12, h0⟩ := handle_fields o hidx
    exact ⟨hidx, hfree, hbelow, h30, h12, h0, hgen, hdie, hlive, hrun, hqueue, hsize, hva, htable, objdef_some hgo hu hw ha hc hctx ho⟩
  · change s.run (if !s.isWave then _ else _) = _
    rw [if_pos (by simp [hw])]

end Sys2Proof.Machine
end

section
/-!
Batches of object requests: O53.
-/
namespace Sys2Proof.Machine

/-! ## Which run of requests a unit takes (R248) -/

theorem batchOf_run {o : ObjSlot} {r : ObjRequest} {rest : List ObjRequest} (h : o.queue = r :: rest) :
    ∃ after, o.queue = batchOf o ++ after ∧ batchOf o ≠ [] ∧ (batchOf o).length ≤ 64 ∧ (∀ q ∈ batchOf o, q.method = r.method) ∧
      ((batchOf o).length < 64 → ∀ q, after.head? = some q → q.method ≠ r.method) := by
  have hb : batchOf o = (o.queue.takeWhile (fun x => x.method == r.method)).take 64 := by
    unfold batchOf
    rw [h]
  rw [hb]
  refine ⟨(o.queue.takeWhile (fun x => x.method == r.method)).drop 64 ++ o.queue.dropWhile (fun x => x.method == r.method), ?_, ?_, List.length_take_le _ _, fun q hq => ?_, fun hlt q hq => ?_⟩
  · rw [← List.append_assoc, List.take_append_drop, List.takeWhile_append_dropWhile]
  · rw [h]
    simp
  · have := List.mem_takeWhile_imp (List.mem_of_mem_take hq)
    simpa using this
  · have hshort : (o.queue.takeWhile (fun x => x.method == r.method)).length < 64 := by
      rw [List.length_take] at hlt
      omega
    rw [List.drop_eq_nil_of_le (Nat.le_of_lt hshort), List.nil_append] at hq
    have := List.head?_dropWhile_not (fun x : ObjRequest => x.method == r.method) o.queue
    rw [hq] at this
    simpa using this

/-- The oldest of some head requests is one of them, and none is older. -/
theorem oldest_some {hs : List (Nat × ObjSlot × ObjRequest)} {m : Nat × ObjSlot × ObjRequest} (h : oldest hs = some m) : m ∈ hs ∧ ∀ x ∈ hs, m.2.2.at_ ≤ x.2.2.at_ := by
  have hfold (l : List (Nat × ObjSlot × ObjRequest)) (a : Nat × ObjSlot × ObjRequest) :
      (l.foldl (fun a b => if b.2.2.at_ < a.2.2.at_ then b else a) a = a ∨ l.foldl (fun a b => if b.2.2.at_ < a.2.2.at_ then b else a) a ∈ l) ∧
        (l.foldl (fun a b => if b.2.2.at_ < a.2.2.at_ then b else a) a).2.2.at_ ≤ a.2.2.at_ ∧
        ∀ x ∈ l, (l.foldl (fun a b => if b.2.2.at_ < a.2.2.at_ then b else a) a).2.2.at_ ≤ x.2.2.at_ := by
    induction l generalizing a with
    | nil => exact ⟨.inl rfl, Nat.le_refl _, fun x hx => absurd hx List.not_mem_nil⟩
    | cons b l ih =>
      rw [List.foldl_cons]
      by_cases hlt : b.2.2.at_ < a.2.2.at_
      · rw [if_pos hlt]
        obtain ⟨hmem, hle, hall⟩ := ih b
        refine ⟨.inr ?_, Nat.le_trans hle (Nat.le_of_lt hlt), fun x hx => ?_⟩
        · rcases hmem with he | hin
          · rw [he]
            exact List.mem_cons_self
          · exact List.mem_cons_of_mem b hin
        · rcases List.mem_cons.1 hx with rfl | hx
          · exact hle
          · exact hall x hx
      · rw [if_neg hlt]
        obtain ⟨hmem, hle, hall⟩ := ih a
        refine ⟨hmem.imp_right (List.mem_cons_of_mem b), hle, fun x hx => ?_⟩
        rcases List.mem_cons.1 hx with rfl | hx
        · exact Nat.le_trans hle (Nat.not_lt.1 hlt)
        · exact hall x hx
  cases hs with
  | nil => exact absurd h (by simp [oldest])
  | cons a l =>
    obtain rfl := Option.some.inj h
    obtain ⟨hmem, hle, hall⟩ := hfold l a
    refine ⟨?_, fun x hx => ?_⟩
    · rcases hmem with he | hin
      · rw [he]
        exact List.mem_cons_self
      · exact List.mem_cons_of_mem a hin
    · rcases List.mem_cons.1 hx with rfl | hx
      · exact hle
      · exact hall x hx

section
variable {s : State} {die : Nat}

theorem mem_heads {h : Nat × ObjSlot × ObjRequest} (hh : h ∈ s.heads die) :
    ∃ c ∈ s.ctxs, h.1 = c.ctx ∧ h.2.1 ∈ c.objects ∧ h.2.1.running = false ∧ h.2.1.die = die ∧ h.2.1.queue.head? = some h.2.2 := by
  obtain ⟨c, hc, hin⟩ := List.mem_flatMap.1 hh
  split at hin
  · exact absurd hin List.not_mem_nil
  · obtain ⟨o, ho, hsome⟩ := List.mem_filterMap.1 hin
    split at hsome
    · next r q hq =>
      split at hsome
      · next hd =>
        obtain rfl := Option.some.inj hsome
        exact ⟨c, hc, rfl, ho, by simpa using hd.2, hd.1, by rw [hq]; rfl⟩
      · exact absurd hsome (by simp)
    · exact absurd hsome (by simp)
end

/-! ## A batch's start (R248, R249) -/

theorem batchPages_ready {s : State} (pages : List (Nat × BitVec 3)) (h : ∀ p ∈ pages, ∃ l, s.translate s.gr.coreId s.gr.ctx p.1 p.2 = .ok l) : s.batchPages pages = .ready s := by
  induction pages with
  | nil => rfl
  | cons p pages ih =>
    obtain ⟨l, hl⟩ := h p List.mem_cons_self
    obtain ⟨va, need⟩ := p
    unfold State.batchPages
    rw [hl]
    exact ih (fun q hq => h q (List.mem_cons_of_mem _ hq))

theorem waveLane_args (left : List (Nat × Word)) (r : ObjRequest) : (waveLane left (some r)).word 256 0 = r.a0 ∧ (waveLane left (some r)).word 256 1 = r.a1 := by
  unfold waveLane
  dsimp only
  rw [Lane.word_putWord, Lane.word_putWord, Lane.word_putWord]
  exact ⟨rfl, rfl⟩

theorem waveGroup_lane (s : State) (die u ctx : Nat) {reqs : List ObjRequest} {i : Nat} {r : ObjRequest} (hr : reqs[i]? = some r) (hi : i < 64) :
    ((s.waveGroup die u ctx reqs).lanes.getD i Lane.start).word 256 0 = r.a0 ∧ ((s.waveGroup die u ctx reqs).lanes.getD i Lane.start).word 256 1 = r.a1 := by
  have h : ∃ left, (s.waveGroup die u ctx reqs).lanes.getD i Lane.start = waveLane left (some r) := by
    refine ⟨if (((s.dieRec die).conj[u]?).getD ⟨0, 0, 0, []⟩).owner = ctx then (((s.dieRec die).conj[u]?).getD ⟨0, 0, 0, []⟩).cols.getD i [] else [], ?_⟩
    unfold State.waveGroup
    dsimp only
    rw [List.getD, List.getElem?_map, List.getElem?_range hi, Option.map_some, Option.getD_some, hr]
  obtain ⟨left, h⟩ := h
  rw [h]
  exact waveLane_args left r

section
variable {s : State} {w : Wave} {u : Nat} {entry : CodeVa}

theorem foldl_syncLine_keeps {β : Type} {pi : State → β} (h : ∀ s ls sy, pi { s with lines := ls, syncLines := sy } = pi s) (l : List Loc) (s : State) :
    pi (l.foldl State.syncLine s) = pi s := foldl_keeps pi (syncLine_keeps pi h) l s

/-- The VA of the table entry of a batch's method (R245). -/
def State.methodEntryVa (s : State) (w : Wave) : Nat :=
  (((s.ctxRec s.gr.ctx).bind (fun c => c.objects.find? (fun o => o.idx == w.obj))).map (·.table)).getD 0 +
    8 * ((w.reqs[0]?).map (fun (r : ObjRequest) => r.method.toNat)).getD 0

/-- The pages that a batch needs are there (R245). -/
theorem batchPages_method (hr : s.methodReady w entry) : s.batchPages ((s.methodEntryVa w, needR) :: (List.range (w.stateSize / 4096 + 2)).filterMap (fun i =>
    if (if i = 0 then w.stateVa else w.stateVa / 4096 * 4096 + 4096 * i) < w.stateVa + w.stateSize then
      some (if i = 0 then w.stateVa else w.stateVa / 4096 * 4096 + 4096 * i, needRW) else none)) = .ready s := by
  obtain ⟨⟨l, hl, _⟩, _, _, hstate⟩ := hr
  refine batchPages_ready _ (fun p hp => ?_)
  rcases List.mem_cons.1 hp with rfl | hp
  · exact ⟨l, hl⟩
  · obtain ⟨i, _, hi⟩ := List.mem_filterMap.1 hp
    generalize hva : (if i = 0 then w.stateVa else w.stateVa / 4096 * 4096 + 4096 * i) = va at hi
    have hle : w.stateVa ≤ va := by
      rw [← hva]
      split <;> omega
    by_cases hlt : va < w.stateVa + w.stateSize
    · rw [if_pos hlt] at hi
      obtain rfl := Option.some.inj hi
      exact hstate va hle hlt
    · rw [if_neg hlt] at hi
      exact absurd hi (by simp)

/-- The stream of a batch at its beginning (R249). -/
structure AtStart (x : Stream) (s : State) (w : Wave) (u : Nat) (entry : CodeVa) : Prop where
  wave : x.wave = some { w with started := true, buf := [], replies := [], start := s.dev.clock.toNat }
  kind : x.kind = .wave u
  place : x.pc = entry ∧ x.pos = 0 ∧ x.dep = 0 ∧ x.status = .runnable ∧ x.exm = Mask.below w.reqs.length
  sregs : x.sregs = ((((List.replicate 60 0).set 0 (BitVec.ofNat 32 w.stateVa)).set 1 (BitVec.ofNat 32 (w.stateVa / 2 ^ 32))).set 2
    (BitVec.ofNat 32 w.reqs.length)).set 3 (BitVec.ofNat 32 (((w.reqs[0]?).map (fun (r : ObjRequest) => r.method.toNat)).getD 0))

theorem startBatch_form (hw : s.st.wave = some w) (hk : s.st.kind = .wave u) (hr : s.methodReady w entry) : ∃ (v : State) (x : Stream), s.startBatch = { v with st := x } ∧
    v.sameMem s ∧ v.gr.lanes = (s.waveGroup s.gr.die u s.gr.ctx w.reqs).lanes ∧ v.ctxs = s.ctxs ∧ AtStart x s w u entry := by
  have hpages := batchPages_method hr
  obtain ⟨⟨l, hl, rfl⟩, hne, hseg, _⟩ := hr
  unfold State.methodEntryVa at hpages
  unfold State.startBatch
  rw [hw, hk]
  dsimp only
  rw [hpages]
  dsimp only
  rw [hl]
  dsimp only
  rw [if_neg hne, if_neg (by simp [hseg])]
  generalize hv : List.foldl State.syncLine _ _ = v
  have hkeep {β : Type} (pi : State → β) (h : ∀ s ls sy, pi { s with lines := ls, syncLines := sy } = pi s) :
      pi v = pi (s.modGr (fun y => { s.waveGroup s.gr.die u s.gr.ctx w.reqs with gid := y.gid })) := by
    rw [← hv]
    exact foldl_syncLine_keeps h _ _
  refine ⟨(v.dropL1 _).countDie _ 5 1, _, rfl, ⟨hkeep State.mem (fun _ _ _ => rfl), hkeep State.host (fun _ _ _ => rfl)⟩, hkeep (fun t => t.gr.lanes) (fun _ _ _ => rfl),
    hkeep State.ctxs (fun _ _ _ => rfl), rfl, rfl, ⟨rfl, rfl, rfl, rfl, rfl⟩, rfl⟩

theorem startBatch_starts (hw : s.st.wave = some w) (hk : s.st.kind = .wave u) (hr : s.methodReady w entry) : s.startBatch.waveStarted s w entry ∧ s.startBatch.ctxs = s.ctxs := by
  obtain ⟨v, x, he, hmem, hlanes, hctxs, hwave, hkind, ⟨hpc, hpos, hdep, hstatus, hexm⟩, hsregs⟩ := startBatch_form hw hk hr
  rw [he]
  refine ⟨⟨hmem, hwave, hkind.trans hk.symm, hpc, hpos, hdep, hstatus, hexm, hsregs, fun i r hri hi => ?_⟩, hctxs⟩
  show (v.gr.lanes.getD i Lane.start).word 256 0 = r.a0 ∧ (v.gr.lanes.getD i Lane.start).word 256 1 = r.a1
  rw [hlanes]
  exact waveGroup_lane s _ _ _ hri hi
end

/-! ## A batch placed on a unit (R248) -/

section
variable {s : State} {die u ctx : Nat} {o : ObjSlot}

/-- The stream of a batch as it is placed. -/
def State.wavePlaced (s : State) (die u ctx : Nat) (o : ObjSlot) : Stream :=
  { Stream.start (s.nextId + 1) (s.waveGroup die u ctx (batchOf o)).gid (.wave u) 0 (s.waveGroup die u ctx (batchOf o)).alive with
    wave := some { obj := o.idx, started := false, refused := [], reqs := batchOf o, replies := [], buf := [], start := 0, stateVa := o.stateVa, stateSize := o.stateSize } }

/-- The new stream issues, with its group. -/
theorem focus_placeWave (hst : ∀ x ∈ s.allStreams, x.sid < s.nextId) (hgr : ∀ g ∈ s.allGroups, g.gid < s.nextId) :
    ((s.placeWave die u ctx o).focus (s.nextId + 1)).st = s.wavePlaced die u ctx o ∧ ((s.placeWave die u ctx o).focus (s.nextId + 1)).gr = s.waveGroup die u ctx (batchOf o) ∧
      ((s.placeWave die u ctx o).focus (s.nextId + 1)).ctxs = (s.placeWave die u ctx o).ctxs := by
  have hself : ¬ (s.placeWave die u ctx o).st.sid = s.nextId + 1 := fun h => absurd (hst s.st List.mem_cons_self) (by
    rw [show s.st.sid = s.nextId + 1 from h]
    omega)
  have hfind : (s.placeWave die u ctx o).streams.find? (fun x => x.sid == s.nextId + 1) = some (s.wavePlaced die u ctx o) := by
    show (s.streams ++ [s.wavePlaced die u ctx o]).find? _ = _
    rw [List.find?_append, List.find?_eq_none.2 (fun x hx hyes => ?_)]
    · simp [State.wavePlaced, Stream.start]
    · have hlt := hst x (List.mem_cons_of_mem _ hx)
      rw [show x.sid = s.nextId + 1 by simpa using hyes] at hlt
      omega
  have hgid : ¬ (s.wavePlaced die u ctx o).gid = (s.placeWave die u ctx o).gr.gid := fun h => absurd (hgr s.gr List.mem_cons_self) (by
    rw [show s.gr.gid = s.nextId from h.symm]
    omega)
  have hgfind : (s.placeWave die u ctx o).groups.find? (fun g => g.gid == (s.wavePlaced die u ctx o).gid) = some (s.waveGroup die u ctx (batchOf o)) := by
    show (s.groups ++ [s.waveGroup die u ctx (batchOf o)]).find? _ = _
    rw [List.find?_append, List.find?_eq_none.2 (fun g hg hyes => ?_)]
    · simp [State.wavePlaced, Stream.start]
    · have hlt := hgr g (List.mem_cons_of_mem _ hg)
      rw [show g.gid = s.nextId from (beq_iff_eq.1 hyes :)] at hlt
      omega
  unfold State.focus
  rw [if_neg hself, hfind]
  dsimp only
  rw [if_neg hgid, hgfind]
  dsimp only
  split <;> exact ⟨rfl, rfl, rfl⟩

theorem placeWave_heads (h : ℕ × ObjSlot × ObjRequest) (hh : h ∈ (s.placeWave die u ctx o).heads die) (hc : h.1 = ctx) : h.2.1.idx ≠ o.idx := by
  obtain ⟨c, hcin, hctx, hmem, hrun, _⟩ := mem_heads hh
  obtain ⟨d, _, hd⟩ := List.mem_map.1 (show c ∈ s.ctxs.map _ from hcin)
  intro hidx
  have hdc : d.ctx = ctx := by
    by_cases hdx : d.ctx = ctx
    · exact hdx
    · rw [if_neg hdx] at hd
      rw [hd, ← hctx]
      exact hc
  rw [if_pos hdc] at hd
  rw [← hd] at hmem
  obtain ⟨z, _, hz⟩ := List.mem_map.1 hmem
  by_cases hzi : z.idx = o.idx
  · rw [if_pos hzi] at hz
    rw [← hz] at hrun
    exact Bool.noConfusion hrun
  · rw [if_neg hzi] at hz
    exact hzi (hz ▸ hidx)

theorem roomFreed_events (s : State) : ∃ e, s.roomFreed = { s with events := e } := ⟨_, foldl_post _ _ s⟩
end

/-- The batch of the oldest head request is placed and starts. -/
theorem batchStart_places {s : State} {die u ctx : Nat} {o : ObjSlot} {r : ObjRequest} {c : Ctx} (hfree : s.freeConj die = some u) (hold : oldest (s.heads die) = some (ctx, o, r))
    (hctx : s.ctxRec ctx = some c) (ho : o ∈ c.objects) (hst : ∀ x ∈ s.allStreams, x.sid < s.nextId) (hgr : ∀ g ∈ s.allGroups, g.gid < s.nextId) :
    (∀ h ∈ s.heads die, r.at_ ≤ h.2.2.at_) ∧ o.running = false ∧ o.die = die ∧ o.queue.head? = some r ∧
    (∃ c' x, (s.placeWave die u ctx o).ctxRec ctx = some c' ∧ x ∈ c'.objects ∧ x.idx = o.idx ∧ x.running = true ∧ x.queue = o.queue.drop (batchOf o).length ∧
      ∀ h ∈ (s.placeWave die u ctx o).heads die, h.1 = ctx → h.2.1.idx ≠ o.idx) ∧
    ∃ w, ((s.placeWave die u ctx o).focus (s.nextId + 1)).st.wave = some w ∧ w.reqs = batchOf o ∧ w.obj = o.idx ∧ w.stateVa = o.stateVa ∧ w.stateSize = o.stateSize ∧
      ((s.placeWave die u ctx o).focus (s.nextId + 1)).st.kind = .wave u ∧ ((s.placeWave die u ctx o).focus (s.nextId + 1)).gr.die = die ∧
      ((s.placeWave die u ctx o).focus (s.nextId + 1)).gr.core = conjCore u ∧ ((s.placeWave die u ctx o).focus (s.nextId + 1)).gr.ctx = ctx ∧
      ((s.placeWave die u ctx o).focus (s.nextId + 1)).st.exm = Mask.below (batchOf o).length ∧
      (∀ i x, (batchOf o)[i]? = some x → (((s.placeWave die u ctx o).focus (s.nextId + 1)).lane i).word 256 0 = x.a0 ∧
        (((s.placeWave die u ctx o).focus (s.nextId + 1)).lane i).word 256 1 = x.a1) ∧
      ∃ t, exec (.conjugatorBatchStart die) s = .next t ∧ .conjugatorBatchStart die ∈ t.events ∧
        ∀ entry, ((s.placeWave die u ctx o).focus (s.nextId + 1)).methodReady w entry →
          t.waveStarted ((s.placeWave die u ctx o).focus (s.nextId + 1)) w entry ∧ t.ctxs = (s.placeWave die u ctx o).ctxs := by
  obtain ⟨hmem, hmin⟩ := oldest_some hold
  obtain ⟨_, _, _, _, hrun, hdie, hqueue⟩ := mem_heads hmem
  obtain ⟨qst, qgr, qctxs⟩ := focus_placeWave (die := die) (u := u) (ctx := ctx) (o := o) hst hgr
  have he : exec (.conjugatorBatchStart die) s = .next ((((s.placeWave die u ctx o).focus (s.nextId + 1)).startBatch.roomFreed).post (.conjugatorBatchStart die)) := by
    show execConjugatorBatchStart die s = _
    unfold execConjugatorBatchStart
    rw [hfree, hold]
  have hrec := ctxRec_modCtx s ctx (fun c => { c with objects := c.objects.map (fun y => if y.idx = o.idx then
    { y with running := true, queue := y.queue.drop (batchOf o).length } else y) }) (fun _ => rfl)
  rw [hctx] at hrec
  generalize (s.placeWave die u ctx o).focus (s.nextId + 1) = q at *
  refine ⟨hmin, hrun, hdie, hqueue, ⟨_, { o with running := true, queue := o.queue.drop (batchOf o).length }, hrec, List.mem_map.2 ⟨o, ho, if_pos rfl⟩, rfl, rfl, rfl,
    placeWave_heads⟩, ⟨o.idx, false, [], batchOf o, [], [], 0, o.stateVa, o.stateSize⟩, ?_, rfl, rfl, rfl, rfl, ?_, ?_, ?_, ?_, ?_, fun i x hx => ?_, _, he,
    List.mem_append_right _ (List.mem_singleton.2 rfl), fun entry hready => ?_⟩
  · rw [qst]
    rfl
  · rw [qst]
    rfl
  · rw [qgr]
    rfl
  · rw [qgr]
    rfl
  · rw [qgr]
    rfl
  · rw [qst]
    rfl
  · have hi : i < 64 := by
      obtain ⟨hlt, _⟩ := List.getElem?_eq_some_iff.1 hx
      have hq : ∃ r rest, o.queue = r :: rest := by
        cases hq : o.queue with
        | nil => rw [hq] at hqueue; exact absurd hqueue (by simp)
        | cons r rest => exact ⟨r, rest, rfl⟩
      obtain ⟨r, rest, hq⟩ := hq
      obtain ⟨_, _, _, hlen, _⟩ := batchOf_run hq
      omega
    show (q.gr.lanes.getD i Lane.start).word 256 0 = x.a0 ∧ (q.gr.lanes.getD i Lane.start).word 256 1 = x.a1
    rw [qgr]
    exact waveGroup_lane s die u ctx hx hi
  · obtain ⟨hstarted, hctxs⟩ := startBatch_starts (s := q) (u := u) (w := ⟨o.idx, false, [], batchOf o, [], [], 0, o.stateVa, o.stateSize⟩) (by rw [qst]; rfl) (by rw [qst]; rfl) hready
    obtain ⟨e, hevents⟩ := roomFreed_events q.startBatch
    rw [hevents]
    exact ⟨hstarted, hctxs.trans qctxs⟩

/-! ## A batch aborted (R252) -/

section
variable {s : State} {w : Wave}

theorem abortWave_replies (cause : Cause) (hw : s.st.wave = some w) : (s.abortWave cause).sameMem s ∧ (s.abortWave cause).st = Stream.none ∧
    ∀ r ∈ w.reqs, ({ id := r.id, sid := r.sid, lane := r.lane, value := 0, error := some cause } : ObjReply) ∈ (s.abortWave cause).replies ∧
      .objectReplyArrival r.id ∈ (s.abortWave cause).events := by
  have he : s.abortWave cause = (s.sendReplies (w.reqs.map (fun r => { id := r.id, sid := r.sid, lane := r.lane, value := 0, error := some cause }))).endWave := by
    unfold State.abortWave
    rw [hw]
  have hsent := mem_sendReplies s (w.reqs.map (fun r => { id := r.id, sid := r.sid, lane := r.lane, value := 0, error := some cause }))
  rw [he]
  refine ⟨⟨(endWave_keeps (pi := State.mem) (fun _ _ _ _ _ _ _ => rfl) _).trans (sendReplies_keeps (fun _ _ _ => rfl) s _),
    (endWave_keeps (pi := State.host) (fun _ _ _ _ _ _ _ => rfl) _).trans (sendReplies_keeps (fun _ _ _ => rfl) s _)⟩, endWave_st _, fun r hr => ?_⟩
  obtain ⟨hrep, hev⟩ := hsent _ (.inl (List.mem_map.2 ⟨r, hr, rfl⟩))
  rw [endWave_keeps (pi := State.replies) (fun _ _ _ _ _ _ _ => rfl)]
  exact ⟨hrep, mem_endWave_events hev⟩

theorem exec_methodFaultRerun (hk : s.isWave = true) (hp : s.st.status = .parked) (hall : ∀ f ∈ s.st.faults, f.settled ≠ none) :
    exec (.methodFaultRerun s.st.sid) s = .next (if s.st.faults.any (fun f => f.settled == some false) then s.abortWave .prot
      else if s.batchesRest s.gr.ctx then s.modSt (fun x => { x with status := .runnable }) else (s.modSt (fun x => { x with status := .runnable })).startBatch) := by
  have hnone : s.st.faults.any (fun f => f.settled.isNone) = false := List.any_eq_false.2 (fun f hf hno => hall f hf (Option.isNone_iff_eq_none.1 hno))
  show execMethodFaultRerun s.st.sid s = _
  unfold execMethodFaultRerun
  rw [focus_self]
  dsimp only
  rw [hnone, if_neg (by simp [hk, hp])]

theorem isWave_kind (hk : s.isWave = true) : ∃ u, s.st.kind = .wave u := by
  unfold State.isWave at hk
  split at hk
  · next u hu => exact ⟨u, hu⟩
  · exact Bool.noConfusion hk
end

/-- Settles O53: the run by takeWhile, the start by the state that it leaves, the aborts by the replies that they send. -/
theorem objectBatches : Obligations.ObjectBatches := by
  refine ⟨fun o r rest h => batchOf_run h, fun s die u ctx o r c hfree hold hctx ho _ hst hgr => batchStart_places hfree hold hctx ho hst hgr,
    fun s w hw hk hsid => ⟨fun hstart hclock => ?_, fun hp hall hbad => ?_, fun hp hall => ⟨fun hrest => ?_, fun entry hrest hready => ?_⟩⟩⟩
  · obtain ⟨hmem, hst, hrep⟩ := abortWave_replies .watchdog hw
    refine ⟨_, ?_, hmem, hst, hrep⟩
    show execObjectBatchWatchdog s.st.sid s = _
    unfold execObjectBatchWatchdog
    rw [focus_self]
    dsimp only
    rw [hw]
    dsimp only
    rw [if_pos ⟨rfl, hstart, hclock⟩]
  · obtain ⟨hmem, hst, hrep⟩ := abortWave_replies .prot hw
    obtain ⟨f, hf, hfalse⟩ := hbad
    refine ⟨_, (exec_methodFaultRerun hk hp hall).trans ?_, hmem, hst, fun r hr => (hrep r hr).1⟩
    rw [if_pos (List.any_eq_true.2 ⟨f, hf, by simp [hfalse]⟩)]
  all_goals
    have hnot : s.st.faults.any (fun f => f.settled == some false) = false := List.any_eq_false.2 (fun f hf => by simp [hall f hf])
    have he := exec_methodFaultRerun hk hp (fun f hf => by simp [hall f hf])
    rw [hnot, if_neg Bool.false_ne_true, hrest] at he
  · exact he
  · obtain ⟨u, hu⟩ := isWave_kind hk
    exact ⟨_, he, (startBatch_starts (u := u) (s := s.modSt (fun x => { x with status := .runnable })) hw hu hready).1⟩

end Sys2Proof.Machine
end

section
/-!
SUPPORT. What the books of a context, its levels, queues and records, leave unchanged, and what stands in its queues.
-/
namespace Sys2Proof.Machine

/-- A context without the counts of its levels and completion records. -/
def Ctx.shelf (c : Ctx) : Ctx := { c with gens := [], jobCount := 0, topPhase := 0 }

/-- A view of the state that sees neither the counters and the events, nor what a context counts, nor whether a stream waits. -/
structure BookBlind {β : Type} (pi : State → β) : Prop where
  ctx : ∀ s n f, (∀ c : Ctx, (f c).shelf = c.shelf) → pi (s.modCtx n f) = pi s
  books : ∀ s co ev, pi { s with counters := co, events := ev } = pi s
  streams : ∀ s f, (∀ x : Stream, (f x).dozing = x.dozing) → pi (s.mapStreams f) = pi s

/-- The same view, where it may see what a context counts, but for its highest phase. -/
structure LevelBlind {β : Type} (pi : State → β) : Prop where
  phase : ∀ s n p, pi (s.modCtx n (fun c => { c with topPhase := max c.topPhase p })) = pi s
  books : ∀ s co ev, pi { s with counters := co, events := ev } = pi s
  wakes : ∀ s ctx, pi (s.wakeCounters ctx) = pi s

section
variable {β : Type} {pi : State → β}

theorem BookBlind.levels (h : BookBlind pi) : LevelBlind pi := ⟨fun s n _ => h.ctx s n _ (fun _ => rfl), h.books, fun s _ => wake_dozes h.streams s _⟩

theorem LevelBlind.post (h : LevelBlind pi) (s : State) (i : Instr) : pi (s.post i) = pi s := h.books s s.counters _

theorem LevelBlind.counters (h : LevelBlind pi) (s : State) (co : List Counter) : pi { s with counters := co } = pi s := h.books s co s.events

theorem BookBlind.post (h : BookBlind pi) (s : State) (i : Instr) : pi (s.post i) = pi s := h.books s s.counters _

theorem BookBlind.counters (h : BookBlind pi) (s : State) (co : List Counter) : pi { s with counters := co } = pi s := h.books s co s.events

theorem complete_keeps (h : BookBlind pi) (hr : ∀ s r, pi { s with records := r } = pi s) (s : State) (ctx : Nat) (tag : BitVec 16) (units : Nat) (lid : Word) (status : Nat) (d : BitVec 8) (time : Nat) :
    pi (s.complete ctx tag units lid status d time) = pi s := by
  unfold State.complete
  split
  · rfl
  · next c _ => exact (h.post _ _).trans ((hr (s.modCtx ctx _) _).trans (h.ctx s ctx _ (fun _ => rfl)))

theorem settleLevels_keeps (h : LevelBlind pi) (s : State) (ctx : Nat) : pi (s.settleLevels ctx) = pi s := by
  unfold State.settleLevels
  dsimp only
  rw [h.post]
  refine (h.wakes _ ctx).trans ?_
  exact (h.counters _ _).trans ((foldl_keeps pi (fun t c => h.counters t _) _ _).trans (h.counters s _))

theorem bumpNode_keeps (h : LevelBlind pi) (s : State) (ctx graph node : Nat) (n : Word) : pi (s.bumpNode ctx graph node n) = pi s := by
  unfold State.bumpNode
  dsimp only
  split <;> exact h.counters s _

theorem leaveLevels_keeps (h : BookBlind pi) (s : State) (ctx : Nat) (fields : LaunchRec) (g : Word) (child : Bool) :
    pi (s.leaveLevels ctx fields g child) = pi s := by
  unfold State.leaveLevels
  dsimp only
  rw [settleLevels_keeps h.levels]
  split
  · exact h.ctx s ctx _ (fun _ => rfl)
  · refine (h.counters _ _).trans ?_
    rw [foldl_keeps pi (fun t n => bumpNode_keeps h.levels t ctx _ n _)]
    exact h.ctx s ctx _ (fun _ => rfl)

theorem arrivePhase_keeps (h : LevelBlind pi) (s : State) (ctx : Nat) (q : QueuedRec) : pi (s.arrivePhase ctx q) = pi s := by
  unfold State.arrivePhase
  dsimp only
  split
  · exact (h.counters (s.modCtx ctx _) _).trans (h.phase s ctx _)
  · exact (h.counters (s.modCtx ctx _) _).trans (h.phase s ctx _)

/-- A record that enters its levels counts for the job; all else is counters. -/
theorem enterLevels_counts (h : LevelBlind pi) (s : State) (ctx : Nat) (q : QueuedRec) :
    pi (s.enterLevels ctx q) = pi (s.modCtx ctx (fun c => { c with jobCount := c.jobCount + 1 })) := by
  unfold State.enterLevels
  dsimp only
  rw [settleLevels_keeps h]
  split
  · rfl
  · split
    · exact arrivePhase_keeps h _ ctx q
    · rw [bumpNode_keeps h]
      refine (h.counters _ _).trans ?_
      split
      · exact arrivePhase_keeps h _ ctx q
      · exact (h.counters _ _).trans ((h.counters _ _).trans (arrivePhase_keeps h _ ctx q))

theorem enterLevels_keeps (h : BookBlind pi) (s : State) (ctx : Nat) (q : QueuedRec) : pi (s.enterLevels ctx q) = pi s :=
  (enterLevels_counts h.levels s ctx q).trans (h.ctx s ctx _ (fun _ => rfl))

theorem takeChild_keeps (h : ∀ s c, pi { s with ctxs := c } = pi s) (s : State) (ctx q : Nat) : pi (s.takeChild ctx q) = pi s := by
  unfold State.takeChild
  split
  · rfl
  · split
    · rfl
    · split
      · rfl
      · exact (h _ _).trans (h s _)

theorem unqueue_keeps (h : ∀ s c, pi { s with ctxs := c } = pi s) (s : State) (ctx q : Nat) (n : BitVec 16) : pi (s.unqueue ctx q n) = pi s :=
  (takeChild_keeps h _ ctx q).trans ((h _ _).trans (h s _))
end

theorem bookBlind_mem : BookBlind State.mem := ⟨fun _ _ _ _ => rfl, fun _ _ _ => rfl, fun _ _ _ => rfl⟩
theorem bookBlind_host : BookBlind State.host := ⟨fun _ _ _ _ => rfl, fun _ _ _ => rfl, fun _ _ _ => rfl⟩
theorem bookBlind_launches : BookBlind State.launches := ⟨fun _ _ _ _ => rfl, fun _ _ _ => rfl, fun _ _ _ => rfl⟩
theorem bookBlind_st : BookBlind (fun s => s.st.dozing) := ⟨fun _ _ _ _ => rfl, fun _ _ _ => rfl, fun s _ h => h s.st⟩

theorem bookBlind_shelf : BookBlind (fun s => s.ctxs.map Ctx.shelf) := by
  refine ⟨fun s n f h => ?_, fun _ _ _ => rfl, fun _ _ _ => rfl⟩
  show (s.ctxs.map (fun x => if x.ctx = n then f x else x)).map Ctx.shelf = _
  rw [List.map_map]
  refine List.map_congr_left (fun x _ => ?_)
  show (if x.ctx = n then f x else x).shelf = x.shelf
  split
  · exact h x
  · rfl

theorem sameMem_unqueue (s : State) (ctx q : Nat) (n : BitVec 16) : (s.unqueue ctx q n).sameMem s :=
  ⟨unqueue_keeps (pi := State.mem) (fun _ _ => rfl) s ctx q n, unqueue_keeps (pi := State.host) (fun _ _ => rfl) s ctx q n⟩

/-- The record of a context, but for what it counts. -/
theorem ctxRec_shelf {u s : State} (h : u.ctxs.map Ctx.shelf = s.ctxs.map Ctx.shelf) (ctx : Nat) : (u.ctxRec ctx).map Ctx.shelf = (s.ctxRec ctx).map Ctx.shelf := by
  have hfind (t : State) : (t.ctxs.map Ctx.shelf).find? (fun x => x.ctx == ctx) = (t.ctxRec ctx).map Ctx.shelf := List.find?_map ..
  rw [← hfind u, ← hfind s, h]

/-- What a field of a shelved context is. -/
theorem ctxRec_of_shelf {u s : State} (h : u.ctxs.map Ctx.shelf = s.ctxs.map Ctx.shelf) {ctx : Nat} {c : Ctx} (hc : u.ctxRec ctx = some c) :
    ∃ d, s.ctxRec ctx = some d ∧ d.shelf = c.shelf := by
  have hm := ctxRec_shelf h ctx
  rw [hc] at hm
  exact Option.map_eq_some_iff.1 hm.symm

/-! ## The records of a queue -/

section
variable {s : State} {ctx k : Nat} {c : Ctx}

theorem getD_modify {α : Type} (f : α → α) (l : List α) (i : Nat) (d : α) (h : f d = d) : (l.modify i f).getD i d = f (l.getD i d) := by
  rw [List.getD_eq_getElem?_getD, List.getD_eq_getElem?_getD, List.getElem?_modify_eq]
  cases l[i]? with
  | none => exact h.symm
  | some x => rfl

/-- A context with children left out and a queue changed. -/
theorem ctxRec_modQueue (s : State) (ctx k : Nat) (f : List QueuedRec → List QueuedRec) :
    (s.modQueue ctx k f).ctxRec ctx = (s.ctxRec ctx).map (fun c => { c with queues := c.queues.modify k f }) := ctxRec_modCtx s ctx _ (fun _ => rfl)

theorem ctxRec_children (s : State) (ctx : Nat) (f : List QueuedRec → List QueuedRec) :
    (s.modCtx ctx (fun c => { c with children := f c.children })).ctxRec ctx = (s.ctxRec ctx).map (fun c => { c with children := f c.children }) :=
  ctxRec_modCtx s ctx _ (fun _ => rfl)

/-- What waits after a child has been taken waited before it. -/
theorem takeChild_waiting {c' : Ctx} (hc : (s.takeChild ctx k).ctxRec ctx = some c') :
    ∃ c, s.ctxRec ctx = some c ∧ (∀ q ∈ c'.waiting k, q ∈ c.waiting k) ∧ ∀ q ∈ c'.children, q ∈ c.children := by
  unfold State.takeChild at hc
  cases hrec : s.ctxRec ctx with
  | none => rw [hrec] at hc; exact ⟨c', hrec ▸ hc, fun _ h => h, fun _ h => h⟩
  | some c =>
    rw [hrec] at hc
    dsimp only at hc
    cases hx : c.children.find? (fun x => x.fields.queue == k) with
    | none => rw [hx] at hc; exact ⟨c', hrec ▸ hc, fun _ h => h, fun _ h => h⟩
    | some x =>
      rw [hx] at hc
      dsimp only at hc
      by_cases hfull : 64 ≤ (c.queue k).length
      · rw [if_pos hfull] at hc; exact ⟨c', hrec ▸ hc, fun _ h => h, fun _ h => h⟩
      · rw [if_neg hfull, ctxRec_modQueue, ctxRec_children s ctx (fun l => l.filter (fun z => z.lnum != x.lnum)), hrec] at hc
        obtain rfl := Option.some.inj hc
        refine ⟨c, rfl, fun q hq => ?_, fun q hq => (List.mem_filter.1 hq).1⟩
        rcases List.mem_append.1 hq with hq | hq
        · have hmod : q ∈ (c.queues.modify k (fun l => l ++ [x])).getD k [] := hq
          rw [List.getD_eq_getElem?_getD, List.getElem?_modify_eq] at hmod
          cases hk : c.queues[k]? with
          | none => rw [hk] at hmod; exact absurd hmod (by simp)
          | some l =>
            rw [hk] at hmod
            rcases List.mem_append.1 hmod with hl | hl
            · refine List.mem_append_left _ ?_
              rw [Ctx.queue, List.getD_eq_getElem?_getD, hk]
              exact hl
            · rw [List.mem_singleton.1 hl]
              exact List.mem_append_right _ (List.mem_filter.2 ⟨List.mem_of_find?_eq_some hx, (List.find?_some hx :)⟩)
        · obtain ⟨hm, hqk⟩ := List.mem_filter.1 hq
          exact List.mem_append_right _ (List.mem_filter.2 ⟨(List.mem_filter.1 hm).1, hqk⟩)

/-- A record that has left its queue waits no more. -/
theorem unqueue_gone {n : BitVec 16} {c' : Ctx} (hc : (s.unqueue ctx k n).ctxRec ctx = some c') : ∀ q ∈ c'.waiting k, q.lnum ≠ n := by
  obtain ⟨c, hrec, hsub, _⟩ := takeChild_waiting hc
  intro q hq
  have hm := hsub q hq
  rw [ctxRec_modQueue, ctxRec_children s ctx (fun l => l.filter (fun x => x.lnum != n))] at hrec
  obtain ⟨d, hd, rfl⟩ := Option.map_eq_some_iff.1 hrec
  obtain ⟨e, _, rfl⟩ := Option.map_eq_some_iff.1 hd
  have hne (l : List QueuedRec) (h : q ∈ l.filter (fun x => x.lnum != n)) : q.lnum ≠ n := by simpa using (List.mem_filter.1 h).2
  rcases List.mem_append.1 hm with hq | hq
  · have hq : q ∈ (e.queues.modify k (fun l => l.filter (fun x => x.lnum != n))).getD k [] := hq
    rw [getD_modify (fun l : List QueuedRec => l.filter (fun x => x.lnum != n)) e.queues k [] rfl] at hq
    exact hne _ hq
  · exact hne _ (List.mem_filter.1 hq).1
end

end Sys2Proof.Machine
end

section
/-!
Counters of levels, CANCEL and SYSCALL: O54.
-/
namespace Sys2Proof.Machine

/-! ## The value of a counter that is bumped -/

/-- R257: a counter stops at 0 and holds 32 bits. -/
theorem toNat_bumpCount (c : Word) (n : Int) : (bumpCount c n).toNat = (max ((c.toNat : Int) + n) 0 % 2 ^ 32).toNat :=
  BitVec.toNat_ofInt ..

section
variable {s : State} {ctx : Nat} {n : Int}

theorem find?_modLaunch (s : State) (key : Nat) (f : Launch → Launch) (hf : ∀ x, (f x).key = x.key) :
    (s.modLaunch key f).launches.find? (fun x => x.key == key) = (s.launches.find? (fun x => x.key == key)).map f :=
  find?_map_keep (fun x : Launch => x.key) key f hf _

theorem levelCount_launch {key : Nat} {x : Launch} (h : s.launches.find? (fun y => y.key == key) = some x) :
    (s.addLevel ctx (.launch key) n).levelCount ctx (.launch key) = bumpCount (s.levelCount ctx (.launch key)) n := by
  have hf := find?_modLaunch s key (fun x => { x with count := bumpCount x.count n }) (fun _ => rfl)
  show (((s.modLaunch key (fun x => { x with count := bumpCount x.count n })).launches.find? (fun y => y.key == key)).map (·.count)).getD 0 =
    bumpCount (((s.launches.find? (fun y => y.key == key)).map (·.count)).getD 0) n
  rw [hf, h]
  rfl

/-- A record found by its launch number in lists that change it and keep its number. -/
theorem find?_map_lnum (m : BitVec 16) (f : QueuedRec → QueuedRec) (hf : ∀ q, (f q).lnum = q.lnum) (l : List QueuedRec) :
    (l.map (fun x => if x.lnum = m then f x else x)).find? (fun q => q.lnum == m) = (l.find? (fun q => q.lnum == m)).map f := by
  induction l with
  | nil => rfl
  | cons a r ih =>
    by_cases h : a.lnum = m
    · have h2 : (f a).lnum = m := (hf a).trans h
      simp [h, h2]
    · simpa [h] using ih

/-- The records that wait for a queue, where one of them has changed. -/
theorem waiting_modRecord (c : Ctx) (k : Nat) (one : QueuedRec → QueuedRec) (hq : ∀ q, (one q).fields = q.fields) :
    ({ c with children := c.children.map one, queues := c.queues.modify k (fun l => l.map one) } : Ctx).waiting k = (c.waiting k).map one := by
  have hqueue : (c.queues.modify k (fun l => l.map one)).getD k [] = (c.queue k).map one :=
    getD_modify (fun l : List QueuedRec => l.map one) c.queues k [] rfl
  have hkids : (c.children.map one).filter (fun x => x.fields.queue == k) = (c.children.filter (fun x => x.fields.queue == k)).map one := by
    rw [List.filter_map]
    refine congrArg (List.map one) (List.filter_congr (fun x _ => ?_))
    show ((one x).fields.queue == k) = _
    rw [hq]
  exact (congrArg₂ (· ++ ·) hqueue hkids).trans List.map_append.symm

theorem levelCount_queued {k : Nat} {m : BitVec 16} {c : Ctx} {q : QueuedRec} (hc : s.ctxRec ctx = some c) (hq : (c.waiting k).find? (fun q => q.lnum == m) = some q) :
    (s.addLevel ctx (.queued k m) n).levelCount ctx (.queued k m) = bumpCount (s.levelCount ctx (.queued k m)) n := by
  show (((s.modRecord ctx k m (fun q => { q with count := bumpCount q.count n })).ctxRec ctx).bind (fun c => ((c.waiting k).find? (fun q => q.lnum == m)).map (·.count))).getD 0 =
    bumpCount (((s.ctxRec ctx).bind (fun c => ((c.waiting k).find? (fun q => q.lnum == m)).map (·.count))).getD 0) n
  unfold State.modRecord
  rw [ctxRec_modQueue, ctxRec_children s ctx (fun l => l.map _), hc]
  show (((Ctx.waiting _ k).find? (fun q => q.lnum == m)).map (·.count)).getD 0 = bumpCount ((((c.waiting k).find? (fun q => q.lnum == m)).map (·.count)).getD 0) n
  rw [waiting_modRecord c k (fun x => if x.lnum = m then { x with count := bumpCount x.count n } else x) (fun q => by split <;> rfl),
    find?_map_lnum m (fun q => { q with count := bumpCount q.count n }) (fun _ => rfl), hq]
  rfl

theorem levelCount_job {c : Ctx} (hc : s.ctxRec ctx = some c) : (s.addLevel ctx .job n).levelCount ctx .job = bumpCount (s.levelCount ctx .job) n := by
  show (((s.modCtx ctx (fun c => { c with jobCount := bumpCount c.jobCount n })).ctxRec ctx).map (·.jobCount)).getD 0 = bumpCount (((s.ctxRec ctx).map (·.jobCount)).getD 0) n
  rw [ctxRec_modCtx s ctx (fun c => { c with jobCount := bumpCount c.jobCount n }) (fun _ => rfl), hc]
  rfl

/-- What a level that an id names is (R399). -/
theorem level_launch {l : BitVec 2} {id : Word} {key : Nat} (h : s.level ctx l id = some (.launch key)) : ∃ x, s.launches.find? (fun y => y.key == key) = some x := by
  unfold State.level at h
  split at h
  · cases h
  · split at h
    · split at h
      · next x hx =>
        injection h with h
        injection h with h
        have hmem := List.mem_of_find?_eq_some hx
        exact Option.isSome_iff_exists.1 (List.find?_isSome.2 ⟨x, hmem, by simp [h]⟩)
      · obtain ⟨c, _, hf⟩ := Option.bind_eq_some_iff.1 h
        obtain ⟨k, _, hk⟩ := List.exists_of_findSome?_eq_some hf
        obtain ⟨q, _, hq⟩ := Option.map_eq_some_iff.1 hk
        cases hq
    · split at h
      · cases h
      · obtain ⟨c, _, hf⟩ := Option.map_eq_some_iff.1 h
        cases hf
    · obtain ⟨c, _, hf⟩ := Option.map_eq_some_iff.1 h
      cases hf
    · split at h <;> cases h

theorem level_queued {l : BitVec 2} {id : Word} {k : Nat} {m : BitVec 16} (h : s.level ctx l id = some (.queued k m)) :
    ∃ c q, s.ctxRec ctx = some c ∧ k < 8 ∧ q ∈ c.waiting k ∧ q.valid = true ∧ q.lnum = m := by
  unfold State.level at h
  split at h
  · cases h
  · split at h
    · split at h
      · cases h
      · obtain ⟨c, hc, hf⟩ := Option.bind_eq_some_iff.1 h
        obtain ⟨j, hj, hk⟩ := List.exists_of_findSome?_eq_some hf
        obtain ⟨q, hq, hqk⟩ := Option.map_eq_some_iff.1 hk
        injection hqk with hjk hm
        subst hjk
        refine ⟨c, q, hc, List.mem_range.1 hj, List.mem_of_find?_eq_some hq, ?_, hm⟩
        have hv := List.find?_some hq
        simp only [Bool.and_eq_true] at hv
        exact hv.1
    · split at h
      · cases h
      · obtain ⟨c, _, hf⟩ := Option.map_eq_some_iff.1 h
        cases hf
    · obtain ⟨c, _, hf⟩ := Option.map_eq_some_iff.1 h
      cases hf
    · split at h <;> cases h

theorem level_job {l : BitVec 2} {id : Word} (h : s.level ctx l id = some .job) : ∃ c, s.ctxRec ctx = some c := by
  unfold State.level at h
  split at h
  · cases h
  · split at h
    · split at h
      · cases h
      · obtain ⟨c, hc, _⟩ := Option.bind_eq_some_iff.1 h
        exact ⟨c, hc⟩
    · split at h
      · cases h
      · obtain ⟨c, _, hf⟩ := Option.map_eq_some_iff.1 h
        cases hf
    · obtain ⟨c, _, hf⟩ := Option.map_eq_some_iff.1 h
      cases hf
    · split at h
      · next hj => exact Option.isSome_iff_exists.1 hj.2
      · cases h

/-- R287: CNTINC changes the counter of the level by its value. -/
theorem levelCount_addLevel {l : BitVec 2} {id : Word} {x : Level} (h : s.level ctx l id = some x) (hx : ∀ kind k, x ≠ .counter kind k) :
    (s.addLevel ctx x n).levelCount ctx x = bumpCount (s.levelCount ctx x) n := by
  cases x with
  | launch key =>
    obtain ⟨y, hy⟩ := level_launch h
    exact levelCount_launch hy
  | queued k m =>
    obtain ⟨c, q, hc, _, hq, _, hm⟩ := level_queued h
    obtain ⟨y, hy⟩ := Option.isSome_iff_exists.1 (List.find?_isSome.2 ⟨q, hq, by simp [hm]⟩ : ((c.waiting k).find? (fun q => q.lnum == m)).isSome = true)
    exact levelCount_queued hc hy
  | counter kind k => exact absurd rfl (hx kind k)
  | job =>
    obtain ⟨c, hc⟩ := level_job h
    exact levelCount_job hc

/-! ## A graph's and a phase's counter -/

/-- A counter among those of a list that are not over. -/
theorem find?_filter_of {α : Type} {p q : α → Bool} {l : List α} {x : α} (h : l.find? p = some x) (hq : q x = true) : (l.filter q).find? p = some x := by
  induction l with
  | nil => cases h
  | cons a r ih =>
    rw [List.find?_cons] at h
    cases hp : p a with
    | true =>
      rw [hp] at h
      obtain rfl := Option.some.inj h
      rw [List.filter_cons_of_pos hq, List.find?_cons, hp]
    | false =>
      rw [hp] at h
      rw [List.filter_cons]
      split
      · rw [List.find?_cons, hp]
        exact ih h
      · exact ih h

theorem counter?_modCounter (s : State) (kind ctx id : Nat) (f : Counter → Counter) (hf : ∀ c, (f c).kind = c.kind ∧ (f c).ctx = c.ctx ∧ (f c).id = c.id) :
    (s.modCounter kind ctx id f).counter? kind ctx id = (s.counter? kind ctx id).map f := by
  unfold State.counter? State.modCounter
  dsimp only
  rw [List.find?_map]
  induction s.counters with
  | nil => rfl
  | cons a r ih =>
    obtain ⟨hk, hc, hi⟩ := hf a
    by_cases h : a.kind = kind ∧ a.ctx = ctx ∧ a.id = id
    · obtain ⟨rfl, rfl, rfl⟩ := h
      simp [hk, hc, hi]
    · have hb : ((a.kind == kind && a.ctx == ctx && a.id == id) : Bool) = false := by
        rw [Bool.eq_false_iff]
        simpa [and_assoc] using h
      simp only [List.find?_cons, Function.comp, if_neg h, hb]
      exact ih

/-- A counter of another kind is not changed. -/
theorem counter?_modCounter_other {kind kind' : Nat} (h : kind ≠ kind') (s : State) (ctx' id' ctx id : Nat) (f : Counter → Counter) (hf : ∀ c, (f c).kind = c.kind) :
    (s.modCounter kind' ctx' id' f).counter? kind ctx id = s.counter? kind ctx id := by
  unfold State.counter? State.modCounter
  dsimp only
  induction s.counters with
  | nil => rfl
  | cons a r ih =>
    by_cases hm : a.kind = kind' ∧ a.ctx = ctx' ∧ a.id = id'
    · have hne : (a.kind == kind) = false := by
        rw [hm.1]
        simpa using fun e => h e.symm
      simp only [List.map_cons, if_pos hm, List.find?_cons, hf a, hne, Bool.false_and]
      exact ih
    · simp only [List.map_cons, if_neg hm, List.find?_cons, ih]

theorem counter?_filter {kind ctx id : Nat} {c : Counter} {p : Counter → Bool} (h : s.counter? kind ctx id = some c) (hp : p c = true) :
    ({ s with counters := s.counters.filter p } : State).counter? kind ctx id = some c := find?_filter_of h hp

theorem counter?_fields {kind ctx id : Nat} {c : Counter} (h : s.counter? kind ctx id = some c) : c.kind = kind ∧ c.ctx = ctx ∧ c.id = id := by
  have hp := List.find?_some h
  simpa [and_assoc] using hp

/-- A counter that is not 0 stands when graphs and phases that are complete go, if no graph leaves its phase. -/
theorem counter?_settleLevels {t : State} {kind id : Nat} {c : Counter} (h : t.counter? kind ctx id = some c) (hne : c.count ≠ 0) (hkind : kind = 1 ∨ kind = 2)
    (hgone : kind = 2 → ∀ y ∈ t.counters, y.kind = 1 → y.closed = false ∨ y.count ≠ 0) : (t.settleLevels ctx).counter? kind ctx id = some c := by
  have hk4 : (c.kind == 4) = false := by
    obtain ⟨hk, _⟩ := counter?_fields h
    rcases hkind with rfl | rfl <;> simp [hk]
  have hover (k : Nat) : (c.kind == k && c.ctx == ctx && c.closed && decide (c.count = 0)) = false := by
    rw [decide_eq_false hne, Bool.and_false]
  unfold State.settleLevels
  dsimp only
  refine counter?_filter ?_ (by rw [hover 2]; rfl)
  rcases hkind with rfl | rfl
  · refine (foldl_keeps (fun u => u.counter? 1 ctx id) (fun u (g : Counter) =>
      counter?_modCounter_other (kind := 1) (kind' := 2) (by decide) u ctx g.node ctx id (fun c => { c with count := bumpCount c.count (-1) }) (fun _ => rfl)) _ _).trans ?_
    exact counter?_filter h (by rw [hover 1, hk4]; rfl)
  · have hnil : t.counters.filter (fun c => c.kind == 1 && c.ctx == ctx && c.closed && decide (c.count = 0)) = [] := by
      refine List.filter_eq_nil_iff.2 (fun y hy ho => ?_)
      simp only [Bool.and_eq_true, beq_iff_eq, decide_eq_true_eq] at ho
      obtain ⟨⟨⟨hy1, _⟩, hcl⟩, hcount⟩ := ho
      rcases hgone rfl y hy hy1 with hf | hf
      · rw [hcl] at hf
        cases hf
      · exact hf hcount
    rw [hnil]
    exact counter?_filter h (by rw [hover 1, hk4]; rfl)

/-- R257: a graph's or a phase's counter that is bumped and is not 0. -/
theorem levelCount_counter {kind id : Nat} {c : Counter} (hkind : kind = 1 ∨ kind = 2) (hc : s.counter? kind ctx id = some c)
    (hopen : ∀ y ∈ s.counters, y.kind = 1 → y.closed = false ∨ y.count ≠ 0) (hne : bumpCount c.count n ≠ 0) :
    (s.addLevel ctx (.counter kind id) n).levelCount ctx (.counter kind id) = bumpCount c.count n := by
  have hbump : (s.modCounter kind ctx id (fun c => { c with count := bumpCount c.count n })).counter? kind ctx id = some { c with count := bumpCount c.count n } := by
    rw [counter?_modCounter s kind ctx id (fun c => { c with count := bumpCount c.count n }) (fun _ => ⟨rfl, rfl, rfl⟩), hc]
    rfl
  have hset := counter?_settleLevels hbump hne hkind (fun h2 y hy hy1 => by
    obtain ⟨x, hx, rfl⟩ := List.mem_map.1 hy
    by_cases hm : x.kind = kind ∧ x.ctx = ctx ∧ x.id = id
    · rw [if_pos hm] at hy1
      have h12 : kind = 1 := hm.1 ▸ hy1
      omega
    · rw [if_neg hm] at hy1 ⊢
      exact hopen x hx hy1)
  show ((((s.modCounter kind ctx id (fun c => { c with count := bumpCount c.count n })).settleLevels ctx).counter? kind ctx id).map (·.count)).getD 0 = _
  rw [hset]
  rfl
end

/-! ## CANCEL -/

section
variable {β : Type} {pi : State → β}

/-- A view of the state that sees no byte and nothing that is free. -/
structure ByteBlind (pi : State → β) : Prop where
  bytes : ∀ s m ho c g gs u us, pi { s with mem := m, host := ho, chip := c, gr := g, groups := gs, un := u, units := us } = pi s
  free : ∀ s n, pi { s with free := n } = pi s
  spoils : ∀ s x, pi { s with spoils := x } = pi s

theorem ByteBlind.put (h : ByteBlind pi) (s : State) (l : Loc) (v : Byte) (n : Nat) : pi ((s.putByte l v).useFree n) = pi s :=
  (h.free _ _).trans (putByte_keeps pi h.bytes s l v)

theorem spoilPage_keeps (h : ByteBlind pi) (s : State) (ctx va n : Nat) : pi (s.spoilPage ctx va n) = pi s := by
  unfold State.spoilPage
  split
  · rfl
  · split
    · next l _ =>
      have hbyte (t : State) (i : Nat) : pi ((t.putByte (l.plus i) (Config.freeByte t.free)).useFree 1) = pi t := h.put t (l.plus i) _ 1
      exact foldl_keeps pi hbyte _ s
    · exact h.spoils s _

theorem scramble_keeps (h : ByteBlind pi) (s : State) (c : Cmd) : pi (s.scramble c) = pi s := by
  have hgroup (t : State) (gid : Nat) (f : Group → Group) : pi (t.modGroup gid f) = pi t := h.bytes t t.mem t.host t.chip _ _ t.un t.units
  have hpage (t : State) (p : Nat × Nat) : pi (t.spoilPage c.ctx p.1 p.2) = pi t := spoilPage_keeps h t c.ctx p.1 p.2
  have hpages (t : State) (r : Nat × Nat) : pi ((pagesOf (r.2 / 4096 + 2) r.1 r.2).foldl (fun u p => u.spoilPage c.ctx p.1 p.2) t) = pi t := foldl_keeps pi hpage _ t
  have hbyte (t : State) (pa : Nat) : pi ((t.putByte (.dev pa) (Config.freeByte t.free)).useFree 1) = pi t := h.put t (.dev pa) _ 1
  unfold State.scramble
  dsimp only
  rw [spoilTarget_keeps hgroup h.free, foldl_keeps pi hbyte, foldl_keeps pi hpages]

/-- Where a stream stands. -/
def Stream.spot (x : Stream) : Nat × CodeVa × Nat × Word × Mask := (x.sid, x.pc, x.pos, x.hdr, x.exm)

theorem spot_cancelled (x : Stream) (now : Nat) : (x.cancelled now).spot = x.spot := by
  unfold Stream.cancelled
  split <;> rfl

/-- A view that sees of the streams where they stand alone, and nothing of what CANCEL changes. -/
structure CancelBlind (pi : State → β) : Prop extends ByteBlind pi where
  spots : ∀ s f, (∀ x : Stream, (f x).spot = x.spot) → pi (s.mapStreams f) = pi s
  rest : ∀ s sv ls cx co r ev cm, pi { s with saved := sv, launches := ls, ctxs := cx, counters := co, records := r, events := ev, cmds := cm } = pi s

theorem CancelBlind.bookBlind (h : CancelBlind pi) : BookBlind pi :=
  ⟨fun s _ _ _ => h.rest s s.saved s.launches _ s.counters s.records s.events s.cmds, fun s co ev => h.rest s s.saved s.launches s.ctxs co s.records ev s.cmds,
    fun s f hf => h.spots s f (fun x => (congrArg Stream.spot (hf x) :))⟩

/-- The global destinations of the suspended copies of a launch, left undefined. -/
def State.copiesLost (s : State) (key : Nat) : State :=
  ((s.saved.filter (fun v => v.unit.launch == key && !v.dropped)).flatMap (fun v => v.cmds.filter (fun c => !c.isOver))).foldl (fun t c => t.scramble { c with destPa := [] }) s

/-- A launch of which nothing more is placed, with n units that count as ended. -/
def Launch.emptied (n : Nat) (x : Launch) : Launch :=
  { x with cancelled := true, pending := [], chunks := x.chunks.map (fun _ => []), ended := x.ended + n, count := bumpCount x.count (-n) }

/-- The saved units of a launch dropped, and the launch emptied. -/
def State.launchEmptied (s : State) (key n : Nat) : State :=
  ({ s with saved := s.saved.map (fun v => if v.unit.launch = key ∧ !v.dropped then
      { v with dropped := true, queued := none, cmds := [], unit := { v.unit with saveWait := none } } else v) } : State).modLaunch key (Launch.emptied n)

/-- The streams of the units of a launch cancelled. -/
def State.streamsCancelled (s : State) (key now : Nat) : State :=
  s.mapStreams (fun x => if (s.allGroups.any (fun g => g.live && g.gid == x.gid && g.uid != 0 &&
    s.allUnits.any (fun u => u.live && u.uid == g.uid && u.launch == key))) && x.sid != 0 then x.cancelled now else x)

theorem cancelLaunch_eq {s : State} {key : Nat} {l : Launch} (h : s.launches.find? (fun y => y.key == key) = some l) :
    s.cancelLaunch key = (((s.copiesLost key).launchEmptied key (l.pending.length + (l.chunks.flatMap (fun c => c.map (fun k => min 8 (l.units - 8 * k)))).sum)).streamsCancelled
      key s.dev.clock.toNat).post (.launchComplete key) := by
  unfold State.cancelLaunch
  rw [h]
  rfl

theorem copiesLost_keeps (h : ByteBlind pi) (s : State) (key : Nat) : pi (s.copiesLost key) = pi s := by
  have hlost (t : State) (c : Cmd) : pi (t.scramble { c with destPa := [] }) = pi t := scramble_keeps h t { c with destPa := [] }
  exact foldl_keeps pi hlost _ s

theorem cancelLaunch_keeps (h : CancelBlind pi) (s : State) (key : Nat) : pi (s.cancelLaunch key) = pi s := by
  cases hl : s.launches.find? (fun y => y.key == key) with
  | none =>
    unfold State.cancelLaunch
    rw [hl]
  | some l =>
    have hempty (t : State) (n : Nat) : pi (t.launchEmptied key n) = pi t := h.rest t _ _ t.ctxs t.counters t.records t.events t.cmds
    have hstop (t : State) (now : Nat) : pi (t.streamsCancelled key now) = pi t := h.spots t _ (fun x => by
      split
      · exact spot_cancelled x now
      · rfl)
    rw [cancelLaunch_eq hl, h.bookBlind.post, hstop, hempty, copiesLost_keeps h.toByteBlind]

theorem cancelQueued_keeps (h : CancelBlind pi) (s : State) (ctx k : Nat) (q : QueuedRec) : pi (s.cancelQueued ctx k q) = pi s := by
  have hctxs (t : State) (c : List Ctx) : pi { t with ctxs := c } = pi t := h.rest t t.saved t.launches c t.counters t.records t.events t.cmds
  unfold State.cancelQueued
  rw [leaveLevels_keeps h.bookBlind, complete_keeps h.bookBlind (fun t r => h.rest t t.saved t.launches t.ctxs t.counters r t.events t.cmds)]
  exact unqueue_keeps hctxs s ctx k q.lnum

theorem cancelBeneath_keeps (h : CancelBlind pi) (s : State) (ctx : Nat) (p : Launch → Bool) (q : QueuedRec → Bool) : pi (s.cancelBeneath ctx p q) = pi s := by
  have hqueued (t : State) (x : Nat × QueuedRec) : pi (t.cancelQueued ctx x.1 x.2) = pi t := cancelQueued_keeps h t ctx x.1 x.2
  have hlaunch (t : State) (l : Launch) : pi (t.cancelLaunch l.key) = pi t := cancelLaunch_keeps h t l.key
  unfold State.cancelBeneath
  dsimp only
  rw [foldl_keeps pi hqueued, foldl_keeps pi hlaunch]

theorem cancelLevel_keeps (h : CancelBlind pi) (s : State) (ctx : Nat) (v : Level) : pi (s.cancelLevel ctx v) = pi s := by
  cases v with
  | launch key => exact cancelLaunch_keeps h s key
  | queued k n =>
    unfold State.cancelLevel
    dsimp only
    split
    · exact cancelQueued_keeps h s ctx k _
    · rfl
  | counter kind id =>
    unfold State.cancelLevel
    dsimp only
    rw [cancelBeneath_keeps h]
    exact h.bookBlind.counters s _
  | job =>
    unfold State.cancelLevel
    dsimp only
    rw [cancelBeneath_keeps h]
    exact h.rest s s.saved _ _ s.counters s.records s.events _
end

theorem cancelBlind_spot : CancelBlind (fun s => s.st.spot) :=
  ⟨⟨fun _ _ _ _ _ _ _ _ => rfl, fun _ _ => rfl, fun _ _ => rfl⟩, fun s _ h => h s.st, fun _ _ _ _ _ _ _ _ => rfl⟩

/-- R258: a launch that is cancelled places nothing more. -/
theorem cancelLaunch_cancelled {s : State} {key : Nat} {x : Launch} (h : s.launches.find? (fun y => y.key == key) = some x) :
    ∃ y, (s.cancelLaunch key).launches.find? (fun y => y.key == key) = some y ∧ y.cancelled = true ∧ y.toPlace = false := by
  have hlost : (s.copiesLost key).launches = s.launches := copiesLost_keeps ⟨fun _ _ _ _ _ _ _ _ => rfl, fun _ _ => rfl, fun _ _ => rfl⟩ s key
  rw [cancelLaunch_eq h]
  generalize x.pending.length + _ = n
  refine ⟨x.emptied n, (find?_modLaunch _ key (Launch.emptied n) (fun _ => rfl)).trans ?_, rfl, ?_⟩
  · show ((s.copiesLost key).launches.find? (fun y => y.key == key)).map (Launch.emptied n) = _
    rw [hlost, h]
    rfl
  · show (!([] : List Nat).isEmpty || (x.chunks.map (fun _ => ([] : List Nat))).any (fun c => !c.isEmpty)) = false
    simp

/-- R258: a record that is cancelled stands in its queue no more. -/
theorem cancelQueued_gone {s : State} {ctx k : Nat} {m : BitVec 16} {l : BitVec 2} {id : Word} (h : s.level ctx l id = some (.queued k m)) :
    ∀ c, (s.cancelLevel ctx (.queued k m)).ctxRec ctx = some c → ∀ q ∈ c.waiting k, q.lnum ≠ m := by
  obtain ⟨d, q, hd, hk, hq, hv, hm⟩ := level_queued h
  have hex : ((s.queuedOf ctx).find? (fun x => x.1 == k && x.2.lnum == m)).isSome = true := by
    refine List.find?_isSome.2 ⟨(k, q), ?_, by simp [hm]⟩
    unfold State.queuedOf
    rw [hd]
    exact List.mem_flatMap.2 ⟨k, List.mem_range.2 hk, List.mem_map.2 ⟨q, List.mem_filter.2 ⟨hq, hv⟩, rfl⟩⟩
  obtain ⟨x, hx⟩ := Option.isSome_iff_exists.1 hex
  have hp := List.find?_some hx
  simp only [Bool.and_eq_true, beq_iff_eq] at hp
  intro c hc
  have he : s.cancelLevel ctx (.queued k m) = s.cancelQueued ctx k x.2 := by
    unfold State.cancelLevel
    dsimp only
    rw [hx]
  rw [he] at hc
  have hshelf : (s.cancelQueued ctx k x.2).ctxs.map Ctx.shelf = (s.unqueue ctx k x.2.lnum).ctxs.map Ctx.shelf := by
    unfold State.cancelQueued
    exact (leaveLevels_keeps bookBlind_shelf _ ctx _ _ _).trans (complete_keeps bookBlind_shelf (fun _ _ => rfl) _ ctx _ _ _ _ _ _)
  obtain ⟨e, he, hs⟩ := ctxRec_of_shelf hshelf hc
  intro y hy
  have hwait : c.waiting k = e.waiting k := (congrArg (fun z : Ctx => z.waiting k) hs.symm :)
  exact hp.2 ▸ unqueue_gone he y (hwait ▸ hy)

/-! ## The instructions of levels -/

section
variable {s u : State} {i : Instr} {g : BitVec 4} {d a : BitVec 6} {l : BitVec 2}

/-- An effect that leaves the stream where it stands. -/
theorem retires_spot {n : Bool} (hgo : s.goesOn = true) (hu : u.st.spot = s.st.spot) : s.finish n (.next u) = u.retired s n := by
  have hexm : u.st.exm = s.st.exm := congrArg (fun z => z.2.2.2.2) hu
  exact finish_next_place n hgo (hexm ▸ goesOn_exm hgo) (congrArg Prod.fst hu) (congrArg (fun z => z.2.1) hu) (congrArg (fun z => z.2.2.1) hu) (congrArg (fun z => z.2.2.2.1) hu)

theorem retires_run_spot (he : exec i s = s.run (.next u)) (hgo : s.goesOn = true) (hu : u.st.spot = s.st.spot) : Retires i s u false := by
  rw [Retires, he, State.run, if_pos (goesOn_landed s hgo), retires_spot hgo hu]

theorem retires_runN_spot (he : exec i s = s.runN (.next u)) (hgo : s.goesOn = true) (hu : u.st.spot = s.st.spot) : Retires i s u true := by
  rw [Retires, he, State.runN, if_pos (goesOn_landed s hgo), retires_spot hgo hu]

theorem onLevel_skip (hg : s.uniGuard g = false) (f : State → Option Level → Verdict) : s.onLevel g a l f = .next s := if_neg (by simp [hg])

theorem onLevel_runs (hg : s.uniGuard g = true) (f : State → Option Level → Verdict) : s.onLevel g a l f = f s (s.level s.gr.ctx l (s.sreg a.toNat)) := if_pos hg

theorem level_skips (hgo : s.goesOn = true) (hg : s.uniGuard g = false) :
    Retires (.cntinc g d a l) s s true ∧ Retires (.cntwait g a l) s s false ∧ Retires (.cntrd g d a l) s s false ∧ Retires (.cancel g a l) s s true :=
  ⟨retires_runN_spot (congrArg s.runN (onLevel_skip hg _)) hgo rfl, retires_run_spot (congrArg s.run (onLevel_skip hg _)) hgo rfl,
    retires_run_spot (congrArg s.run (onLevel_skip hg _)) hgo rfl, retires_runN_spot (congrArg s.runN (onLevel_skip hg _)) hgo rfl⟩

theorem cntrd_reads (hgo : s.goesOn = true) (hg : s.uniGuard g = true) :
    Retires (.cntrd g d a l) s (s.setSreg d.toNat (match s.level s.gr.ctx l (s.sreg a.toNat) with
      | some x => s.levelCount s.gr.ctx x
      | none => 0)) false := by
  refine retires_run_spot (congrArg s.run (onLevel_runs hg _)) hgo ?_
  unfold State.setSreg
  split <;> rfl

theorem cntwait_waits (hgo : s.goesOn = true) (hg : s.uniGuard g = true) (hv : s.level s.gr.ctx l (s.sreg a.toNat) ≠ none) :
    exec (.cntwait g a l) s = .next (s.modSt (fun y => { y with status := .waitCounter l.toNat (s.sreg a.toNat) })) := by
  obtain ⟨x, hx⟩ := Option.ne_none_iff_exists'.1 hv
  refine (congrArg s.run (onLevel_runs hg _)).trans ?_
  rw [hx]
  exact run_hold s _ (goesOn_landed s hgo)

theorem cntwait_acquires (hgo : s.goesOn = true) (hg : s.uniGuard g = true) (hq : s.quiet) (hv : s.level s.gr.ctx l (s.sreg a.toNat) = none) :
    Retires (.cntwait g a l) s (s.dropL1 s.gr.coreId) false := by
  refine retires_run_spot ((congrArg s.run (onLevel_runs hg _)).trans ?_) hgo rfl
  rw [hv]
  dsimp only
  rw [flushHeld_idle s hq.2]
  rfl

/-- CNTINC and CANCEL under a true guard, with nothing of the stream on its way. -/
theorem exec_cntinc (hg : s.uniGuard g = true) (hq : s.quiet) : exec (.cntinc g d a l) s = s.runN (.next (match s.level s.gr.ctx l (s.sreg a.toNat) with
    | some x => s.addLevel s.gr.ctx x (s.sreg d.toNat).toInt
    | none => s)) := by
  refine (congrArg s.runN (onLevel_runs hg _)).trans ?_
  rw [released_quiet s _ hq]
  cases s.level s.gr.ctx l (s.sreg a.toNat) <;> rfl

theorem exec_cancel (hg : s.uniGuard g = true) (hq : s.quiet) : exec (.cancel g a l) s = s.runN (.next (match s.level s.gr.ctx l (s.sreg a.toNat) with
    | some x => s.cancelLevel s.gr.ctx x
    | none => s)) := by
  refine (congrArg s.runN (onLevel_runs hg _)).trans ?_
  rw [released_quiet s _ hq]
  cases s.level s.gr.ctx l (s.sreg a.toNat) <;> rfl

theorem spot_addLevel (s : State) (ctx : Nat) (x : Level) (n : Int) : (s.addLevel ctx x n).st.spot = s.st.spot := by
  cases x with
  | launch key => rfl
  | queued k m => rfl
  | counter kind id => exact settleLevels_keeps cancelBlind_spot.bookBlind.levels _ ctx
  | job => rfl

theorem cntinc_none (hgo : s.goesOn = true) (hg : s.uniGuard g = true) (hq : s.quiet) (hv : s.level s.gr.ctx l (s.sreg a.toNat) = none) :
    Retires (.cntinc g d a l) s s true :=
  retires_runN_spot ((exec_cntinc hg hq).trans (by rw [hv])) hgo rfl

theorem cntinc_adds {x : Level} (hgo : s.goesOn = true) (hg : s.uniGuard g = true) (hq : s.quiet) (hv : s.level s.gr.ctx l (s.sreg a.toNat) = some x) :
    Retires (.cntinc g d a l) s (s.addLevel s.gr.ctx x (s.sreg d.toNat).toInt) true :=
  retires_runN_spot ((exec_cntinc hg hq).trans (by rw [hv])) hgo (spot_addLevel s _ x _)

theorem cancel_none (hgo : s.goesOn = true) (hg : s.uniGuard g = true) (hq : s.quiet) (hv : s.level s.gr.ctx l (s.sreg a.toNat) = none) :
    Retires (.cancel g a l) s s true :=
  retires_runN_spot ((exec_cancel hg hq).trans (by rw [hv])) hgo rfl

theorem cancel_cancels {x : Level} (hgo : s.goesOn = true) (hg : s.uniGuard g = true) (hq : s.quiet) (hv : s.level s.gr.ctx l (s.sreg a.toNat) = some x) :
    Retires (.cancel g a l) s (s.cancelLevel s.gr.ctx x) true :=
  retires_runN_spot ((exec_cancel hg hq).trans (by rw [hv])) hgo (cancelLevel_keeps cancelBlind_spot s _ x)
end

/-- R318: what CANCEL does to a stream. -/
theorem cancelled_goes {x : Stream} (now : Nat) (h : x.status = .runnable ∨ (x.status = .entryParked ∧ x.faults = []) ∨ x.heldAtIssue = true ∨ x.status = .waitReplies) :
    (x.cancelled now).cancelAt.isSome = true ∧ (x.cancelled now).status = x.status := by
  have hif : x.cancelled now = { x with cancelAt := some (x.cancelAt.getD now) } := by
    refine if_pos ?_
    rcases h with h | h | h | h
    · exact .inl h
    · exact .inr (.inl h)
    · exact .inr (.inr (.inl h))
    · exact .inr (.inr (.inr (by rw [Stream.owedReplies, h])))
  rw [hif]
  exact ⟨rfl, rfl⟩

theorem cancelled_stops {x : Stream} (now : Nat) (h : ¬ (x.status = .runnable ∨ (x.status = .entryParked ∧ x.faults = []) ∨ x.heldAtIssue = true ∨ x.status = .waitReplies)) :
    x.cancelled now = { x with status := .stopped } := by
  refine if_neg (fun hc => h ?_)
  rcases hc with hc | hc | hc | hc
  · exact .inl hc
  · exact .inr (.inl hc)
  · exact .inr (.inr (.inl hc))
  · refine .inr (.inr (.inr ?_))
    unfold Stream.owedReplies at hc
    split at hc
    · assumption
    · cases hc

/-! ## SYSCALL -/

section
variable {s : State} {g : BitVec 4} {i : BitVec 15}

/-- The lanes of the issuing stream have arrived at a SYSCALL, and it waits (R330). -/
def State.arrivedSyscall (s : State) (i : BitVec 15) : State :=
  (((s.modUn (fun u => { u with sysarr := u.sysarr + s.st.exm.size })).nextSeq).flagAdd s.setB).modSt (fun x => { x with status := .waitSyscall, sysCode := s.immZ i })

theorem exec_syscall (hg : s.uniGuard g = true) (hp : s.st.isPriv = false) (hw : s.isWave = false) (hq : s.quiet) (ho : s.owedBank = none) :
    exec (.syscall g i) s = s.runN (.next (s.arrivedSyscall i).checkSyscall) := by
  change s.runN (if !s.uniGuard g then .next s else if s.st.isPriv || s.isWave then .trap .illegal s.st.exm s else _) = _
  rw [if_neg (by simp [hg]), if_neg (by simp [hp, hw]), State.unlessOwed, ho]
  dsimp only
  rw [released_quiet s _ hq]
  rfl

theorem arrivedSyscall_st (s : State) (i : BitVec 15) : ∃ fl, (s.arrivedSyscall i).st = { s.st with flags := fl, status := .waitSyscall, sysCode := s.immZ i } := by
  obtain ⟨fl, hfl⟩ := flagAdd_st ((s.modUn (fun u => { u with sysarr := u.sysarr + s.st.exm.size })).nextSeq) s.setB
  refine ⟨fl, ?_⟩
  show { (((s.modUn (fun u => { u with sysarr := u.sysarr + s.st.exm.size })).nextSeq).flagAdd s.setB).st with status := StreamStatus.waitSyscall, sysCode := s.immZ i } = _
  rw [hfl]
  rfl

theorem arrivedSyscall_keeps {β : Type} (pi : State → β) (h : ∀ s x, pi { s with st := x } = pi s) (s : State) (i : BitVec 15) :
    pi (s.arrivedSyscall i) = pi ((s.modUn (fun u => { u with sysarr := u.sysarr + s.st.exm.size })).nextSeq) :=
  (h _ _).trans (flagAdd_keeps pi h _ _)

/-- A sent call changes of the waiting streams their flags alone. -/
theorem clearSysFlags_status (s : State) (uid : Nat) : (s.clearSysFlags uid).st.status = s.st.status := by
  have hone (t : State) (w : Nat × Nat × Stream) : (if hdrSetB w.2.2.hdr < 12 then t.modStream w.2.2.sid (fun x =>
      { x with flags := x.flags.modify (hdrSetB w.2.2.hdr) (· - 1) }) else t).st.status = t.st.status := by
    split
    · show (if t.st.sid = w.2.2.sid then _ else t.st).status = _
      split <;> rfl
    · rfl
  exact foldl_keeps (fun t => t.st.status) hone _ s

theorem checkSyscall_status (s : State) : s.checkSyscall.st.status = s.st.status := by
  unfold State.checkSyscall
  split
  · rfl
  · split
    · rfl
    · split
      · rfl
      · exact clearSysFlags_status s _

theorem sysSender_mem {ws : List (Nat × Nat × Stream)} {v : Nat × Nat × Stream} (h : sysSender ws = some v) : v ∈ ws := by
  induction ws generalizing v with
  | nil => cases h
  | cons w r ih =>
    unfold sysSender at h
    split at h
    · exact Option.some.inj h ▸ List.mem_cons_self
    · next x hx =>
      split at h
      · exact Option.some.inj h ▸ List.mem_cons_self
      · exact List.mem_cons_of_mem _ (ih (Option.some.inj h ▸ hx))

theorem sysSender_cons (w : Nat × Nat × Stream) (r : List (Nat × Nat × Stream)) : ∃ v, sysSender (w :: r) = some v := by
  unfold sysSender
  split
  · exact ⟨w, rfl⟩
  · split <;> exact ⟨_, rfl⟩

/-- R330: once every live lane of the unit has arrived, the call is sent. -/
theorem checkSyscall_sends (hs : s.un.sysSent = false) (hn : s.un.sysarr ≠ 0) (hl : s.un.sysarr = s.liveLanes s.un.uid) (hst : s.st.status = .waitSyscall)
    (hgid : s.st.gid = s.gr.gid) (hlive : s.gr.live = true) (huid : s.gr.uid = s.un.uid) :
    s.checkSyscall.un.sysSent = true ∧ ∃ code args, .syscall s.un.ctx s.un.uid code args s.un.index (((s.launchOf s.un).map (·.lid)).getD 0) ∈ s.checkSyscall.out := by
  have hmine : s.allGroups.find? (fun g => g.live && g.gid == s.st.gid && g.uid == s.un.uid) = some s.gr := by
    rw [State.allGroups, List.find?_cons_of_pos]
    simp [hlive, hgid, huid]
  have hcons : ∃ r, s.sysWaiters s.un.uid = (s.gr.sgrp, s.st.exm.lowest, s.st) :: r := by
    rw [State.sysWaiters, State.allStreams, List.filterMap_cons, if_pos hst, hmine]
    exact ⟨_, rfl⟩
  obtain ⟨r, hr⟩ := hcons
  obtain ⟨⟨n, k, x⟩, hv⟩ := sysSender_cons (s.gr.sgrp, s.st.exm.lowest, s.st) r
  have hgroup : ∃ y, s.allGroups.find? (fun g => g.gid == x.gid) = some y := by
    have hm := hr.symm ▸ sysSender_mem hv
    obtain ⟨z, _, hz⟩ := List.mem_filterMap.1 hm
    split at hz
    · split at hz
      · next y hy =>
        obtain ⟨_, _, rfl⟩ := hz
        refine Option.isSome_iff_exists.1 (List.find?_isSome.2 ⟨y, List.mem_of_find?_eq_some hy, ?_⟩)
        have hp := List.find?_some hy
        simp only [Bool.and_eq_true] at hp
        exact hp.1.2
      · cases hz
    · cases hz
  obtain ⟨y, hy⟩ := hgroup
  unfold State.checkSyscall
  rw [if_neg (by rw [hs]; exact fun h => h.elim Bool.noConfusion (fun h => h.elim hn (fun h => h hl))), hr, hv]
  dsimp only
  rw [hy]
  exact ⟨rfl, _, _, List.mem_append_right _ (List.mem_singleton.2 rfl)⟩

theorem size_ne_zero {m : Mask} (h : m ≠ 0) : m.size ≠ 0 := fun hz => Mask.lanes_ne_nil h (List.length_eq_zero_iff.1 hz)

theorem liveLanes_cmdseq (s : State) (n : Word) (uid : Nat) : (s.modGr (fun g => { g with cmdseq := n })).liveLanes uid = s.liveLanes uid := by
  unfold State.liveLanes State.allGroups
  rw [List.filter_cons, List.filter_cons]
  show List.foldl _ 0 (if (s.gr.live && s.gr.uid == uid) = true then _ else _) = List.foldl _ 0 (if (s.gr.live && s.gr.uid == uid) = true then _ else _)
  split <;> rfl

theorem clearSysFlags_un (s : State) (uid : Nat) : (s.clearSysFlags uid).un = s.un := by
  have hone (t : State) (w : Nat × Nat × Stream) : (if hdrSetB w.2.2.hdr < 12 then t.modStream w.2.2.sid (fun x =>
      { x with flags := x.flags.modify (hdrSetB w.2.2.hdr) (· - 1) }) else t).un = t.un := by split <;> rfl
  exact foldl_keeps State.un hone _ s

theorem checkSyscall_sysarr (s : State) : s.checkSyscall.un.sysarr = s.un.sysarr := by
  unfold State.checkSyscall
  split
  · rfl
  · split
    · rfl
    · split
      · rfl
      · exact (congrArg UnitRec.sysarr (clearSysFlags_un s s.un.uid) :)

/-- SYSCALL retires with its lanes arrived, and its stream waits. -/
theorem syscall_arrives (hgo : s.goesOn = true) (hg : s.uniGuard g = true) (hp : s.st.isPriv = false) (hw : s.isWave = false) (hq : s.quiet) (ho : s.owedBank = none)
    (hc : s.st.cancelAt = none) :
    ∃ u, exec (.syscall g i) s = .next u ∧ u.sameMem s ∧ u.sameRegs s ∧ u.gr.cmdseq = s.gr.cmdseq + 1 ∧ u.un.sysarr = s.un.sysarr + s.st.exm.size ∧
      u.st.status = .waitSyscall ∧ u.st.sysCode = s.immZ i ∧
      (s.un.sysSent = false → s.un.sysarr + s.st.exm.size = s.liveLanes s.un.uid → s.st.gid = s.gr.gid → s.gr.live = true → s.gr.uid = s.un.uid →
        u.un.sysSent = true ∧ ∃ code args, .syscall s.un.ctx s.un.uid code args s.un.index (((s.launchOf s.un).map (·.lid)).getD 0) ∈ u.out) := by
  obtain ⟨fl, hst⟩ := arrivedSyscall_st s i
  have hkeep {β : Type} (pi : State → β) (h : ∀ s x, pi { s with st := x } = pi s) := arrivedSyscall_keeps pi h s i
  have hrest : (s.arrivedSyscall i).checkSyscall.st.resting = (s.arrivedSyscall i).st.resting := checkSyscall_keeps unmoved_st _
  have hgr : (s.arrivedSyscall i).checkSyscall.gr = { s.gr with cmdseq := s.gr.cmdseq + 1 } := (checkSyscall_keeps unmoved_gr _).trans (hkeep State.gr (fun _ _ => rfl))
  have hun : (s.arrivedSyscall i).un = { s.un with sysarr := s.un.sysarr + s.st.exm.size } := hkeep State.un (fun _ _ => rfl)
  obtain ⟨fsid, fpc, fpos, fhdr, fexm⟩ := resting_place hrest
  rw [hst] at fsid fpc fpos fhdr fexm
  have hfin := finish_next_place (s := s) true hgo (fexm ▸ goesOn_exm hgo) fsid fpc fpos fhdr
  refine ⟨(s.arrivedSyscall i).checkSyscall.retired s true, (exec_syscall hg hp hw hq ho).trans ?_, ⟨(checkSyscall_keeps unmoved_mem _).trans (hkeep State.mem (fun _ _ => rfl)),
    (checkSyscall_keeps unmoved_host _).trans (hkeep State.host (fun _ _ => rfl))⟩, ⟨?_, ?_, ?_, fexm, (congrArg (· + 4) fpc :)⟩, ?_, ?_, ?_, ?_, ?_⟩
  · rw [State.runN, if_pos (goesOn_landed s hgo), hfin]
  · exact (congrArg Group.lanes hgr :)
  · exact (resting_field Stream.sregs (fun _ => rfl) hrest).trans (by rw [hst])
  · exact (resting_field Stream.q (fun _ => rfl) hrest).trans (by rw [hst])
  · exact (congrArg Group.cmdseq hgr :)
  · exact (checkSyscall_sysarr _).trans (congrArg UnitRec.sysarr hun)
  · have hcancel : (s.arrivedSyscall i).checkSyscall.st.cancelAt = none := (resting_field Stream.cancelAt (fun _ => rfl) hrest).trans (by rw [hst, ← hc])
    show (if (s.arrivedSyscall i).checkSyscall.st.cancelAt.isSome then StreamStatus.stopped else (s.arrivedSyscall i).checkSyscall.st.status) = _
    rw [hcancel, checkSyscall_status, hst]
    rfl
  · exact (resting_field Stream.sysCode (fun _ => rfl) hrest).trans (by rw [hst])
  · intro hs hl hgid hlive huid
    have hlanes : (s.arrivedSyscall i).liveLanes s.un.uid = s.liveLanes s.un.uid :=
      (hkeep (fun t => t.liveLanes s.un.uid) (fun _ _ => rfl)).trans (liveLanes_cmdseq s (s.gr.cmdseq + 1) s.un.uid)
    have hag : (s.arrivedSyscall i).gr = { s.gr with cmdseq := s.gr.cmdseq + 1 } := hkeep State.gr (fun _ _ => rfl)
    have hlau : (s.arrivedSyscall i).launches = s.launches := hkeep State.launches (fun _ _ => rfl)
    have hsend := checkSyscall_sends (s := s.arrivedSyscall i) (by rw [hun]; exact hs) (by rw [hun]; exact Nat.ne_of_gt (Nat.add_pos_right _ (Nat.pos_of_ne_zero (size_ne_zero (goesOn_exm hgo)))))
      (by rw [hun]; exact hl.trans hlanes.symm) (by rw [hst]) (by rw [hst, hag]; exact hgid) (by rw [hag]; exact hlive) (by rw [hag, hun]; exact huid)
    have hlid : (s.arrivedSyscall i).launchOf (s.arrivedSyscall i).un = s.launchOf s.un := by
      rw [hun, State.launchOf, hlau]
      rfl
    rw [hlid, hun] at hsend
    exact hsend

/-- What a stream whose call has been answered stands with: its lanes have the value and it goes on with an acquire (R330, R331). -/
def State.sysAnswered (s : State) (sid : Nat) (v : Word) : State :=
  let t := s.focus sid
  ((t.mapLanes t.st.exm (fun _ x => x.setReg t.gr.allot 0 v)).modSt (fun x => { x with status := .runnable })).acquire 5

/-- The unit of a call that was answered stands as before it; the device OS is asked no more. -/
def State.sysCleared (s : State) (uid : Nat) : State :=
  let back : UnitRec → UnitRec := fun x => { x with sysarr := 0, sysSent := false }
  ({ s with un := if s.un.uid = uid then back s.un else s.un, units := s.units.map (fun x => if x.uid = uid then back x else x) } : State).answered (fun m => match m with
    | .syscall _ n .. => n == uid
    | _ => false)

theorem exec_syscallReply {uid : Nat} {status value : Word} {u : UnitRec} {w : Nat × Nat × Stream} (hu : s.unit? uid = some u) (hs : u.sysSent = true)
    (hw : s.sysWaiters uid = [w]) : exec (.syscallReply uid status value) s = .next (
      let t := (s.sysCleared uid).sysAnswered w.2.2.sid (if status = 0 then value else status)
      if status = 0 then t else t.takeTrap .syserr t.st.exm [] TrapInfo.plain) := by
  change execSyscallReply uid status value s = _
  unfold execSyscallReply
  rw [hu]
  dsimp only
  rw [if_neg (by simp [hs]), hw]
  rfl

theorem syscallReply_resumes (status value : Word) (w : Nat × Nat × Stream) (hlive : s.un.live = true) (hsent : s.un.sysSent = true) (hw : s.sysWaiters s.un.uid = [w])
    (hst : w.2.2 = s.st) :
    ∃ t : State, t.sameMem s ∧ t.gr.lanes = (s.mapLanes s.st.exm (fun _ x => x.setReg s.gr.allot 0 (if status = 0 then value else status))).gr.lanes ∧
      t.st = { s.st with status := .runnable } ∧ t.un = { s.un with sysarr := 0, sysSent := false } ∧ (∀ x ∈ t.l1, x.core ≠ s.gr.coreId) ∧
      exec (.syscallReply s.un.uid status value) s = .next (if status = 0 then t else t.takeTrap .syserr s.st.exm [] TrapInfo.plain) := by
  have hu : s.unit? s.un.uid = some s.un := by
    rw [State.unit?, State.allUnits, List.find?_cons_of_pos]
    simp [hlive]
  have hfocus : (s.sysCleared s.un.uid).focus s.st.sid = s.sysCleared s.un.uid := focus_self (s.sysCleared s.un.uid)
  refine ⟨(s.sysCleared s.un.uid).sysAnswered s.st.sid (if status = 0 then value else status), ?_, ?_, ?_, ?_, ?_, ?_⟩
  rotate_right
  · rw [exec_syscallReply hu hsent hw, hst]
    unfold State.sysAnswered
    rw [hfocus]
    rfl
  all_goals
    unfold State.sysAnswered
    rw [hfocus]
  · exact ⟨rfl, rfl⟩
  · rfl
  · rfl
  · show (if s.un.uid = s.un.uid then _ else s.un) = _
    rw [if_pos rfl]
  · exact fun x hx => l1_acquire (s := ((s.sysCleared s.un.uid).mapLanes _ _).modSt _) (scope := 5) (by decide) x hx
end

/-- Settles O54: each instruction by the level that it names; what CANCEL does to a launch, a record and a stream; SYSCALL and its reply. -/
theorem levels : Obligations.Levels := by
  refine ⟨fun s g d a l hgo => ⟨level_skips hgo, fun hg => ⟨cntrd_reads hgo hg, cntwait_waits hgo hg, fun hq =>
      ⟨fun hv => ⟨cntwait_acquires hgo hg hq hv, cntinc_none hgo hg hq hv, cancel_none hgo hg hq hv⟩,
        fun x hv => ⟨cntinc_adds hgo hg hq hv, cancel_cancels hgo hg hq hv⟩⟩⟩⟩,
    fun s ctx n => ⟨fun l id x hl hx => levelCount_addLevel hl hx, fun c => toNat_bumpCount c n, fun kind id c hk hc ho hn => levelCount_counter hk hc ho hn,
      fun key x hx => ⟨List.mem_append_right _ (List.mem_singleton.2 rfl), cancelLaunch_cancelled hx⟩, fun l id k m hl => cancelQueued_gone hl⟩,
    fun x now => ⟨cancelled_goes now, cancelled_stops now⟩,
    fun s g i hgo => ⟨fun hg => retires_runN_spot (congrArg s.runN (if_pos (by simp [hg]))) hgo rfl,
      fun hg hp => traps_runN (congrArg s.runN ((if_neg (by simp [hg])).trans (if_pos (by simpa using hp)))),
      fun hg hp hw hq ho hc => syscall_arrives hgo hg hp hw hq ho hc⟩,
    fun s status value w hlive hsent hw hst _ => syscallReply_resumes status value w hlive hsent hw hst⟩

end Sys2Proof.Machine
end

section
/-!
How launches come in, fire and are placed: O55.
-/
namespace Sys2Proof.Machine

theorem getD_modify_lt {α : Type} (f : α → α) {l : List α} {i : Nat} (d : α) (h : i < l.length) : (l.modify i f).getD i d = f (l.getD i d) := by
  rw [List.getD_eq_getElem?_getD, List.getD_eq_getElem?_getD, List.getElem?_modify_eq, List.getElem?_eq_getElem h]
  rfl

/-! ## Doorbells (R363, R364) -/

section
variable {s : State} {page off pasid : Nat} {data : List Byte} {p : SubmitPage} {c : Ctx}

/-- A record as it stands behind its queue. -/
def State.enqueued (s : State) (ctx k : Nat) (x : LaunchRec) (n : BitVec 16) : QueuedRec :=
  { lnum := n, fields := { s.shaped ctx x with queue := k }, valid := false,
    graphid := if (s.shaped ctx x).node then BitVec.ofNat 32 (0x10000 + (s.shaped ctx x).graph) else 0,
    phaseid := BitVec.ofNat 32 (s.shaped ctx x).phase, child := false, count := BitVec.ofNat 32 (if (s.shaped ctx x).dyn then 0 else (s.shaped ctx x).units) }

theorem enqueue_eq {ctx k : Nat} (x : LaunchRec) (hc : s.ctxRec ctx = some c) : s.enqueue ctx k x =
    ((s.modCtx ctx (fun c' => { c' with launches := nextLaunch c.launches })).modQueue ctx k (fun l => l ++ [s.enqueued ctx k x (nextLaunch c.launches)])).post
      (.recordValidation ctx k) := by
  unfold State.enqueue
  rw [hc]
  rfl

theorem ctxRec_enqueue {ctx k : Nat} (x : LaunchRec) (hc : s.ctxRec ctx = some c) : (s.enqueue ctx k x).ctxRec ctx =
    some { c with launches := nextLaunch c.launches, queues := c.queues.modify k (fun l => l ++ [s.enqueued ctx k x (nextLaunch c.launches)]) } := by
  rw [enqueue_eq x hc]
  refine (ctxRec_modQueue _ ctx k _).trans ?_
  rw [ctxRec_modCtx s ctx (fun c' => { c' with launches := nextLaunch c.launches }) (fun _ => rfl), hc]
  rfl

/-- Whether a doorbell write can be taken. -/
def State.doorbellOk (s : State) (p : SubmitPage) (off pasid : Nat) (data : List Byte) : Prop :=
  off < 0x400 ∧ off % 0x80 = 0 ∧ data.length = 128 ∧ pasid = p.pasid ∧ s.accepting = true

theorem doorbell_cases (hp : s.submitPage page = some p) (hc : s.ctxRec p.ctx = some c) : exec (.doorbellDmwr page off pasid data) s = .next (
    if 0x400 ≤ off ∨ off % 0x80 ≠ 0 ∨ data.length ≠ 128 ∨ pasid ≠ p.pasid ∨ !s.accepting then s.say (.doorbell page 2)
    else if 64 ≤ (c.queue (off / 0x80)).length then s.say (.doorbell page 1)
    else (s.enqueue p.ctx (off / 0x80) (LaunchRec.parse (wordsOf data))).say (.doorbell page 0)) := by
  change execDoorbellDmwr page off pasid data s = _
  unfold execDoorbellDmwr
  rw [hp]
  dsimp only
  rw [hc]

theorem doorbell_taken (hp : s.submitPage page = some p) (hc : s.ctxRec p.ctx = some c) (hok : s.doorbellOk p off pasid data) :
    exec (.doorbellDmwr page off pasid data) s = .next (
      if 64 ≤ (c.queue (off / 0x80)).length then s.say (.doorbell page 1)
      else (s.enqueue p.ctx (off / 0x80) (LaunchRec.parse (wordsOf data))).say (.doorbell page 0)) := by
  obtain ⟨hoff, hmod, hlen, hpas, hacc⟩ := hok
  rw [doorbell_cases hp hc, if_neg]
  rintro (h | h | h | h | h)
  · omega
  · exact h hmod
  · exact h hlen
  · exact h hpas
  · rw [hacc] at h
    exact Bool.noConfusion h

theorem doorbell_enqueues (hp : s.submitPage page = some p) (hc : s.ctxRec p.ctx = some c) (hq : c.queues.length = 8) (hok : s.doorbellOk p off pasid data)
    (hroom : (c.queue (off / 0x80)).length < 64) :
    ∃ u c' q, exec (.doorbellDmwr page off pasid data) s = .next u ∧ u.sameMem s ∧ .doorbell page 0 ∈ u.out ∧
      .recordValidation p.ctx (off / 0x80) ∈ u.events ∧ u.ctxRec p.ctx = some c' ∧ c'.queue (off / 0x80) = c.queue (off / 0x80) ++ [q] ∧
      q.fields = { s.shaped p.ctx (LaunchRec.parse (wordsOf data)) with queue := off / 0x80 } ∧ q.lnum = nextLaunch c.launches ∧ q.valid = false := by
  have hk : off / 0x80 < c.queues.length := by
    rw [hq]
    exact Nat.div_lt_of_lt_mul (by have := hok.1; omega)
  refine ⟨(s.enqueue p.ctx (off / 0x80) (LaunchRec.parse (wordsOf data))).say (.doorbell page 0), _,
    s.enqueued p.ctx (off / 0x80) (LaunchRec.parse (wordsOf data)) (nextLaunch c.launches), (doorbell_taken hp hc hok).trans (by rw [if_neg (Nat.not_le.2 hroom)]), ⟨rfl, rfl⟩,
    List.mem_append_right _ (List.mem_singleton.2 rfl), List.mem_append_right _ (List.mem_singleton.2 rfl), ctxRec_enqueue _ hc,
    getD_modify_lt (fun l : List QueuedRec => l ++ [s.enqueued p.ctx (off / 0x80) (LaunchRec.parse (wordsOf data)) (nextLaunch c.launches)]) [] hk, rfl, rfl, rfl⟩

theorem doorbell_refused (hp : s.submitPage page = some p) (hc : s.ctxRec p.ctx = some c) (hno : ¬ s.doorbellOk p off pasid data) :
    exec (.doorbellDmwr page off pasid data) s = .next (s.say (.doorbell page 2)) := by
  rw [doorbell_cases hp hc, if_pos]
  by_contra h
  simp only [not_or, Nat.not_le, ne_eq, not_not, Bool.not_eq_true', Bool.not_eq_false] at h
  exact hno h

theorem postedDoorbell_counts (hp : s.submitPage page = some p) (hc : s.ctxRec p.ctx = some c) (hoff : off < 0x400) :
    ∃ u, exec (.doorbellPostedWrite page off) s = .next u ∧ u.sameMem s ∧ (u.ctxRec p.ctx).map (·.submitErrors) = some (c.submitErrors + 1) := by
  refine ⟨s.modCtx p.ctx (fun c => { c with submitErrors := c.submitErrors + 1 }), ?_, ⟨rfl, rfl⟩, ?_⟩
  · change execDoorbellPostedWrite page off s = _
    unfold execDoorbellPostedWrite
    rw [hp]
    dsimp only
    rw [if_pos hoff]
  · rw [ctxRec_modCtx s p.ctx (fun c => { c with submitErrors := c.submitErrors + 1 }) (fun _ => rfl), hc]
    rfl
end

/-! ## RECORD_VALIDATION (R260, R364) -/

section
variable {s : State} {ctx k : Nat} {c : Ctx} {q : QueuedRec}

/-- What a record that waits to be written holds (R365). -/
theorem complete_writes (hc : s.ctxRec ctx = some c) (tag : BitVec 16) (units : Nat) (lid : Word) {status : Nat} (hst : status < 256) (d : BitVec 8) (time : Nat) :
    ∃ ws : List Word, (⟨ctx, c.carray + 32 * tag.toNat, ws, false⟩ : CompletionRec) ∈ (s.complete ctx tag units lid status d time).records ∧
      .launchComplete 0 ∈ (s.complete ctx tag units lid status d time).events ∧ ws.length = 8 ∧ (ws.getD 0 0).setWidth 16 = tag ∧ (ws.getD 0 0).extractLsb' 24 8 ≠ 0#8 ∧
      (ws.getD 0 0).extractLsb' 16 8 = BitVec.ofNat 8 status ∧ ws.getD 1 0 = BitVec.ofNat 32 units ∧ ws.getD 2 0 = lid ∧ ws.getD 3 0 = d.setWidth 32 := by
  generalize hg : (if ((c.gens.find? (fun x => x.1 == tag.toNat)).map (·.2)).getD 0 + 1 = 0 then 1 else ((c.gens.find? (fun x => x.1 == tag.toNat)).map (·.2)).getD 0 + 1 : BitVec 8) = gen
  have hgen : gen ≠ 0 := by
    rw [← hg]
    split
    · decide
    · assumption
  have he : s.complete ctx tag units lid status d time = (({ s.modCtx ctx (fun x => { x with gens := (x.gens.filter (fun y => y.1 != tag.toNat)) ++ [(tag.toNat, gen)] }) with
      records := s.records ++ [{ ctx := ctx, va := c.carray + 32 * tag.toNat, begun := false, words := [BitVec.ofNat 32 (gen.toNat * 2 ^ 24 + status * 2 ^ 16 + tag.toNat), BitVec.ofNat 32 units, lid,
        d.setWidth 32, BitVec.ofNat 32 time, BitVec.ofNat 32 (time / 2 ^ 32), 0, 0] }] } : State).post (.launchComplete 0)) := by
    unfold State.complete
    rw [hc]
    dsimp only
    rw [hg]
  have htag := tag.isLt
  have hglt := gen.isLt
  refine ⟨_, by rw [he]; exact List.mem_append_right _ (List.mem_singleton.2 rfl), by rw [he]; exact List.mem_append_right _ (List.mem_singleton.2 rfl), rfl, ?_, ?_, ?_, rfl, rfl, rfl⟩
  · refine BitVec.eq_of_toNat_eq ?_
    show ((BitVec.ofNat 32 (gen.toNat * 2 ^ 24 + status * 2 ^ 16 + tag.toNat)).setWidth 16).toNat = _
    rw [BitVec.toNat_setWidth, BitVec.toNat_ofNat]
    omega
  · intro h0
    refine hgen (BitVec.eq_of_toNat_eq ?_)
    have hz : ((BitVec.ofNat 32 (gen.toNat * 2 ^ 24 + status * 2 ^ 16 + tag.toNat)).extractLsb' 24 8).toNat = 0 := congrArg BitVec.toNat h0
    rw [BitVec.extractLsb'_toNat, BitVec.toNat_ofNat, Nat.shiftRight_eq_div_pow] at hz
    show gen.toNat = 0
    omega
  · refine BitVec.eq_of_toNat_eq ?_
    show ((BitVec.ofNat 32 (gen.toNat * 2 ^ 24 + status * 2 ^ 16 + tag.toNat)).extractLsb' 16 8).toNat = _
    rw [BitVec.extractLsb'_toNat, BitVec.toNat_ofNat, Nat.shiftRight_eq_div_pow, BitVec.toNat_ofNat]
    omega

/-- A context keeps where its completion records lie. -/
theorem unqueue_carray {n : BitVec 16} (hc : s.ctxRec ctx = some c) : ∃ c', (s.unqueue ctx k n).ctxRec ctx = some c' ∧ c'.carray = c.carray := by
  have hone (t : State) (f : Ctx → Ctx) (d : Ctx) (hd : t.ctxRec ctx = some d) (hf : ∀ x, (f x).ctx = x.ctx) : (t.modCtx ctx f).ctxRec ctx = some (f d) := by
    rw [ctxRec_modCtx t ctx f hf, hd]
    rfl
  have hdrop := hone _ (fun c => { c with queues := c.queues.modify k (fun l => l.filter (fun x => x.lnum != n)) }) _
    (hone s (fun c => { c with children := c.children.filter (fun x => x.lnum != n) }) c hc (fun _ => rfl)) (fun _ => rfl)
  unfold State.unqueue State.takeChild
  rw [show State.ctxRec (State.modQueue _ ctx k _) ctx = _ from hdrop]
  dsimp only
  split
  · exact ⟨_, hdrop, rfl⟩
  · split
    · exact ⟨_, hdrop, rfl⟩
    · exact ⟨_, hone _ (fun c => { c with queues := c.queues.modify k _ }) _ (hone _ (fun y => { y with children := y.children.filter _ }) _ hdrop (fun _ => rfl)) (fun _ => rfl), rfl⟩

theorem exec_validation (hc : s.ctxRec ctx = some c) (hq : (c.queue k).find? (fun x => !x.valid) = some q) : exec (.recordValidation ctx k) s = .next (
    match s.refusal ctx q.fields with
    | some n => ((s.unqueue ctx k q.lnum).complete ctx q.fields.tag 0 q.lid 4 (BitVec.ofNat 8 n) 0).post (.launchFire ctx)
    | none =>
      if q.dropped || s.beneathCancelled ctx q then ((s.unqueue ctx k q.lnum).complete ctx q.fields.tag q.units q.lid 2 0 0).arriveCancelled ctx q
      else (s.modQueue ctx k (fun l => l.map (fun x => if x.lnum = q.lnum then { x with valid := true } else x))).enterLevels ctx q) := by
  change execRecordValidation ctx k s = _
  unfold execRecordValidation
  rw [hc, Option.bind_some, hq] <;> rfl

theorem validation_refuses {n : Nat} (hc : s.ctxRec ctx = some c) (hq : (c.queue k).find? (fun x => !x.valid) = some q) (hn : s.refusal ctx q.fields = some n) :
    ∃ u ws, exec (.recordValidation ctx k) s = .next u ∧ u.sameMem s ∧ (⟨ctx, c.carray + 32 * q.fields.tag.toNat, ws, false⟩ : CompletionRec) ∈ u.records ∧
      .launchComplete 0 ∈ u.events ∧ (ws.getD 0 0).extractLsb' 16 8 = 4#8 ∧ ws.getD 2 0 = q.lid ∧ ws.getD 3 0 = (BitVec.ofNat 8 n).setWidth 32 := by
  obtain ⟨c', hc', hcar⟩ := unqueue_carray (k := k) (n := q.lnum) hc
  obtain ⟨ws, hrec, hev, _, _, _, hst, _, hlid, hd⟩ := complete_writes hc' q.fields.tag 0 q.lid (status := 4) (by decide) (BitVec.ofNat 8 n) 0
  have hmem : ((s.unqueue ctx k q.lnum).complete ctx q.fields.tag 0 q.lid 4 (BitVec.ofNat 8 n) 0).sameMem (s.unqueue ctx k q.lnum) :=
    ⟨complete_keeps bookBlind_mem (fun _ _ => rfl) _ ctx _ _ _ _ _ _, complete_keeps bookBlind_host (fun _ _ => rfl) _ ctx _ _ _ _ _ _⟩
  have hsame := sameMem_unqueue s ctx k q.lnum
  refine ⟨((s.unqueue ctx k q.lnum).complete ctx q.fields.tag 0 q.lid 4 (BitVec.ofNat 8 n) 0).post (.launchFire ctx), ws, (exec_validation hc hq).trans (by rw [hn]), ⟨hmem.1.trans hsame.1, hmem.2.trans hsame.2⟩, hcar ▸ hrec, List.mem_append_left _ hev, hst, hlid, hd⟩

/-- A context without its highest phase. -/
def Ctx.phaseless (c : Ctx) : Ctx := { c with topPhase := 0 }

theorem levelBlind_phaseless : LevelBlind (fun s => s.ctxs.map Ctx.phaseless) := by
  refine ⟨fun s n p => ?_, fun _ _ _ => rfl, fun _ _ => rfl⟩
  show (s.ctxs.map (fun x => if x.ctx = n then { x with topPhase := max x.topPhase p } else x)).map Ctx.phaseless = _
  rw [List.map_map]
  refine List.map_congr_left (fun x _ => ?_)
  show (if x.ctx = n then { x with topPhase := max x.topPhase p } else x : Ctx).phaseless = x.phaseless
  split <;> rfl

theorem ctxRec_of_phaseless {u s : State} (h : u.ctxs.map Ctx.phaseless = s.ctxs.map Ctx.phaseless) {ctx : Nat} {c : Ctx} (hc : s.ctxRec ctx = some c) :
    ∃ d, u.ctxRec ctx = some d ∧ d.phaseless = c.phaseless := by
  have hfind (t : State) : (t.ctxs.map Ctx.phaseless).find? (fun x => x.ctx == ctx) = (t.ctxRec ctx).map Ctx.phaseless := List.find?_map ..
  have hm : (u.ctxRec ctx).map Ctx.phaseless = (s.ctxRec ctx).map Ctx.phaseless := by rw [← hfind u, ← hfind s, h]
  rw [hc] at hm
  exact Option.map_eq_some_iff.1 hm

theorem validation_enters (hc : s.ctxRec ctx = some c) (hq : (c.queue k).find? (fun x => !x.valid) = some q) (hn : s.refusal ctx q.fields = none) (hd : q.dropped = false)
    (hb : s.beneathCancelled ctx q = false) :
    ∃ u c', exec (.recordValidation ctx k) s = .next u ∧ u.sameMem s ∧ u.ctxRec ctx = some c' ∧ c'.jobCount = c.jobCount + 1 ∧ (c'.queue k).length = (c.queue k).length ∧
      ∀ x ∈ c'.queue k, x.lnum = q.lnum → x.valid = true := by
  have hq' : ((c.queues.modify k (fun l => l.map (fun x => if x.lnum = q.lnum then { x with valid := true } else x))).getD k []) =
      (c.queue k).map (fun x => if x.lnum = q.lnum then { x with valid := true } else x) :=
    getD_modify (fun l : List QueuedRec => l.map (fun x => if x.lnum = q.lnum then { x with valid := true } else x)) c.queues k [] rfl
  have he : exec (.recordValidation ctx k) s =
      .next ((s.modQueue ctx k (fun l => l.map (fun x => if x.lnum = q.lnum then { x with valid := true } else x))).enterLevels ctx q) := by
    rw [exec_validation hc hq, hn]
    dsimp only
    rw [if_neg (by simp [hd, hb])]
  have hrec := ctxRec_modCtx (s.modQueue ctx k (fun l => l.map (fun x => if x.lnum = q.lnum then { x with valid := true } else x))) ctx
    (fun c => { c with jobCount := c.jobCount + 1 }) (fun _ => rfl)
  rw [ctxRec_modQueue, hc] at hrec
  obtain ⟨c', hc', hph⟩ := ctxRec_of_phaseless (enterLevels_counts levelBlind_phaseless (s.modQueue ctx k _) ctx q) hrec
  have hqueue : c'.queue k = _ := (congrArg (fun z : Ctx => z.queue k) hph :).trans hq'
  refine ⟨_, c', he, ⟨enterLevels_keeps bookBlind_mem _ ctx q, enterLevels_keeps bookBlind_host _ ctx q⟩, hc',
    (congrArg Ctx.jobCount hph :), ?_, ?_⟩
  · rw [hqueue, List.length_map]
  · intro x hx hl
    rw [hqueue] at hx
    obtain ⟨y, _, rfl⟩ := List.mem_map.1 hx
    by_cases hy : y.lnum = q.lnum
    · rw [if_pos hy]
    · rw [if_neg hy] at hl
      exact absurd hl hy
end

/-! ## LAUNCH_FIRE and the chunks of a launch (R261, R263) -/

section
variable {s : State}

theorem fire_fires {ctx k : Nat} {q : QueuedRec} (hn : s.nextRecord ctx = some (k, q)) (hd : q.fields.dyn = false) :
    ∃ u l, exec (.launchFire ctx) s = .next u ∧ u.sameMem s ∧ l ∈ u.launches ∧ l.ctx = ctx ∧ l.lid = q.lid ∧ l.units = q.fields.units ∧ l.ended = 0 ∧
      l.chunks = dealt q.fields.units ∧ (if l.units = 0 then .launchComplete l.key ∈ u.events else .unitPlacement l.key ∈ u.events) ∧
      ∀ c', u.ctxRec ctx = some c' → ∀ x ∈ c'.queue k, x.lnum ≠ q.lnum := by
  have he : exec (.launchFire ctx) s = .next (s.fire ctx k q q.fields.units) := by
    change execLaunchFire ctx s = _
    unfold execLaunchFire
    rw [hn]
    dsimp only
    rw [if_neg (by simp [hd])]
  refine ⟨_, _, he, sameMem_unqueue s ctx k q.lnum, List.mem_append_right _ (List.mem_singleton.2 rfl), rfl, rfl, rfl, rfl, rfl, ?_, fun c' hc x hx => ?_⟩
  · show if q.fields.units = 0 then Instr.launchComplete s.nextId ∈ (s.fire ctx k q q.fields.units).events else Instr.unitPlacement s.nextId ∈ (s.fire ctx k q q.fields.units).events
    have hev : (s.fire ctx k q q.fields.units).events = (s.unqueue ctx k q.lnum).events ++ [if q.fields.units = 0 then Instr.launchComplete s.nextId else Instr.unitPlacement s.nextId] ++
      [.launchFire ctx] := rfl
    rw [hev]
    split
    · exact List.mem_append_left _ (List.mem_append_right _ (List.mem_singleton.2 rfl))
    · exact List.mem_append_left _ (List.mem_append_right _ (List.mem_singleton.2 rfl))
  · exact unqueue_gone (s := s) (n := q.lnum) hc x (List.mem_append_left _ hx)

theorem mem_dealt (n d j : Nat) (hd : d < 4) : j ∈ (dealt n).getD d [] ↔ j < (n + 7) / 8 ∧ j % 4 = d := by
  have hget : (dealt n).getD d [] = (List.range ((n + 7) / 8)).filter (fun c => c % 4 == d) := by
    unfold dealt
    rw [List.getD_eq_getElem?_getD, List.getElem?_map, List.getElem?_range (show d < Config.dies from hd)]
    rfl
  rw [hget, List.mem_filter, List.mem_range, beq_iff_eq]

/-! ## STEAL_MESSAGE (R263) -/

theorem getD_modify_ne {α : Type} (f : α → α) (l : List α) {i j : Nat} (d : α) (h : i ≠ j) : (l.modify i f).getD j d = l.getD j d := by
  simp [List.getD_eq_getElem?_getD, h]

/-- The die of a list that holds the most, and of those that hold as much the first. -/
theorem foldl_most (n : Nat → Nat) (l : List Nat) (v : Nat) : let m := l.foldl (fun v d => if n v < n d then d else v) v
    (m = v ∨ m ∈ l) ∧ n v ≤ n m ∧ ∀ k ∈ l, n k ≤ n m := by
  induction l generalizing v with
  | nil => exact ⟨.inl rfl, Nat.le_refl _, fun k hk => absurd hk List.not_mem_nil⟩
  | cons a r ih =>
    obtain ⟨hm, hle, hall⟩ := ih (if n v < n a then a else v)
    have hfirst : n v ≤ n (if n v < n a then a else v) ∧ n a ≤ n (if n v < n a then a else v) := by split <;> omega
    refine ⟨?_, hfirst.1.trans hle, fun k hk => ?_⟩
    · rcases hm with hm | hm
      · rw [List.foldl_cons, hm]
        split
        · exact .inr List.mem_cons_self
        · exact .inl rfl
      · exact .inr (List.mem_cons_of_mem _ hm)
    · rcases List.mem_cons.1 hk with rfl | hk
      · exact hfirst.2.trans hle
      · exact hall k hk

/-- The die that holds the most chunks of a launch. -/
def Launch.victim (l : Launch) : Nat :=
  (List.range Config.dies).foldl (fun v d => if (l.chunks.getD v []).length < (l.chunks.getD d []).length then d else v) 0

theorem victim_most (l : Launch) : l.victim < 4 ∧ ∀ k, k < 4 → (l.chunks.getD k []).length ≤ (l.chunks.getD l.victim []).length := by
  obtain ⟨hm, _, hall⟩ := foldl_most (fun d => (l.chunks.getD d []).length) (List.range 4) 0
  refine ⟨?_, fun k hk => hall k (List.mem_range.2 hk)⟩
  rcases hm with hm | hm
  · exact hm.trans_lt (by decide)
  · exact List.mem_range.1 hm

/-- The chunks once a die has the highest half of the victim's. -/
def Launch.halved (l : Launch) (die : Nat) : List (List Nat) :=
  (l.chunks.modify l.victim (fun c => c.take ((l.chunks.getD l.victim []).length - (l.chunks.getD l.victim []).length / 2))).modify die
    (fun c => c ++ (l.chunks.getD l.victim []).drop ((l.chunks.getD l.victim []).length - (l.chunks.getD l.victim []).length / 2))

theorem steal_eq (l : Launch) (die : Nat) : l.steal die =
    if (l.chunks.getD l.victim []).length / 2 = 0 then { l with noSteal := l.noSteal ++ [die] } else { l with chunks := l.halved die } := rfl

/-- A die that has no chunk left gets the highest half of the victim's. -/
theorem steal_halves {l : Launch} {die : Nat} (hd : die < l.chunks.length) (hnone : l.chunks.getD die [] = []) (hr : ¬ (l.chunks.getD l.victim []).length < 2) :
    (l.steal die).chunks.getD l.victim [] = (l.chunks.getD l.victim []).take ((l.chunks.getD l.victim []).length - (l.chunks.getD l.victim []).length / 2) ∧
    (l.steal die).chunks.getD die [] = (l.chunks.getD l.victim []).drop ((l.chunks.getD l.victim []).length - (l.chunks.getD l.victim []).length / 2) := by
  have hne : l.victim ≠ die := fun h => hr (by rw [h, hnone]; decide)
  rw [steal_eq, if_neg (by omega)]
  dsimp only
  unfold Launch.halved
  generalize (l.chunks.getD l.victim []).length - (l.chunks.getD l.victim []).length / 2 = h
  constructor
  · exact (getD_modify_ne _ _ [] (Ne.symm hne)).trans (getD_modify (fun c : List Nat => c.take h) l.chunks l.victim [] List.take_nil)
  · refine (getD_modify_lt (fun c => c ++ (l.chunks.getD l.victim []).drop h) [] (by rwa [List.length_modify])).trans ?_
    rw [getD_modify_ne _ _ [] hne, hnone, List.nil_append]

theorem asks_fields {l : Launch} {die : Nat} (h : l.asks die = true) : l.chunks.getD die [] = [] := by
  unfold Launch.asks Launch.nextUnit at h
  simp only [Bool.and_eq_true] at h
  obtain ⟨⟨hn, _⟩, _⟩ := h
  split at hn
  · cases hn
  · cases hc : l.chunks.getD die [] with
    | nil => rfl
    | cons a r => rw [hc] at hn; cases hn

theorem steal_message {l : Launch} {die : Nat} (hl : s.launches.find? (fun y => y.key == l.key) = some l) (hd : die < 4) (ha : l.asks die = true) (hc : l.chunks.length = 4) :
    ∃ u y v, exec (.stealMessage l.key die) s = .next u ∧ u.sameMem s ∧ .unitPlacement l.key ∈ u.events ∧ u.launches.find? (fun y => y.key == l.key) = some y ∧
      v < 4 ∧ (∀ k, k < 4 → (l.chunks.getD k []).length ≤ (l.chunks.getD v []).length) ∧
      (let r := (l.chunks.getD v []).length
       if r < 2 then y = { l with noSteal := l.noSteal ++ [die] }
       else y.chunks.getD v [] = (l.chunks.getD v []).take (r - r / 2) ∧ y.chunks.getD die [] = (l.chunks.getD v []).drop (r - r / 2)) := by
  have hfind := find?_modLaunch s l.key (fun x => if x.asks die then x.steal die else x) (fun x => by
    split
    · rw [steal_eq]
      split <;> rfl
    · rfl)
  rw [hl, Option.map_some, if_pos ha] at hfind
  refine ⟨(s.modLaunch l.key (fun x => if x.asks die then x.steal die else x)).post (.unitPlacement l.key), l.steal die, l.victim, rfl, ⟨rfl, rfl⟩,
    List.mem_append_right _ (List.mem_singleton.2 rfl), hfind, (victim_most l).1, (victim_most l).2, ?_⟩
  dsimp only
  split
  · next hr => rw [steal_eq, if_pos (by omega)]
  · next hr => exact steal_halves (hc ▸ hd) (asks_fields ha) hr
end

/-! ## UNIT_PLACEMENT (R121, R123, R244, R263) -/

section
variable {s : State} {l : Launch} {d n : Nat} {places : List (UnitCore × List Group)} {slots : List Nat}

theorem startUnits_keeps {β : Type} {pi : State → β} (h : ∀ s ev, pi { s with events := ev } = pi s) (s : State) (key : Nat) : pi (s.startUnits key) = pi s := by
  have hpost (t : State) (u : UnitRec) : pi (t.post (.entrySegmentFetch u.uid)) = pi t := h t _
  unfold State.startUnits
  split
  · rfl
  · split
    · rfl
    · exact foldl_keeps pi hpost _ s

/-- The cores of a unit stand on the die for which they were sought. -/
theorem coresFor_die {ctx nb scratch fuel core : Nat} {parts : List (List Group)} (h : s.coresFor d ctx nb scratch fuel core parts = some places) :
    ∀ p ∈ places, p.1.die = d := by
  induction fuel generalizing core parts places with
  | zero =>
    cases parts with
    | nil =>
      obtain rfl := Option.some.inj h
      exact fun p hp => absurd hp List.not_mem_nil
    | cons a r => cases h
  | succ k ih =>
    cases parts with
    | nil =>
      obtain rfl := Option.some.inj h
      exact fun p hp => absurd hp List.not_mem_nil
    | cons a r =>
      unfold State.coresFor at h
      split at h
      · next x hx =>
        obtain ⟨ys, hys, rfl⟩ := Option.map_eq_some_iff.1 h
        intro p hp
        rcases List.mem_cons.1 hp with rfl | hp
        · unfold State.tryCore at hx
          dsimp only at hx
          split at hx
          · obtain rfl := Option.some.inj hx
            rfl
          · cases hx
        · exact ih hys p hp
      · exact ih h

/-- The unit of a launch as it is placed. -/
def State.placedUnit (s : State) (l : Launch) (n : Nat) (places : List (UnitCore × List Group)) : UnitRec :=
  { uid := s.nextId, ctx := l.ctx, launch := l.key, index := n, threads := l.fields.threads, nb := l.fields.nb, coop := l.fields.coop,
    scratch := 1024 * l.fields.scratch, cores := places.map (fun p => { p.1 with bars := l.bars p.1.bars p.2 }), sysarr := 0, sysSent := false, saveVa := 0, saving := none,
    stepping := false, live := true }

/-- Its groups, each with its core and its place in the unit. -/
def seatsOf (places : List (UnitCore × List Group)) : List (Nat × UnitCore × Group) := places.zipIdx.flatMap (fun p => p.1.2.map (fun g => (p.2, p.1.1, g)))

def State.placedGroups (s : State) (l : Launch) (places : List (UnitCore × List Group)) (slots : List Nat) : List Group :=
  (seatsOf places).map (fun x => placedGroup l s.nextId (s.nextId + 1 + 2 * x.2.2.sgrp) x.1 x.2.1 (slots.getD x.2.2.sgrp 0) x.2.2)

/-- Its streams, which wait for the entry segment. -/
def placedStream (l : Launch) (g : Group) : Stream := { Stream.start (g.gid + 1) g.gid .home (BitVec.ofNat 57 l.entry) g.alive with status := .waitPlaced }

theorem length_seatsOf (places : List (UnitCore × List Group)) : (seatsOf places).length = (places.map (fun p => p.2.length)).sum := by
  have hgen (k : Nat) : ((places.zipIdx k).flatMap (fun p => p.1.2.map (fun g => (p.2, p.1.1, g)))).length = (places.map (fun p => p.2.length)).sum := by
    induction places generalizing k with
    | nil => rfl
    | cons a r ih => rw [List.zipIdx_cons, List.flatMap_cons, List.length_append, ih, List.length_map, List.map_cons, List.sum_cons]
  exact hgen 0

/-- The state with its unit, its groups and its streams behind the others. -/
def State.withPlaced (s : State) (l : Launch) (n : Nat) (places : List (UnitCore × List Group)) (slots : List Nat) : State :=
  { s with
    units := s.units ++ [s.placedUnit l n places], groups := s.groups ++ s.placedGroups l places slots,
    streams := s.streams ++ (s.placedGroups l places slots).map (placedStream l) }

/-- Beside them, a placement changes the L1s, what is free, the clusters that wake, the launch, the numbers and the events. -/
theorem placed_keeps {β : Type} {pi : State → β} (h : ∀ s l1 fr cl ls n ev, pi { s with l1 := l1, free := fr, clusters := cl, launches := ls, nextId := n, events := ev } = pi s) :
    pi ((((s.placeUnit l n places slots).modLaunch l.key (fun x => x.taken d n)).startUnits l.key).post (.unitPlacement l.key)) = pi (s.withPlaced l n places slots) := by
  have hev (t : State) (ev : List Instr) : pi { t with events := ev } = pi t := h t t.l1 t.free t.clusters t.launches t.nextId ev
  have hla (t : State) (ls : List Launch) : pi { t with launches := ls } = pi t := h t t.l1 t.free t.clusters ls t.nextId t.events
  have hl1 (t : State) (c : Nat) : pi (t.dropL1 c) = pi t := h t _ t.free t.clusters t.launches t.nextId t.events
  have hfree (t : State) (k : Nat) : pi (t.useFree k) = pi t := h t t.l1 _ t.clusters t.launches t.nextId t.events
  have hplace : pi (s.placeUnit l n places slots) = pi (s.withPlaced l n places slots) := by
    unfold State.placeUnit
    dsimp only
    rw [hfree, foldl_keeps pi hl1]
    exact h (s.withPlaced l n places slots) s.l1 s.free _ s.launches _ s.events
  exact (hev _ _).trans ((startUnits_keeps hev _ l.key).trans ((hla _ _).trans hplace))

theorem tryDie_places (hn : l.nextUnit d = some n)
    (hp : s.coresFor d l.ctx l.fields.nb (1024 * l.fields.scratch) 36 0 ((List.range l.fields.coreCount).map l.fields.coreGroups) = some places)
    (hs : s.freeSlots l l.fields.groups = some slots) : s.tryDie l d = some ((s.placeUnit l n places slots).modLaunch l.key (fun x => x.taken d n)) := by
  unfold State.tryDie
  rw [hn]
  dsimp only
  rw [show Config.coresPerDie = 36 from rfl, hp, hs]

theorem findSome?_range_first {α : Type} {f : Nat → Option α} {m d : Nat} {x : α} (hd : d < m) (hbefore : ∀ e, e < d → f e = none) (hx : f d = some x) :
    (List.range m).findSome? f = some x := by
  have hsplit : List.range m = List.range d ++ d :: (List.range' (d + 1) (m - d - 1)) := by
    rw [List.range_eq_range', List.range_eq_range', ← List.range'_succ, show m = d + (m - d - 1 + 1) by omega, ← List.range'_append_1]
    simp
  rw [hsplit, List.findSome?_append, List.findSome?_eq_none_iff.2 (fun e he => hbefore e (List.mem_range.1 he)), List.findSome?_cons, hx]
  rfl

theorem exec_placement (hl : s.launches.find? (fun y => y.key == l.key) = some l) (hsus : ∀ y ∈ s.ctxs, y.ctx = l.ctx → y.suspended = false) :
    exec (.unitPlacement l.key) s = .next (match (List.range Config.dies).findSome? (fun d => s.tryDie l d) with
      | some t => (t.startUnits l.key).post (.unitPlacement l.key)
      | none => match (List.range Config.dies).find? l.asks with
        | some d => (s.modLaunch l.key (fun x => x.steal d)).post (.unitPlacement l.key)
        | none => s) := by
  change execUnitPlacement l.key s = _
  unfold execUnitPlacement
  have hno : ¬ (s.ctxs.any (fun c => c.ctx == l.ctx && c.suspended) = true) := fun h => by
    obtain ⟨y, hy, hp⟩ := List.any_eq_true.1 h
    simp only [Bool.and_eq_true, beq_iff_eq] at hp
    exact Bool.noConfusion ((hsus y hy hp.1).symm.trans hp.2)
  rw [hl]
  dsimp only
  rw [if_neg hno] <;> rfl

theorem placement_places (hl : s.launches.find? (fun y => y.key == l.key) = some l) (hd : d < 4) (hbefore : ∀ e, e < d → s.tryDie l e = none) (hn : l.nextUnit d = some n)
    (hp : s.coresFor d l.ctx l.fields.nb (1024 * l.fields.scratch) 36 0 ((List.range l.fields.coreCount).map l.fields.coreGroups) = some places)
    (hs : s.freeSlots l l.fields.groups = some slots) (hsus : ∀ y ∈ s.ctxs, y.ctx = l.ctx → y.suspended = false) :
    ∃ u x gs, exec (.unitPlacement l.key) s = .next u ∧ u.sameMem s ∧ u.units = s.units ++ [x] ∧ x.launch = l.key ∧ x.index = n ∧ x.ctx = l.ctx ∧ x.live = true ∧
      x.threads = l.fields.threads ∧ x.cores = places.map (fun p => { p.1 with bars := l.bars p.1.bars p.2 }) ∧ (∀ c ∈ x.cores, c.die = d) ∧ u.groups = s.groups ++ gs ∧
      gs.length = (places.map (fun p => p.2.length)).sum ∧ (∀ g ∈ gs, g.uid = x.uid ∧ g.ctx = l.ctx) ∧
      (∀ y ∈ u.streams, y ∈ s.streams ∨ (y.status = .waitPlaced ∧ y.pc = BitVec.ofNat 57 l.entry ∧ y.kind = .home)) ∧ .unitPlacement l.key ∈ u.events := by
  have he : exec (.unitPlacement l.key) s = .next ((((s.placeUnit l n places slots).modLaunch l.key (fun x => x.taken d n)).startUnits l.key).post (.unitPlacement l.key)) := by
    rw [exec_placement hl hsus, findSome?_range_first (show d < Config.dies from hd) hbefore (tryDie_places hn hp hs)]
  refine ⟨_, s.placedUnit l n places, s.placedGroups l places slots, he, ⟨placed_keeps (pi := State.mem) (fun _ _ _ _ _ _ _ => rfl), placed_keeps (pi := State.host) (fun _ _ _ _ _ _ _ => rfl)⟩,
    placed_keeps (pi := State.units) (fun _ _ _ _ _ _ _ => rfl), rfl, rfl, rfl, rfl, rfl, rfl, ?_, placed_keeps (pi := State.groups) (fun _ _ _ _ _ _ _ => rfl), ?_, ?_, ?_,
    List.mem_append_right _ (List.mem_singleton.2 rfl)⟩
  · intro c hc
    obtain ⟨p, hpm, rfl⟩ := List.mem_map.1 hc
    exact coresFor_die hp p hpm
  · rw [State.placedGroups, List.length_map, length_seatsOf]
  · intro g hg
    obtain ⟨x, _, rfl⟩ := List.mem_map.1 hg
    exact ⟨rfl, rfl⟩
  · intro y hy
    have hst := placed_keeps (s := s) (l := l) (d := d) (n := n) (places := places) (slots := slots) (pi := State.streams) (fun _ _ _ _ _ _ _ => rfl)
    rw [hst] at hy
    rcases List.mem_append.1 hy with hy | hy
    · exact .inl hy
    · obtain ⟨g, _, rfl⟩ := List.mem_map.1 hy
      exact .inr ⟨rfl, rfl, rfl⟩

theorem placement_waits (hl : s.launches.find? (fun y => y.key == l.key) = some l) (hno : ∀ e, e < 4 → s.tryDie l e = none ∧ l.asks e = false) :
    exec (.unitPlacement l.key) s = .next s := by
  have hfirst : (List.range Config.dies).findSome? (fun d => s.tryDie l d) = none := List.findSome?_eq_none_iff.2 (fun e he => (hno e (List.mem_range.1 he)).1)
  have hask : (List.range Config.dies).find? l.asks = none := List.find?_eq_none.2 (fun e he => by rw [(hno e (List.mem_range.1 he)).2]; exact Bool.noConfusion)
  change execUnitPlacement l.key s = _
  unfold execUnitPlacement
  rw [hl]
  dsimp only
  split
  · rfl
  · rw [hfirst, hask]
end

/-! ## LAUNCH_RECORD_READ (R264, R286) -/

/-- A stream of which it is not seen whether it waits for a counter. -/
def Stream.counted (x : Stream) : Stream :=
  { x with woken := false, status := (match x.status with
    | .waitCounter _ _ => .runnable
    | y => y) }

theorem levelBlind_counted : LevelBlind (fun s => s.st.counted) := by
  refine ⟨fun _ _ _ => rfl, fun _ _ _ => rfl, fun s ctx => ?_⟩
  show (if _ then { s.st with status := .runnable, woken := s.st.bwait } else s.st : Stream).counted = s.st.counted
  split
  · next h =>
    rw [Bool.and_eq_true] at h
    have hw : ∃ a b, s.st.status = .waitCounter a b := by
      have hc := h.1
      split at hc
      · next a b hs => exact ⟨a, b, hs⟩
      · cases hc
    obtain ⟨a, b, hs⟩ := hw
    simp only [Stream.counted, hs]
  · rfl

/-- A stream that waits for a LAUNCH waits for no counter. -/
theorem status_of_counted {x y : Stream} {id : Nat} (h : x.counted = y.counted) (hy : y.status = .waitAccept id) : x.status = .waitAccept id := by
  have hc : x.counted.status = .waitAccept id := by rw [h, Stream.counted, hy]
  unfold Stream.counted at hc
  dsimp only at hc
  split at hc
  · cases hc
  · exact hc

theorem wake_status (s : State) (p : Stream → Bool) : (s.wake p).st.status = s.st.status ∨ (s.wake p).st.status = .runnable := by
  show (if p s.st then { s.st with status := .runnable, woken := s.st.bwait } else s.st : Stream).status = _ ∨
    (if p s.st then { s.st with status := .runnable, woken := s.st.bwait } else s.st : Stream).status = _
  split
  · exact .inr rfl
  · exact .inl rfl

theorem cmdOver_status (s : State) (c : Cmd) : (s.cmdOver c).st.status = s.st.status ∨ (s.cmdOver c).st.status = .runnable := by
  unfold State.cmdOver
  rw [recheckEnd_keeps State.st (fun _ _ => rfl), kick_keeps (pi := State.st) (fun _ _ => rfl)]
  unfold State.wakeFetch
  split
  · exact wake_status s _
  · rcases wake_status (s.wake _) (fun x => decide (x.status = .waitFetch c.arg) && (s.wake _).allGroups.any (fun g => g.gid == x.gid && g.coreId == c.core && g.ctx == c.ctx))
      with h | h
    · rw [h]
      exact wake_status s _
    · exact .inr h

theorem endCmd_status (s : State) (id : Nat) : (s.endCmd id).st.status = s.st.status ∨ (s.endCmd id).st.status = .runnable := by
  unfold State.endCmd
  split
  · exact .inl rfl
  · next c _ =>
    have hover := cmdOver_status ((s.modCmd id (fun x => { x with state := .done })).dropLoose c) c
    rw [dropLoose_keeps (pi := State.st) (fun _ _ => rfl)] at hover
    dsimp only
    split
    · split
      · exact hover
      · exact hover
    · exact hover

section
variable {s : State} {c : Cmd} {lid : Word}

/-- The scalar register that a LAUNCH owes its streams, written. -/
def Stream.launched (c : Cmd) (lid : Word) (x : Stream) : Stream :=
  if x.owed.contains (c.arg, c.id) then { x with sregs := x.sregs.set c.arg lid, owed := x.owed.filter (· != (c.arg, c.id)) } else x

/-- The state in which they are written. -/
def State.lidWritten (s : State) (c : Cmd) (lid : Word) : State :=
  { s.mapStreams (Stream.launched c lid) with saved := s.saved.map (fun v => { v with streams := v.streams.map (Stream.launched c lid) }) }

/-- The streams whose faults are settled and that waited for the register alone go on. -/
def State.owersResumed (t s : State) (c : Cmd) : State :=
  (s.allStreams.filter (fun x => x.owed.contains (c.arg, c.id) && decide (x.status = .parked) && x.faults.all (fun f => f.settled.isSome))).foldl
    (fun t x => t.post (.fragmentResume x.sid)) t

theorem foldl_none {α σ : Type} {f : σ → α → σ} {l : List α} (h : ∀ x ∈ l, ∀ t, f t x = t) (t : σ) : l.foldl f t = t := by
  induction l with
  | nil => rfl
  | cons a r ih =>
    rw [List.foldl_cons, h a List.mem_cons_self]
    exact ih (fun x hx => h x (List.mem_cons_of_mem _ hx))

theorem launchAccepted_eq (hs : ∀ v ∈ s.saved, ∀ y ∈ v.streams, (c.arg, c.id) ∉ y.owed) : s.launchAccepted c lid =
    ((((((s.lidWritten c lid).owersResumed s c).flagDone c.sid c.id c.flag).modCmd c.id (fun x => { x with flag := none })).endCmd c.id).wake
      (fun x => decide (x.status = .waitAccept c.id))) := by
  unfold State.launchAccepted
  dsimp only
  rw [foldl_none (l := s.saved) (fun v hv t => by
    rw [List.filter_eq_nil_iff.2 (fun y hy h => hs v hv y hy (List.contains_iff_mem.1 h))]
    rfl)]
  rfl

/-- A view that sees of the streams nothing, nor the saved units, the commands and the events. -/
theorem launchAccepted_keeps {β : Type} {pi : State → β} (h : ∀ s x xs sv cm ev, pi { s with st := x, streams := xs, saved := sv, cmds := cm, events := ev } = pi s)
    (hs : ∀ v ∈ s.saved, ∀ y ∈ v.streams, (c.arg, c.id) ∉ y.owed) : pi (s.launchAccepted c lid) = pi s := by
  have hpost (t : State) (x : Stream) : pi (t.post (.fragmentResume x.sid)) = pi t := h t t.st t.streams t.saved t.cmds _
  have hmap (t : State) (f : Stream → Stream) : pi (t.mapStreams f) = pi t := h t _ _ t.saved t.cmds t.events
  rw [launchAccepted_eq hs]
  refine (hmap _ _).trans ?_
  rw [endCmd_keeps ⟨fun t f _ => hmap t f, fun t x => h t t.st t.streams t.saved x t.events, fun t ev => h t t.st t.streams t.saved t.cmds ev⟩]
  refine (h _ _ _ _ _ _).trans ?_
  rw [flagDone_keeps pi (fun t x xs => h t x xs t.saved t.cmds t.events)]
  unfold State.owersResumed
  rw [foldl_keeps pi hpost]
  exact h s _ _ _ s.cmds s.events

/-- A view of a stream that sees neither its flags nor whether it waits. -/
theorem launchAccepted_st {γ : Type} {f : Stream → γ} (hf : ∀ (x : Stream) fl st w, f { x with flags := fl, status := st, woken := w } = f x)
    (hs : ∀ v ∈ s.saved, ∀ y ∈ v.streams, (c.arg, c.id) ∉ y.owed) : f (s.launchAccepted c lid).st = f (Stream.launched c lid s.st) := by
  have hdoze {x y : Stream} (h : x.dozing = y.dozing) : f x = f y :=
    (hf x x.flags .ended false).symm.trans ((congrArg f h).trans (hf y y.flags .ended false))
  have hmap (t : State) (g : Stream → Stream) (h : ∀ x : Stream, (g x).dozing = x.dozing) : f (t.mapStreams g).st = f t.st := hdoze (h t.st)
  have hpost (t : State) (x : Stream) : f (t.post (.fragmentResume x.sid)).st = f t.st := rfl
  have hflag (t : State) : f (t.flagDone c.sid c.id c.flag).st = f t.st := by
    cases hfl : c.flag with
    | none => rfl
    | some i =>
      show f (if !t.st.owns c.sid c.id then t.st else _) = _
      split
      · rfl
      · exact hf t.st _ _ t.st.woken
  rw [launchAccepted_eq hs]
  refine (wake_dozes (pi := fun t => f t.st) hmap _ _).trans ((endCmd_keeps (pi := fun t => f t.st) ⟨hmap, fun _ _ => rfl, fun _ _ => rfl⟩ _ _).trans ?_)
  refine (hflag _).trans ?_
  unfold State.owersResumed
  exact foldl_keeps (fun t : State => f t.st) hpost _ _

/-- A stream that waited for the LAUNCH goes on. -/
theorem launchAccepted_status (hs : ∀ v ∈ s.saved, ∀ y ∈ v.streams, (c.arg, c.id) ∉ y.owed) (hw : s.st.status = .waitAccept c.id) :
    (s.launchAccepted c lid).st.status = .runnable := by
  have hpost (t : State) (x : Stream) : (t.post (.fragmentResume x.sid)).st.status = t.st.status := rfl
  have hres : ((s.lidWritten c lid).owersResumed s c).st.status = .waitAccept c.id := by
    unfold State.owersResumed
    rw [foldl_keeps (fun t : State => t.st.status) hpost]
    show (Stream.launched c lid s.st).status = _
    unfold Stream.launched
    split
    · exact hw
    · exact hw
  have hflag : (((s.lidWritten c lid).owersResumed s c).flagDone c.sid c.id c.flag).st.status = .waitAccept c.id := by
    cases c.flag with
    | none => exact hres
    | some i =>
      show (if !((s.lidWritten c lid).owersResumed s c).st.owns c.sid c.id then ((s.lidWritten c lid).owersResumed s c).st else
        { ((s.lidWritten c lid).owersResumed s c).st with
          flags := _, status := if ((s.lidWritten c lid).owersResumed s c).st.status = .waitFlags then .runnable else ((s.lidWritten c lid).owersResumed s c).st.status }).status = _
      split
      · exact hres
      · rw [hres]
        rfl
  rw [launchAccepted_eq hs]
  have hend := endCmd_status ((((s.lidWritten c lid).owersResumed s c).flagDone c.sid c.id c.flag).modCmd c.id (fun x => { x with flag := none })) c.id
  generalize State.endCmd _ c.id = t at hend ⊢
  show (if decide (t.st.status = .waitAccept c.id) then { t.st with status := .runnable, woken := t.st.bwait } else t.st : Stream).status = _
  split
  · rfl
  · next hne =>
    rcases hend with h | h
    · exact absurd (h.trans hflag) (by simpa using hne)
    · exact h

/-! ### The child that the record becomes -/

/-- The record of a LAUNCH as a child. -/
def State.childOf (s : State) (c : Cmd) (ws : List Word) (n : BitVec 16) : QueuedRec :=
  { lnum := n, fields := { s.shaped c.ctx (LaunchRec.parse ws) with node := true, lastn := false, deps := 0, succ := [] }, valid := true,
    graphid := (c.rows.getD 0 []).getD 0 0, phaseid := (c.rows.getD 0 []).getD 1 0, child := true,
    count := BitVec.ofNat 32 (if (s.shaped c.ctx (LaunchRec.parse ws)).dyn then 0 else (s.shaped c.ctx (LaunchRec.parse ws)).units) }

/-- The child enqueued. -/
def State.withChild (s : State) (c : Cmd) (ws : List Word) (n : BitVec 16) : State :=
  (((s.modCtx c.ctx (fun x => { x with launches := n })).modCtx c.ctx (fun x => { x with children := x.children ++ [s.childOf c ws n] })).takeChild c.ctx
    (s.shaped c.ctx (LaunchRec.parse ws)).queue).enterLevels c.ctx (s.childOf c ws n)

theorem launchRead_eq {ws : List Word} {x : Ctx} (hx : s.ctxRec c.ctx = some x) (hr : s.refusal c.ctx (s.shaped c.ctx (LaunchRec.parse ws)) = none) (hd : c.dropped = false)
    (hb : s.beneathCancelled c.ctx (s.childOf c ws (nextLaunch x.launches)) = false) :
    s.launchRead c ws = (s.withChild c ws (nextLaunch x.launches)).launchAccepted c (s.childOf c ws (nextLaunch x.launches)).lid := by
  unfold State.launchRead
  dsimp only
  rw [hx, hr]
  dsimp only
  rw [if_neg]
  · rfl
  · rw [hd, Bool.false_or]
    exact fun h => Bool.noConfusion (hb.symm.trans h)

theorem queue_lt (ws : List Word) : (LaunchRec.parse ws).queue < 8 := Nat.mod_lt _ (by decide)

theorem shaped_queue (s : State) (ctx : Nat) (r : LaunchRec) : (s.shaped ctx r).queue = r.queue := by
  unfold State.shaped
  cases s.ctxRec ctx with
  | none => rfl
  | some x =>
    show (x.shaped r).queue = r.queue
    unfold Ctx.shaped
    split <;> rfl

/-- A child that has just come waits, wherever it stands. -/
theorem takeChild_keepsNew {ctx k : Nat} {x : Ctx} {q : QueuedRec} (hx : s.ctxRec ctx = some x) (hq : q ∈ x.children) (hk : q.fields.queue = k) (hlen : k < x.queues.length)
    (honly : ∀ y ∈ x.children, y.lnum = q.lnum → y = q) : ∃ y, (s.takeChild ctx k).ctxRec ctx = some y ∧ q ∈ y.waiting k := by
  have hwait : q ∈ x.waiting k := List.mem_append_right _ (List.mem_filter.2 ⟨hq, by simpa using hk⟩)
  unfold State.takeChild
  rw [hx]
  dsimp only
  split
  · exact ⟨x, hx, hwait⟩
  · next y hy =>
    split
    · exact ⟨x, hx, hwait⟩
    · refine ⟨_, (ctxRec_modQueue _ ctx k _).trans (congrArg (Option.map _) ((ctxRec_children s ctx (fun l => l.filter (fun z => z.lnum != y.lnum))).trans (congrArg (Option.map _) hx))), ?_⟩
      by_cases hne : q.lnum = y.lnum
      · have hyq : y = q := honly y (List.mem_of_find?_eq_some hy) hne.symm
        refine List.mem_append_left _ ?_
        show q ∈ (x.queues.modify k (fun l => l ++ [y])).getD k []
        rw [getD_modify_lt (fun l : List QueuedRec => l ++ [y]) [] hlen, hyq]
        exact List.mem_append_right _ (List.mem_singleton.2 rfl)
      · refine List.mem_append_right _ (List.mem_filter.2 ⟨List.mem_filter.2 ⟨hq, by simpa using hne⟩, by simpa using hk⟩)

theorem withChild_ctx {ws : List Word} {x : Ctx} (hx : s.ctxRec c.ctx = some x) (hlen : x.queues.length = 8) (hkids : ∀ y ∈ x.children, y.lnum ≠ nextLaunch x.launches) :
    ∃ y, (s.withChild c ws (nextLaunch x.launches)).ctxRec c.ctx = some y ∧ s.childOf c ws (nextLaunch x.launches) ∈ y.waiting (s.shaped c.ctx (LaunchRec.parse ws)).queue := by
  have hkid : ((s.modCtx c.ctx (fun x' => { x' with launches := nextLaunch x.launches })).modCtx c.ctx (fun x' => { x' with children := x'.children ++ [s.childOf c ws (nextLaunch x.launches)] })).ctxRec c.ctx =
      some { x with launches := nextLaunch x.launches, children := x.children ++ [s.childOf c ws (nextLaunch x.launches)] } := by
    rw [ctxRec_children _ c.ctx (fun l => l ++ [s.childOf c ws (nextLaunch x.launches)]), ctxRec_modCtx s c.ctx (fun x' => { x' with launches := nextLaunch x.launches }) (fun _ => rfl), hx]
    rfl
  obtain ⟨y, hy, hin⟩ := takeChild_keepsNew hkid (List.mem_append_right _ (List.mem_singleton.2 rfl)) rfl
    (by show (s.shaped c.ctx (LaunchRec.parse ws)).queue < x.queues.length; rw [shaped_queue, hlen]; exact queue_lt ws)
    (fun z hz hl => by
      rcases List.mem_append.1 hz with hz | hz
      · exact absurd hl (hkids z hz)
      · exact List.mem_singleton.1 hz)
  obtain ⟨y', hy', hs⟩ := ctxRec_of_phaseless (enterLevels_counts levelBlind_phaseless _ c.ctx (s.childOf c ws (nextLaunch x.launches)))
    ((ctxRec_modCtx _ c.ctx (fun c => { c with jobCount := c.jobCount + 1 }) (fun _ => rfl)).trans (congrArg (Option.map _) hy))
  exact ⟨y', hy', (congrArg (fun z : Ctx => z.waiting (s.shaped c.ctx (LaunchRec.parse ws)).queue) hs :).symm ▸ hin⟩

theorem withChild_keeps {β : Type} {pi : State → β} (h : BookBlind pi) (hc : ∀ s x, pi { s with ctxs := x } = pi s) (s : State) (c : Cmd) (ws : List Word) (n : BitVec 16) :
    pi (s.withChild c ws n) = pi s := by
  unfold State.withChild
  rw [enterLevels_keeps h, takeChild_keeps hc]
  exact (hc _ _).trans (hc s _)

/-- R264, R286: the record has been read: it is enqueued as a child. -/
theorem launchRead_child {ws : List Word} {x : Ctx} (hr : s.refusal c.ctx (s.shaped c.ctx (LaunchRec.parse ws)) = none) (hd : c.dropped = false)
    (hx : s.ctxRec c.ctx = some x) (hlen : x.queues.length = 8)
    (hb : ∀ y : QueuedRec, y.graphid = (c.rows.getD 0 []).getD 0 0 → y.phaseid = (c.rows.getD 0 []).getD 1 0 → s.beneathCancelled c.ctx y = false)
    (hkids : ∀ y ∈ x.children, y.lnum ≠ nextLaunch x.launches) (hs : ∀ v ∈ s.saved, ∀ y ∈ v.streams, (c.arg, c.id) ∉ y.owed) :
    let u := s.launchRead c ws
    let r := s.shaped c.ctx (LaunchRec.parse ws)
    ∃ x' q, u.sameMem s ∧ u.ctxRec c.ctx = some x' ∧ q ∈ x'.waiting r.queue ∧ q.child = true ∧ q.valid = true ∧
      q.lnum = nextLaunch x.launches ∧ q.fields = { r with node := true, lastn := false, deps := 0, succ := [] } ∧
      ((c.arg, c.id) ∈ s.st.owed → u.st.sregs = s.st.sregs.set c.arg q.lid ∧ (c.arg, c.id) ∉ u.st.owed) ∧
      (s.st.status = .waitAccept c.id → u.st.status = .runnable) := by
  dsimp only
  rw [launchRead_eq hx hr hd (hb _ rfl rfl)]
  obtain ⟨y, hy, hin⟩ := withChild_ctx (ws := ws) hx hlen hkids
  have hsaved : (s.withChild c ws (nextLaunch x.launches)).saved = s.saved := withChild_keeps ⟨fun _ _ _ _ => rfl, fun _ _ _ => rfl, fun _ _ _ => rfl⟩ (fun _ _ => rfl) s c ws _
  have hs' : ∀ v ∈ (s.withChild c ws (nextLaunch x.launches)).saved, ∀ y ∈ v.streams, (c.arg, c.id) ∉ y.owed := hsaved ▸ hs
  have hst : (s.withChild c ws (nextLaunch x.launches)).st.dozing = s.st.dozing := withChild_keeps bookBlind_st (fun _ _ => rfl) s c ws _
  have hcount : (s.withChild c ws (nextLaunch x.launches)).st.counted = s.st.counted := by
    unfold State.withChild
    refine (enterLevels_counts levelBlind_counted _ c.ctx _).trans ?_
    exact congrArg Stream.counted (takeChild_keeps (pi := State.st) (fun _ _ => rfl) _ c.ctx _)
  have hsregs : (s.withChild c ws (nextLaunch x.launches)).st.sregs = s.st.sregs := (congrArg Stream.sregs hst :)
  have howed : (s.withChild c ws (nextLaunch x.launches)).st.owed = s.st.owed := (congrArg Stream.owed hst :)
  refine ⟨y, s.childOf c ws (nextLaunch x.launches), ⟨?_, ?_⟩, ?_, hin, rfl, rfl, rfl, rfl, fun ho => ?_, fun hw => launchAccepted_status hs' (status_of_counted hcount hw)⟩
  · exact (launchAccepted_keeps (pi := State.mem) (fun _ _ _ _ _ _ => rfl) hs').trans (withChild_keeps bookBlind_mem (fun _ _ => rfl) s c ws _)
  · exact (launchAccepted_keeps (pi := State.host) (fun _ _ _ _ _ _ => rfl) hs').trans (withChild_keeps bookBlind_host (fun _ _ => rfl) s c ws _)
  · exact (launchAccepted_keeps (pi := fun t : State => t.ctxRec c.ctx) (fun _ _ _ _ _ _ => rfl) hs').trans hy
  · have hland : ∀ lid, Stream.launched c lid (s.withChild c ws (nextLaunch x.launches)).st = { (s.withChild c ws (nextLaunch x.launches)).st with
        sregs := s.st.sregs.set c.arg lid, owed := s.st.owed.filter (· != (c.arg, c.id)) } := fun lid => by
      unfold Stream.launched
      rw [if_pos (by rw [howed]; exact List.contains_iff_mem.2 ho), hsregs, howed]
    refine ⟨(launchAccepted_st (f := Stream.sregs) (fun _ _ _ _ => rfl) hs').trans (by rw [hland]), ?_⟩
    rw [launchAccepted_st (f := Stream.owed) (fun _ _ _ _ => rfl) hs', hland]
    simp

/-! ### The record read word by word -/

/-- The first n words of a record, each at its place. -/
def State.recordRead (s : State) (pa : Nat → Nat) (n : Nat) : List Word := (List.range n).map (fun k => BitVec.ofNat 32 (s.getN (.dev (pa k)) 4))

theorem launchWords_from {pa : Nat → Nat} (hacc : s.accepting = true)
    (hread : ∀ k, k < 32 → s.engWalk c.die c.ctx (vaPair (c.w 0) (c.w 1) + 4 * k) = s ∧ s.cmdTrans c (vaPair (c.w 0) (c.w 1) + 4 * k) needR = .ok (.dev (pa k)))
    (n j : Nat) (cs : List Cmd) (p : Option PeerAnswer) (hj : j + n = 32) (hc : (s.withCmds cs).cmd? c.id = some { c with buf := s.recordRead pa j, peer := p }) :
    ∃ cs' p', (s.withCmds cs).launchWords c.id (n + 1) = (s.withCmds cs').launchRead { c with buf := s.recordRead pa 32, peer := p' } (s.recordRead pa 32) := by
  have hlen : (s.recordRead pa j).length = j := by simp [State.recordRead]
  induction n generalizing j cs p with
  | zero =>
    have h32 : j = 32 := by omega
    subst h32
    refine ⟨cs, p, ?_⟩
    unfold State.launchWords
    rw [hc]
    dsimp only
    rw [if_pos (by rw [hlen]), if_pos (show (s.withCmds cs).accepting = true from hacc)]
  | succ n ih =>
    obtain ⟨hw, ht⟩ := hread j (by omega)
    have hword : (s.withCmds cs).engWord { c with buf := s.recordRead pa j, peer := p } (vaPair (c.w 0) (c.w 1) + 4 * j) =
        (s.withCmds cs, some (BitVec.ofNat 32 ((s.withCmds cs).getN (.dev (pa j)) 4))) :=
      engWord_of_ok (engWalk_withCmds cs hw) ((cmdTrans_withCmds cs rfl rfl rfl rfl _ _).trans ht)
    have hnext : (s.withCmds cs).launchWords c.id (n + 1 + 1) =
        (s.withCmds (cs.map (fun x => if x.id = c.id then { x with buf := x.buf ++ [BitVec.ofNat 32 ((s.withCmds cs).getN (.dev (pa j)) 4)], peer := none } else x))).launchWords c.id (n + 1) := by
      rw [State.launchWords, hc]
      dsimp only
      rw [if_neg (by rw [hlen]; omega), hlen]
      change (match (s.withCmds cs).engWord { c with buf := s.recordRead pa j, peer := p } (vaPair (c.w 0) (c.w 1) + 4 * j) with
        | (t, some w) => (t.modCmd c.id (fun x => { x with buf := x.buf ++ [w], peer := none })).launchWords c.id (n + 1)
        | (t, none) => if (t.cmd? c.id).isNone then t.launchLost _ else t) = _
      rw [hword]
      rfl
    rw [hnext]
    refine ih (j + 1) _ none (by omega) ?_ (by simp [State.recordRead])
    refine (cmd?_modCmd (s.withCmds cs) c.id (fun x => { x with buf := x.buf ++ [BitVec.ofNat 32 ((s.withCmds cs).getN (.dev (pa j)) 4)], peer := none }) (fun _ => rfl)).trans ?_
    rw [hc]
    unfold State.recordRead
    rw [List.range_succ, List.map_append]
    rfl

theorem recordRead_enqueues {pa : Nat → Nat} {x : Ctx} (hc : s.cmd? c.id = some c) (hk : c.kind = .launch) (hst : c.state = .accepted) (hbuf : c.buf = [])
    (hd : c.dropped = false) (hacc : s.accepting = true)
    (hread : ∀ k, k < 32 → s.engWalk c.die c.ctx (vaPair (c.w 0) (c.w 1) + 4 * k) = s ∧ s.cmdTrans c (vaPair (c.w 0) (c.w 1) + 4 * k) needR = .ok (.dev (pa k)))
    (hr : s.refusal c.ctx (s.shaped c.ctx (LaunchRec.parse (s.recordRead pa 32))) = none) (hx : s.ctxRec c.ctx = some x) (hlen : x.queues.length = 8)
    (hb : ∀ y : QueuedRec, y.graphid = (c.rows.getD 0 []).getD 0 0 → y.phaseid = (c.rows.getD 0 []).getD 1 0 → s.beneathCancelled c.ctx y = false)
    (hkids : ∀ y ∈ x.children, y.lnum ≠ nextLaunch x.launches) (hs : ∀ v ∈ s.saved, ∀ y ∈ v.streams, (c.arg, c.id) ∉ y.owed) :
    ∃ u x' q, exec (.launchRecordRead c.id) s = .next u ∧ u.sameMem s ∧ u.ctxRec c.ctx = some x' ∧ q ∈ x'.waiting (s.shaped c.ctx (LaunchRec.parse (s.recordRead pa 32))).queue ∧
      q.child = true ∧ q.valid = true ∧ q.lnum = nextLaunch x.launches ∧
      q.fields = { s.shaped c.ctx (LaunchRec.parse (s.recordRead pa 32)) with node := true, lastn := false, deps := 0, succ := [] } ∧
      ((c.arg, c.id) ∈ s.st.owed → u.st.sregs = s.st.sregs.set c.arg q.lid ∧ (c.arg, c.id) ∉ u.st.owed) ∧
      (s.st.status = .waitAccept c.id → u.st.status = .runnable) := by
  obtain ⟨cs, p, hwords⟩ := launchWords_from hacc hread 32 0 s.cmds c.peer rfl (hc.trans (by rw [show s.recordRead pa 0 = c.buf from hbuf.symm]))
  have he : exec (.launchRecordRead c.id) s = .next ((s.withCmds cs).launchRead { c with buf := s.recordRead pa 32, peer := p } (s.recordRead pa 32)) := by
    change execLaunchRecordRead c.id s = _
    unfold execLaunchRecordRead
    rw [hc]
    dsimp only
    rw [if_pos ⟨hk, hst⟩]
    exact congrArg _ hwords
  obtain ⟨x', q, h⟩ := launchRead_child (s := s.withCmds cs) (c := { c with buf := s.recordRead pa 32, peer := p }) (ws := s.recordRead pa 32) hr hd hx hlen hb hkids hs
  exact ⟨_, x', q, he, h⟩
end

/-- Settles O55: the doorbells, the validation of a record, the reading of a LAUNCH's record, firing, dealing, stealing and placing, each by its own lemma. -/
theorem launchIntake : Obligations.LaunchIntake := by
  intro s
  refine ⟨fun page off pasid data p c hp hc hq => ⟨fun hok => ⟨fun hfull => ?_, doorbell_enqueues hp hc hq hok⟩, doorbell_refused hp hc, postedDoorbell_counts hp hc⟩,
    fun ctx k c q hc hq => ⟨fun n hn => validation_refuses hc hq hn, fun hn hd hb => validation_enters hc hq hn hd hb⟩, fun c pa x => ?_,
    fun ctx k q hn hd => fire_fires hn hd, mem_dealt, fun l die hl hd ha hc => steal_message hl hd ha hc,
    fun l d n places slots hl hd hb hn hp hs hsus => placement_places hl hd hb hn hp hs hsus, fun l hl hno => placement_waits hl hno⟩
  · rw [doorbell_taken hp hc hok, if_pos hfull]
  · intro r hc hk hst hbuf hd hacc hread hr hx hlen hb hkids hs
    exact recordRead_enqueues hc hk hst hbuf hd hacc hread hr hx hlen hb hkids hs

end Sys2Proof.Machine
end

section
/-!
How groups, units and launches end, and reductions: O56.
-/
namespace Sys2Proof.Machine

/-! ## GROUP_END (R116, R262) -/

section
variable {s : State} {g : Group}

theorem retryPlacement_keeps {β : Type} {pi : State → β} (h : ∀ s ev, pi { s with events := ev } = pi s) (s : State) : pi s.retryPlacement = pi s := by
  have hpost (t : State) (l : Launch) : pi (t.post (.unitPlacement l.key)) = pi t := h t _
  exact foldl_keeps pi hpost _ s

theorem mem_retryPlacement {i : Instr} (h : i ∈ s.events) : i ∈ s.retryPlacement.events := by
  unfold State.retryPlacement
  rw [foldl_post]
  exact List.mem_append_left _ h

theorem countStalls_keeps {β : Type} {pi : State → β} (h : ∀ s c, pi { s with ctxs := c } = pi s) (s : State) (g : Group) (u : UnitRec) : pi (s.countStalls g u) = pi s := by
  unfold State.countStalls
  split
  · rfl
  · exact h s _

/-- The windows of a unit released: the cores remember who held them (R161). -/
def State.coresReleased (s : State) (u : UnitRec) : State :=
  let kib : UnitCore → List Nat := fun c => (List.range (u.scratch / 1024)).map (fun i => c.base / 1024 + i)
  u.cores.foldl (fun t c => t.modCore (coreNo c.die c.core) (fun x =>
    { x with owners := x.owners.filter (fun o => !(kib c).contains o.1) ++ (kib c).map (fun k => (k, u.ctx)) })) s

theorem coresReleased_keeps {β : Type} {pi : State → β} (h : ∀ s c, pi { s with cores := c } = pi s) (s : State) (u : UnitRec) : pi (s.coresReleased u) = pi s := by
  have hcore (t : State) (c : UnitCore) : pi (t.modCore (coreNo c.die c.core) (fun x =>
      { x with owners := x.owners.filter (fun o => !((List.range (u.scratch / 1024)).map (fun i => c.base / 1024 + i)).contains o.1) ++
        ((List.range (u.scratch / 1024)).map (fun i => c.base / 1024 + i)).map (fun k => (k, u.ctx)) })) = pi t := h t _
  exact foldl_keeps pi hcore u.cores s

theorem removeUnit_eq (s : State) (u : UnitRec) : s.removeUnit u = { s.coresReleased u with
    units := s.units.filter (fun x => x.uid != u.uid), un := if s.un.uid = u.uid then UnitRec.none else s.un } := by
  have hunits : (s.coresReleased u).units = s.units := coresReleased_keeps (pi := State.units) (fun _ _ => rfl) s u
  have hun : (s.coresReleased u).un = s.un := coresReleased_keeps (pi := State.un) (fun _ _ => rfl) s u
  rw [← hunits, ← hun]
  by_cases h : (s.coresReleased u).un.uid = u.uid
  · rw [if_pos h]
    exact if_pos h
  · rw [if_neg h]
    exact if_neg h

theorem removeUnit_keeps {β : Type} {pi : State → β} (h : ∀ s c u us, pi { s with cores := c, un := u, units := us } = pi s) (s : State) (u : UnitRec) : pi (s.removeUnit u) = pi s := by
  rw [removeUnit_eq]
  exact (h (s.coresReleased u) _ _ _).trans (coresReleased_keeps (fun t c => h t c t.un t.units) s u)

/-- A unit that has been released is no more. -/
theorem removeUnit_gone (s : State) (u : UnitRec) : (s.removeUnit u).unit? u.uid = none := by
  rw [removeUnit_eq]
  refine List.find?_eq_none.2 (fun x hx hp => ?_)
  rw [Bool.and_eq_true, beq_iff_eq] at hp
  rcases List.mem_cons.1 hx with rfl | hx
  · by_cases h : s.un.uid = u.uid
    · rw [show ({ s.coresReleased u with units := _, un := if s.un.uid = u.uid then UnitRec.none else s.un } : State).un = _ from if_pos h] at hp
      exact Bool.noConfusion hp.1
    · rw [show ({ s.coresReleased u with units := _, un := if s.un.uid = u.uid then UnitRec.none else s.un } : State).un = _ from if_neg h] at hp
      exact h hp.2
  · have hne := (List.mem_filter.1 (show x ∈ s.units.filter (fun x => x.uid != u.uid) from hx)).2
    exact bne_iff_ne.1 hne hp.2

theorem removeGroup_eq (s : State) (gid : Nat) : s.removeGroup gid = { s with
    groups := s.groups.filter (fun g => g.gid != gid), streams := s.streams.filter (fun x => x.gid != gid), cmds := s.cmds.filter (fun c => c.gid != gid || !c.isOver),
    st := if s.st.gid = gid then Stream.none else s.st, gr := if s.gr.gid = gid then Group.none else s.gr } := by
  unfold State.removeGroup
  dsimp only
  by_cases h : s.st.gid = gid
  · rw [if_pos h, if_pos h]
    by_cases hg : s.gr.gid = gid
    · rw [if_pos hg, if_pos hg]
    · rw [if_neg hg, if_neg hg]
  · rw [if_neg h, if_neg h]
    by_cases hg : s.gr.gid = gid
    · rw [if_pos hg, if_pos hg]
    · rw [if_neg hg, if_neg hg]

/-- The groups that are left once one has been taken away. -/
theorem mem_removeGroup {gid : Nat} {h : Group} (hm : h ∈ (s.removeGroup gid).allGroups) (hl : h.live = true) : h ∈ s.allGroups ∧ h.gid ≠ gid := by
  rw [removeGroup_eq] at hm
  rcases List.mem_cons.1 hm with rfl | hm
  · by_cases hg : s.gr.gid = gid
    · rw [show ({ s with groups := _, streams := _, cmds := _, st := _, gr := if s.gr.gid = gid then Group.none else s.gr } : State).gr = _ from if_pos hg] at hl
      exact Bool.noConfusion hl
    · rw [show ({ s with groups := _, streams := _, cmds := _, st := _, gr := if s.gr.gid = gid then Group.none else s.gr } : State).gr = _ from if_neg hg]
      exact ⟨List.mem_cons_self, hg⟩
  · obtain ⟨hm, hne⟩ := List.mem_filter.1 (show h ∈ s.groups.filter (fun g => g.gid != gid) from hm)
    exact ⟨List.mem_cons_of_mem _ hm, bne_iff_ne.1 hne⟩

theorem removeGroup_gone (s : State) (gid : Nat) : (s.removeGroup gid).group? gid = none ∧ ∀ x ∈ (s.removeGroup gid).streams, x.gid ≠ gid := by
  refine ⟨List.find?_eq_none.2 (fun h hm hp => ?_), fun x hx => ?_⟩
  · rw [Bool.and_eq_true, beq_iff_eq] at hp
    exact (mem_removeGroup hm hp.1).2 hp.2
  · rw [removeGroup_eq] at hx
    exact bne_iff_ne.1 (List.mem_filter.1 (show x ∈ s.streams.filter (fun x => x.gid != gid) from hx)).2

theorem unitOver_keeps {β : Type} {pi : State → β} (h : ∀ s c u us ls ev, pi { s with cores := c, un := u, units := us, launches := ls, events := ev } = pi s) (s : State) (u : UnitRec) :
    pi (s.unitOver u) = pi s := by
  unfold State.unitOver
  rw [retryPlacement_keeps (fun t ev => h t t.cores t.un t.units t.launches ev)]
  have hpost (t : State) (i : Instr) : pi (t.post i) = pi t := h t t.cores t.un t.units t.launches _
  have hlaunch (t : State) (f : Launch → Launch) : pi (t.modLaunch u.launch f) = pi t := h t t.cores t.un t.units _ t.events
  rw [hpost, hlaunch]
  exact removeUnit_keeps (fun t c v vs => h t c v vs t.launches t.events) s u

/-- R257: a counter goes down by 1 and stops at 0. -/
theorem bumpCount_pred (c : Word) : bumpCount c (-1) = BitVec.ofNat 32 (c.toNat - 1) := by
  refine BitVec.eq_of_toNat_eq ?_
  rw [toNat_bumpCount, BitVec.toNat_ofNat]
  have hc := c.isLt
  omega

/-- What the end of a unit's last group does to its launch. -/
theorem unitOver_ends {x : UnitRec} {l : Launch} (hl : s.launches.find? (fun y => y.key == x.launch) = some l) :
    (s.unitOver x).unit? x.uid = none ∧ .launchComplete x.launch ∈ (s.unitOver x).events ∧
      (s.unitOver x).launches.find? (fun y => y.key == x.launch) = some { l with ended := l.ended + 1, count := BitVec.ofNat 32 (l.count.toNat - 1) } := by
  have hlau : (s.removeUnit x).launches = s.launches := removeUnit_keeps (pi := State.launches) (fun _ _ _ _ => rfl) s x
  unfold State.unitOver
  refine ⟨?_, mem_retryPlacement (List.mem_append_right _ (List.mem_singleton.2 rfl)), ?_⟩
  · rw [retryPlacement_keeps (pi := fun t : State => t.unit? x.uid) (fun _ _ => rfl)]
    exact removeUnit_gone s x
  · rw [retryPlacement_keeps (pi := fun t : State => t.launches.find? (fun y => y.key == x.launch)) (fun _ _ => rfl)]
    refine (find?_modLaunch (s.removeUnit x) x.launch (fun l => { l with ended := l.ended + 1, count := bumpCount l.count (-1) }) (fun _ => rfl)).trans ?_
    rw [hlau, hl, ← bumpCount_pred]
    rfl

/-- The state in which the group has left, with its stalls counted. -/
def State.groupLeft (s : State) (g : Group) : State := (s.countStalls g (s.unitOf g.uid)).removeGroup g.gid

theorem exec_groupEnd (hg : s.group? g.gid = some g) (ha : g.alive = 0) (hu : g.uid ≠ 0) (hs : ∀ x ∈ s.stores, x.gid ≠ g.gid) (hat : ∀ x ∈ s.atomics, x.gid ≠ g.gid)
    (hc : ∀ c ∈ s.cmds, c.gid = g.gid → c.isOver = true) (hp : ∀ c, s.ctxRec g.ctx = some c → c.profcap = 0) : exec (.groupEnd g.gid) s = .next (
      if (s.groupLeft g).allGroups.any (fun x => x.live && x.uid == (s.unitOf g.uid).uid) then (s.groupLeft g).retryPlacement else (s.groupLeft g).unitOver (s.unitOf g.uid)) := by
  have hprof : s.profile g (s.unitOf g.uid) = .ok s := by
    unfold State.profile
    cases hctx : s.ctxRec g.ctx with
    | none => rfl
    | some c => exact if_pos (hp c hctx)
  have hwait : ¬ (g.alive ≠ 0 ∨ g.uid = 0 ∨ s.stores.any (fun x => x.gid == g.gid) ∨ s.atomics.any (fun x => x.gid == g.gid) ∨ s.cmds.any (fun c => c.gid == g.gid && !c.isOver)) := by
    rintro (h | h | h | h | h)
    · exact h ha
    · exact hu h
    · obtain ⟨x, hx, he⟩ := List.any_eq_true.1 h
      exact hs x hx (beq_iff_eq.1 he)
    · obtain ⟨x, hx, he⟩ := List.any_eq_true.1 h
      exact hat x hx (beq_iff_eq.1 he)
    · obtain ⟨c, hcm, he⟩ := List.any_eq_true.1 h
      rw [Bool.and_eq_true, beq_iff_eq] at he
      rw [hc c hcm he.1] at he
      exact Bool.noConfusion he.2
  change execGroupEnd g.gid s = _
  unfold execGroupEnd
  rw [hg]
  dsimp only
  rw [if_neg hwait, hprof]
  rfl

theorem groupLeft_keeps {β : Type} {pi : State → β} (h : ∀ s c gs xs cm x g, pi { s with ctxs := c, groups := gs, streams := xs, cmds := cm, st := x, gr := g } = pi s) (s : State) (g : Group) :
    pi (s.groupLeft g) = pi s := by
  unfold State.groupLeft
  rw [removeGroup_eq]
  exact (h _ _ _ _ _ _ _).trans (countStalls_keeps (fun t c => h t c t.groups t.streams t.cmds t.st t.gr) s g _)

theorem groupEnd_ends (hg : s.group? g.gid = some g) (ha : g.alive = 0) (hu : g.uid ≠ 0) (hs : ∀ x ∈ s.stores, x.gid ≠ g.gid) (hat : ∀ x ∈ s.atomics, x.gid ≠ g.gid)
    (hc : ∀ c ∈ s.cmds, c.gid = g.gid → c.isOver = true) (hp : ∀ c, s.ctxRec g.ctx = some c → c.profcap = 0) :
    ∃ u, exec (.groupEnd g.gid) s = .next u ∧ u.sameMem s ∧ u.group? g.gid = none ∧ (∀ x ∈ u.streams, x.gid ≠ g.gid) ∧
      (∀ x l, s.unit? g.uid = some x → (∀ h ∈ s.allGroups, h.live = true → h.uid = g.uid → h.gid = g.gid) → s.launches.find? (fun y => y.key == x.launch) = some l →
        u.unit? g.uid = none ∧ .launchComplete x.launch ∈ u.events ∧
        u.launches.find? (fun y => y.key == x.launch) = some { l with ended := l.ended + 1, count := BitVec.ofNat 32 (l.count.toNat - 1) }) := by
  have hkeep {β : Type} {pi : State → β} (h : ∀ s c u us ls ev, pi { s with cores := c, un := u, units := us, launches := ls, events := ev } = pi s) :
      pi (if (s.groupLeft g).allGroups.any (fun x => x.live && x.uid == (s.unitOf g.uid).uid) then (s.groupLeft g).retryPlacement else (s.groupLeft g).unitOver (s.unitOf g.uid)) =
        pi (s.groupLeft g) := by
    split
    · exact retryPlacement_keeps (fun t ev => h t t.cores t.un t.units t.launches ev) _
    · exact unitOver_keeps h _ _
  have hgone := removeGroup_gone (s.countStalls g (s.unitOf g.uid)) g.gid
  refine ⟨_, exec_groupEnd hg ha hu hs hat hc hp, ⟨?_, ?_⟩, ?_, ?_, fun x l hx honly hl => ?_⟩
  · exact (hkeep (pi := State.mem) (fun _ _ _ _ _ _ => rfl)).trans (groupLeft_keeps (fun _ _ _ _ _ _ _ => rfl) s g)
  · exact (hkeep (pi := State.host) (fun _ _ _ _ _ _ => rfl)).trans (groupLeft_keeps (fun _ _ _ _ _ _ _ => rfl) s g)
  · exact (hkeep (pi := fun t : State => t.group? g.gid) (fun _ _ _ _ _ _ => rfl)).trans hgone.1
  · rw [hkeep (pi := State.streams) (fun _ _ _ _ _ _ => rfl)]
    exact hgone.2
  · have hxu : s.unitOf g.uid = x := by rw [State.unitOf, hx]; rfl
    have hxid : x.uid = g.uid := by
      have hp := List.find?_some hx
      rw [Bool.and_eq_true, beq_iff_eq] at hp
      exact hp.2
    have hlast : (s.groupLeft g).allGroups.any (fun y => y.live && y.uid == (s.unitOf g.uid).uid) = false := by
      refine List.any_eq_false.2 (fun h hm hp => ?_)
      rw [Bool.and_eq_true, beq_iff_eq, hxu, hxid] at hp
      obtain ⟨hin, hne⟩ := mem_removeGroup hm hp.1
      have hall : (s.countStalls g (s.unitOf g.uid)).allGroups = s.allGroups := countStalls_keeps (pi := State.allGroups) (fun _ _ => rfl) s g _
      exact hne (honly h (hall ▸ hin) hp.1 hp.2)
    rw [if_neg (by rw [hlast]; exact Bool.noConfusion), hxu]
    have hlau : (s.groupLeft g).launches = s.launches := groupLeft_keeps (pi := State.launches) (fun _ _ _ _ _ _ _ => rfl) s g
    exact hxid ▸ unitOver_ends (s := s.groupLeft g) (hlau ▸ hl)
end

/-! ## LAUNCH_COMPLETE (R257, R365, R366) -/

section
variable {s : State}

theorem bumpNode_events (s : State) (ctx graph node : Nat) (n : Word) : (s.bumpNode ctx graph node n).events = s.events := by
  unfold State.bumpNode
  dsimp only
  split <;> rfl

theorem mem_settleLevels {i : Instr} {ctx : Nat} (h : i ∈ s.events) : i ∈ (s.settleLevels ctx).events := by
  have hone (t : State) (g : Counter) : (t.modCounter 2 ctx g.node (fun c => { c with count := bumpCount c.count (-1) })).events = t.events := rfl
  unfold State.settleLevels
  refine List.mem_append_left _ ?_
  show i ∈ (List.foldl _ _ _ : State).events
  rw [foldl_keeps State.events hone]
  exact h

theorem mem_leaveLevels {i : Instr} {ctx : Nat} (fields : LaunchRec) (g : Word) (child : Bool) (h : i ∈ s.events) : i ∈ (s.leaveLevels ctx fields g child).events := by
  have hone (t : State) (n : Nat) : (t.bumpNode ctx (g.toNat - 0x10000) n (-1)).events = t.events := bumpNode_events t ctx _ n _
  unfold State.leaveLevels
  refine mem_settleLevels ?_
  split
  · exact h
  · show i ∈ (List.foldl _ _ _ : State).events
    rw [foldl_keeps State.events hone]
    exact h

theorem launchComplete_ends {l : Launch} {c : Ctx} (hk : l.key ≠ 0) (hl : s.launches.find? (fun y => y.key == l.key) = some l) (hc : s.ctxRec l.ctx = some c)
    (hended : l.units ≤ l.ended) (hcount : l.count = 0) (hdone : l.done = false) (hst : l.status ≤ 3) :
    ∃ u ws, exec (.launchComplete l.key) s = .next u ∧ u.sameMem s ∧ (∀ x ∈ u.launches, x.key ≠ l.key) ∧ (⟨l.ctx, c.carray + 32 * l.fields.tag.toNat, ws, false⟩ : CompletionRec) ∈ u.records ∧
      .launchComplete 0 ∈ u.events ∧ ws.length = 8 ∧ (ws.getD 0 0).setWidth 16 = l.fields.tag ∧ (ws.getD 0 0).extractLsb' 24 8 ≠ 0#8 ∧
      (ws.getD 0 0).extractLsb' 16 8 = BitVec.ofNat 8 (max l.status (if l.cancelled then 2 else 0)) ∧ ws.getD 1 0 = BitVec.ofNat 32 l.ended ∧
      ws.getD 2 0 = l.lid ∧ ws.getD 3 0 = (if max l.status (if l.cancelled then 2 else 0) = 2 then 0 else l.detail.setWidth 32) := by
  have hlt : max l.status (if l.cancelled then 2 else 0) < 256 := by
    have h2 : (if l.cancelled then 2 else 0) ≤ 2 := by split <;> omega
    omega
  let left : State := { s with launches := s.launches.filter (fun x => x.key != l.key) }
  generalize hstat : max l.status (if l.cancelled then 2 else 0) = status at hlt ⊢
  obtain ⟨ws, hrec, hev, hlen, htag, hgen, hs, hunits, hlid, hd⟩ := complete_writes (s := left) (ctx := l.ctx) (c := c) hc l.fields.tag l.ended l.lid hlt
    (if status = 2 then 0 else l.detail) (s.dev.clock.toNat - l.fired)
  have he : exec (.launchComplete l.key) s = .next (((left.complete l.ctx l.fields.tag l.ended l.lid status (if status = 2 then 0 else l.detail)
      (s.dev.clock.toNat - l.fired)).leaveLevels l.ctx l.fields l.graphid l.child).wakeCounters l.ctx) := by
    change execLaunchComplete l.key s = _
    unfold execLaunchComplete
    rw [if_neg hk, hl]
    dsimp only
    rw [if_neg (by rw [hcount, hdone]; simp [Nat.not_lt.2 hended]), hstat]
  have hkeep {β : Type} {pi : State → β} (h : BookBlind pi) (hr : ∀ s r, pi { s with records := r } = pi s) :
      pi (((left.complete l.ctx l.fields.tag l.ended l.lid status (if status = 2 then 0 else l.detail) (s.dev.clock.toNat - l.fired)).leaveLevels l.ctx l.fields l.graphid l.child).wakeCounters l.ctx) =
        pi left := (h.levels.wakes _ _).trans ((leaveLevels_keeps h _ _ _ _ _).trans (complete_keeps h hr _ _ _ _ _ _ _ _))
  refine ⟨_, ws, he, ⟨hkeep bookBlind_mem (fun _ _ => rfl), hkeep bookBlind_host (fun _ _ => rfl)⟩, fun x hx => ?_, ?_, mem_leaveLevels _ _ _ hev, hlen, htag, hgen, hs, hunits, hlid, ?_⟩
  · rw [hkeep bookBlind_launches (fun _ _ => rfl)] at hx
    exact bne_iff_ne.1 (List.mem_filter.1 (show x ∈ s.launches.filter (fun x => x.key != l.key) from hx)).2
  · have hrecs : BookBlind State.records := ⟨fun _ _ _ _ => rfl, fun _ _ _ => rfl, fun _ _ _ => rfl⟩
    have hr := (hrecs.levels.wakes _ l.ctx).trans (leaveLevels_keeps hrecs (left.complete l.ctx l.fields.tag l.ended l.lid status (if status = 2 then 0 else l.detail)
      (s.dev.clock.toNat - l.fired)) l.ctx l.fields l.graphid l.child)
    exact hr.symm ▸ hrec
  · rw [hd]
    split <;> rfl
end

/-! ## The completion record written (R367) -/

section
variable {s : State} {ctx va b : Nat} {ws : List Word}

/-- The places of n words of host memory from an address on. -/
def hostPlaces (b n : Nat) : List Loc := (List.range n).map (fun k => .host (b + 4 * k))

theorem hostPlaces_succ (b n : Nat) : hostPlaces b (n + 1) = .host b :: hostPlaces (b + 4) n := by
  unfold hostPlaces
  rw [List.range_succ_eq_map, List.map_cons, List.map_map]
  refine congrArg _ (List.map_congr_left (fun k _ => ?_))
  show Loc.host (b + 4 * (k + 1)) = .host (b + 4 + 4 * k)
  congr 1
  omega

theorem putPlaces_cons (s : State) (l : Loc) (ls : List Loc) (w : Word) (ws : List Word) : s.putPlaces (l :: ls) (w :: ws) = (s.putN l w.toNat 4).putPlaces ls ws := rfl

theorem putPlaces_keeps {β : Type} {pi : State → β} (h : ∀ s ho, pi { s with host := ho } = pi s) (s : State) (b : Nat) (ws : List Word) :
    pi (s.putPlaces (hostPlaces b ws.length) ws) = pi s := by
  have hput (t : State) (a v n : Nat) : pi (t.putN (.host a) v n) = pi t := by
    induction n with
    | zero => rfl
    | succ k ih => exact (h _ _).trans ih
  induction ws generalizing s b with
  | nil => rfl
  | cons w r ih =>
    rw [List.length_cons, hostPlaces_succ, putPlaces_cons]
    exact (ih _ (b + 4)).trans (hput s b _ 4)

theorem plain_host (a n : Nat) : (Loc.host a).plain n := trivial

/-- Words put into host memory change nothing below them. -/
theorem putPlaces_below (s : State) (b : Nat) (ws : List Word) {a : Nat} (ha : a < b) : (s.putPlaces (hostPlaces b ws.length) ws).byteAt (.host a) = s.byteAt (.host a) := by
  induction ws generalizing s b with
  | nil => rfl
  | cons w r ih =>
    rw [List.length_cons, hostPlaces_succ, putPlaces_cons, ih _ _ (by omega)]
    refine (byteAt_putN s (.host b) w.toNat 4 (plain_host b 4)).2 (.host a) (plain_host a 1) ?_
    rintro ⟨i, _, he⟩
    have hab : a = b + i := Loc.host.inj he
    omega

theorem putPlaces_reads (s : State) (b : Nat) (ws : List Word) {k : Nat} (hk : k < ws.length) :
    (s.putPlaces (hostPlaces b ws.length) ws).getN (.host (b + 4 * k)) 4 = (ws.getD k 0).toNat := by
  induction ws generalizing s b k with
  | nil => exact absurd hk (Nat.not_lt_zero k)
  | cons w r ih =>
    rw [List.length_cons, hostPlaces_succ, putPlaces_cons]
    cases k with
    | zero =>
      have hbytes : ∀ i, i < 4 → ((s.putN (.host b) w.toNat 4).putPlaces (hostPlaces (b + 4) r.length) r).byteAt ((Loc.host b).plus i) =
          (s.putN (.host b) w.toNat 4).byteAt ((Loc.host b).plus i) := fun i hi => putPlaces_below _ (b + 4) r (show b + i < b + 4 by omega)
      refine (gatherLE_congr _ _ 4 hbytes).trans ((getN_putN s (.host b) w.toNat 4 (plain_host b 4)).trans ?_)
      exact Nat.mod_eq_of_lt w.isLt
    | succ k =>
      rw [show b + 4 * (k + 1) = b + 4 + 4 * k by omega]
      exact ih _ (b + 4) (by simpa using hk)

/-- What the device asks for word by word, where each word has a place. -/
theorem sysAsks_ok {die who : Nat} {need : BitVec 3} {vas : List Nat} {ls : List Loc}
    (h : List.Forall₂ (fun a l => (s.engAsk die ctx a need who false).struck s true 4 = .ok l) vas ls) : s.sysAsks die ctx who need vas = .ok ls := by
  induction h with
  | nil => rfl
  | cons ha _ ih =>
    unfold State.sysAsks
    rw [ha]
    dsimp only
    rw [ih]

theorem engTrans_ok {die : Nat} {need : BitVec 3} {chip : Bool} {l : Loc} (h : s.engTrans die ctx va need chip = .ok l) : s.window ctx va = none := by
  unfold State.engTrans at h
  split at h
  · cases h
  · split at h
    · split at h <;> cases h
    · assumption

/-- A word that has a place here does not travel to a peer. -/
theorem travels_of_ask {die who : Nat} {need : BitVec 3} {l : Loc} (h : (s.engAsk die ctx va need who false).struck s true 4 = .ok l) : s.travels ctx va = false := by
  have hans {t : Trans} {o : Option Nat} (h : t.answered o = .ok l) : t = .ok l := by
    unfold Trans.answered at h
    split at h
    · cases h
    · cases h
    · cases h
    · cases h
    · exact h
  have hstr {t : Trans} (h : t.struck s true 4 = .ok l) : t = .ok l := by
    unfold Trans.struck at h
    split at h
    · split at h
      · cases h
      · exact h
    · exact h
  have hw : s.window ctx va = none := by
    have ha := hans (hstr h)
    split at ha
    · cases ha
    · exact engTrans_ok ha
  unfold State.travels
  rw [hw]
  rfl

/-- The walks that the device makes for the words of a piece. -/
def State.pieceWalked (s : State) (ctx va n : Nat) : State := ((List.range n).map (fun k => va + 4 * k)).foldl (fun t x => t.engWalk 0 ctx x) s

theorem engWalk_keeps {β : Type} {pi : State → β} (h : ∀ s t d c, pi { s with tlb := t, dies := d, cores := c } = pi s) (s : State) (die ctx va : Nat) : pi (s.engWalk die ctx va) = pi s := by
  unfold State.engWalk
  split
  · rfl
  · exact noteWalk_keeps pi h s _ ctx va

theorem pieceWalked_keeps {β : Type} {pi : State → β} (h : ∀ s t d c, pi { s with tlb := t, dies := d, cores := c } = pi s) (s : State) (ctx va n : Nat) :
    pi (s.pieceWalked ctx va n) = pi s := by
  have hone (t : State) (x : Nat) : pi (t.engWalk 0 ctx x) = pi t := engWalk_keeps h t 0 ctx x
  exact foldl_keeps pi hone _ s

theorem zipIdx_fst (ws : List Word) (va n : Nat) : ((ws.zipIdx n).map (fun x => (va + 4 * x.2, x.1))).map (·.1) = (List.range' n ws.length).map (fun k => va + 4 * k) := by
  induction ws generalizing n with
  | nil => rfl
  | cons w r ih =>
    rw [List.zipIdx_cons, List.map_cons, List.map_cons, ih, List.length_cons, List.range'_succ, List.map_cons]

theorem zipIdx_snd (ws : List Word) (va n : Nat) : ((ws.zipIdx n).map (fun x => (va + 4 * x.2, x.1))).map (·.2) = ws := by
  induction ws generalizing n with
  | nil => rfl
  | cons w r ih => rw [List.zipIdx_cons, List.map_cons, List.map_cons, ih]

/-- A piece of words that the device puts into host memory, as one posted write. -/
theorem sysPut_host (hne : ws ≠ []) (h : ∀ k, k < ws.length → (s.engAsk 0 ctx (va + 4 * k) needW 0 false).struck s true 4 = .ok (.host (b + 4 * k))) :
    s.sysPut 0 ctx 0 [(va, ws)] = .ok ((((s.pieceWalked ctx va ws.length).putPlaces (hostPlaces b ws.length) ws).say (.posted b ws)).dropFar 0 ctx []) := by
  have hwords : pieceWords [(va, ws)] = ws.zipIdx.map (fun x => (va + 4 * x.2, x.1)) := by
    unfold pieceWords
    rw [List.flatMap_cons, List.flatMap_nil, List.append_nil]
  have hvas : (pieceWords [(va, ws)]).map (·.1) = (List.range ws.length).map (fun k => va + 4 * k) := by rw [hwords, zipIdx_fst, List.range_eq_range']
  have hhere : ∀ x ∈ pieceWords [(va, ws)], s.travels ctx x.1 = false := fun x hx => by
    have hm : x.1 ∈ (List.range ws.length).map (fun k => va + 4 * k) := hvas ▸ List.mem_map_of_mem hx
    obtain ⟨k, hk, he⟩ := List.mem_map.1 hm
    exact he ▸ travels_of_ask (h k (List.mem_range.1 hk))
  have hnear : (pieceWords [(va, ws)]).filter (fun x => !s.travels ctx x.1) = pieceWords [(va, ws)] := List.filter_eq_self.2 (fun x hx => by rw [hhere x hx]; rfl)
  have hfar : (pieceWords [(va, ws)]).filter (fun x => s.travels ctx x.1) = [] := List.filter_eq_nil_iff.2 (fun x hx => by rw [hhere x hx]; exact Bool.noConfusion)
  have hasks : s.sysAsks 0 ctx 0 needW ((List.range ws.length).map (fun k => va + 4 * k)) = .ok (hostPlaces b ws.length) := by
    refine sysAsks_ok (List.forall₂_map_left_iff.2 (List.forall₂_map_right_iff.2 (List.forall₂_same.2 (fun k hk => h k (List.mem_range.1 hk)))))
  have hplaces : s.sysPlaces 0 ctx 0 needW ((List.range ws.length).map (fun k => va + 4 * k)) = .ok (s.pieceWalked ctx va ws.length, hostPlaces b ws.length) := by
    unfold State.sysPlaces
    dsimp only
    rw [hasks]
    rfl
  have hposted (t : State) : t.posted (hostPlaces b ws.length) ws = (t.putPlaces (hostPlaces b ws.length) ws).say (.posted b ws) := by
    obtain ⟨n, hn⟩ := Nat.exists_eq_succ_of_ne_zero (fun h0 => hne (List.length_eq_zero_iff.1 h0))
    rw [hn, hostPlaces_succ]
    rfl
  have hws : (pieceWords [(va, ws)]).map (·.2) = ws := by rw [hwords, zipIdx_snd]
  have hlen : (hostPlaces b ws.length).length = ws.length := by rw [hostPlaces, List.length_map, List.length_range]
  unfold State.sysPut
  dsimp only
  rw [hnear, hvas, hfar, hplaces]
  dsimp only [List.map_nil, List.foldl_cons, List.foldl_nil]
  rw [hnear, hws, List.take_of_length_le (Nat.le_of_eq hlen), hposted]
  rfl

/-- What a completion record that goes on one write leaves. -/
theorem exec_writeRecord {r : CompletionRec} (hr : s.records = [r]) : exec (.launchComplete 0) s = .next (
    if (s.writeRecord r).2 && !(s.writeRecord r).1.records.isEmpty then (s.writeRecord r).1.post (.launchComplete 0) else (s.writeRecord r).1) := by
  change execLaunchComplete 0 s = _
  unfold execLaunchComplete
  rw [if_pos rfl]
  unfold State.writeRecords
  rw [hr]
  dsimp only [List.foldl_cons, List.foldl_nil]
  rw [Bool.false_or]

theorem writeRecord_first {r : CompletionRec} {t : State} (hb : r.begun = false) (hput : s.sysPut 0 r.ctx 0 [(r.va + 4, r.words.drop 1)] = .ok t) :
    s.writeRecord r = ({ t with records := t.records.filter (fun x => decide (x ≠ r)) ++ [{ r with begun := true }] }, true) := by
  unfold State.writeRecord
  simp only [hb, Bool.false_eq_true, if_false, hput]

theorem writeRecord_last {r : CompletionRec} {t : State} {c : Ctx} (hb : r.begun = true) (hput : s.sysPut 0 r.ctx 0 [(r.va, r.words.take 1)] = .ok t) (hc : s.ctxRec r.ctx = some c) :
    s.writeRecord r = (({ t with records := t.records.filter (fun x => decide (x ≠ r)) } : State).say (.msix c.complex c.vector), true) := by
  unfold State.writeRecord
  simp only [hb, if_true, hput, hc]

/-- What stands once a piece is written in host memory. -/
def State.pieceWritten (s : State) (ctx va b : Nat) (ws : List Word) : State :=
  (((s.pieceWalked ctx va ws.length).putPlaces (hostPlaces b ws.length) ws).say (.posted b ws)).dropFar 0 ctx []

theorem pieceWritten_keeps {β : Type} {pi : State → β} (h : ∀ s t d c ho o f, pi { s with tlb := t, dies := d, cores := c, host := ho, out := o, far := f } = pi s)
    (s : State) (ctx va b : Nat) (ws : List Word) : pi (s.pieceWritten ctx va b ws) = pi s := by
  unfold State.pieceWritten
  refine (h _ _ _ _ _ _ _).trans ((h _ _ _ _ _ _ _).trans ?_)
  rw [putPlaces_keeps (fun t ho => h t t.tlb t.dies t.cores ho t.out t.far)]
  exact pieceWalked_keeps (fun t tl d c => h t tl d c t.host t.out t.far) s ctx va ws.length

theorem pieceWritten_out (s : State) (ctx va b : Nat) (ws : List Word) : (s.pieceWritten ctx va b ws).out = s.out ++ [.posted b ws] := by
  show ((s.pieceWalked ctx va ws.length).putPlaces (hostPlaces b ws.length) ws).out ++ [HostMsg.posted b ws] = _
  rw [putPlaces_keeps (pi := State.out) (fun _ _ => rfl), pieceWalked_keeps (pi := State.out) (fun _ _ _ _ => rfl)]

theorem filter_own (r : CompletionRec) : [r].filter (fun x => decide (x ≠ r)) = [] := List.filter_eq_nil_iff.2 (fun x hx => by simp [List.mem_singleton.1 hx])

theorem record_begins {r : CompletionRec} {a : Nat} (hr : s.records = [r]) (hlen : r.words.length = 8) (hb : r.begun = false)
    (h : ∀ k, k < 7 → (s.engAsk 0 r.ctx (r.va + 4 + 4 * k) needW 0 false).struck s true 4 = .ok (.host (a + 4 + 4 * k))) :
    ∃ u, exec (.launchComplete 0) s = .next u ∧ u.mem = s.mem ∧ u.records = [{ r with begun := true }] ∧ .launchComplete 0 ∈ u.events ∧
      u.out = s.out ++ [.posted (a + 4) (r.words.drop 1)] ∧ ∀ k, k < 7 → u.getN (.host (a + 4 + 4 * k)) 4 = (r.words.getD (k + 1) 0).toNat := by
  have hd : (r.words.drop 1).length = 7 := by rw [List.length_drop, hlen]
  have hput : s.sysPut 0 r.ctx 0 [(r.va + 4, r.words.drop 1)] = .ok (s.pieceWritten r.ctx (r.va + 4) (a + 4) (r.words.drop 1)) :=
    sysPut_host (fun h0 => by rw [h0] at hd; cases hd) (by rw [hd]; exact h)
  have hmem : (s.pieceWritten r.ctx (r.va + 4) (a + 4) (r.words.drop 1)).mem = s.mem := pieceWritten_keeps (fun _ _ _ _ _ _ _ => rfl) s _ _ _ _
  have hrecs : (s.pieceWritten r.ctx (r.va + 4) (a + 4) (r.words.drop 1)).records = s.records := pieceWritten_keeps (fun _ _ _ _ _ _ _ => rfl) s _ _ _ _
  have hout := pieceWritten_out s r.ctx (r.va + 4) (a + 4) (r.words.drop 1)
  have hread : ∀ k, k < 7 → (s.pieceWritten r.ctx (r.va + 4) (a + 4) (r.words.drop 1)).getN (.host (a + 4 + 4 * k)) 4 = ((r.words.drop 1).getD k 0).toNat := fun k hk =>
    putPlaces_reads (s.pieceWalked r.ctx (r.va + 4) (r.words.drop 1).length) (a + 4) (r.words.drop 1) (k := k) (by rw [hd]; exact hk)
  generalize s.pieceWritten r.ctx (r.va + 4) (a + 4) (r.words.drop 1) = t at hput hmem hrecs hout hread
  have he : exec (.launchComplete 0) s = .next (({ t with records := [{ r with begun := true }] } : State).post (.launchComplete 0)) := by
    rw [exec_writeRecord hr, writeRecord_first hb hput, hrecs, hr, filter_own]
    rfl
  refine ⟨_, he, hmem, rfl, List.mem_append_right _ (List.mem_singleton.2 rfl), hout, fun k hk => ?_⟩
  refine Eq.trans (hread k hk) ?_
  rw [List.getD_eq_getElem?_getD, List.getD_eq_getElem?_getD, List.getElem?_drop, Nat.add_comm]

theorem record_ends {r : CompletionRec} {a : Nat} {c : Ctx} (hr : s.records = [r]) (hc : s.ctxRec r.ctx = some c) (hlen : r.words.length = 8) (hb : r.begun = true)
    (h : (s.engAsk 0 r.ctx r.va needW 0 false).struck s true 4 = .ok (.host a)) :
    ∃ u, exec (.launchComplete 0) s = .next u ∧ u.mem = s.mem ∧ u.records = [] ∧
      u.out = s.out ++ [.posted a (r.words.take 1), .msix c.complex c.vector] ∧ u.getN (.host a) 4 = (r.words.getD 0 0).toNat := by
  have hd : (r.words.take 1).length = 1 := by rw [List.length_take, hlen]; rfl
  have hput : s.sysPut 0 r.ctx 0 [(r.va, r.words.take 1)] = .ok (s.pieceWritten r.ctx r.va a (r.words.take 1)) :=
    sysPut_host (fun h0 => by rw [h0] at hd; cases hd) (fun k hk => by rw [hd] at hk; obtain rfl := Nat.lt_one_iff.1 hk; exact h)
  have hmem : (s.pieceWritten r.ctx r.va a (r.words.take 1)).mem = s.mem := pieceWritten_keeps (fun _ _ _ _ _ _ _ => rfl) s _ _ _ _
  have hrecs : (s.pieceWritten r.ctx r.va a (r.words.take 1)).records = s.records := pieceWritten_keeps (fun _ _ _ _ _ _ _ => rfl) s _ _ _ _
  have hout := pieceWritten_out s r.ctx r.va a (r.words.take 1)
  have hread : (s.pieceWritten r.ctx r.va a (r.words.take 1)).getN (.host a) 4 = ((r.words.take 1).getD 0 0).toNat :=
    putPlaces_reads (s.pieceWalked r.ctx r.va (r.words.take 1).length) a (r.words.take 1) (k := 0) (by rw [hd]; decide)
  generalize s.pieceWritten r.ctx r.va a (r.words.take 1) = t at hput hmem hrecs hout hread
  have he : exec (.launchComplete 0) s = .next (({ t with records := [] } : State).say (.msix c.complex c.vector)) := by
    rw [exec_writeRecord hr, writeRecord_last hb hput hc, hrecs, hr, filter_own]
    rfl
  refine ⟨_, he, hmem, rfl, ?_, Eq.trans hread ?_⟩
  · show t.out ++ [HostMsg.msix c.complex c.vector] = _
    rw [hout, List.append_assoc]
    rfl
  · rw [List.getD_eq_getElem?_getD, List.getD_eq_getElem?_getD, List.getElem?_take_of_lt (by decide)]
end

/-! ## Reductions (R356 to R358) -/

section
variable {s : State} {c : Cmd} {va : Nat} {l : Loc}

/-- A word that has a place is read there, with the walk of its page. -/
theorem engWord_walked (ht : s.cmdTrans c va needR = .ok l) : s.engWord c va = (s.engWalk c.die c.ctx va, some (BitVec.ofNat 32 (s.getN l 4))) := by
  unfold State.engWord State.engAt
  simp only [Bool.false_eq_true, if_false]
  rw [ht]

theorem engPut_walked (ht : s.cmdTrans c va needW = .ok l) (w : Word) : s.engPut c va w = ((s.engWalk c.die c.ctx va).putN l w.toNat 4, true) := by
  unfold State.engPut State.engAt
  simp only [if_true]
  rw [ht]

/-- A reduction with its first contribution. -/
def firstPart (g : RGroup) (rtag : Word) (cmd gid : Nat) (shape : Nat × Word × Nat) (ws : List Word) : Reduction :=
  (⟨g.rgrp, rtag, g.ctx, [], none, false, []⟩ : Reduction).count none cmd gid shape ws

theorem firstPart_parts (g : RGroup) (rtag : Word) (cmd gid : Nat) (shape : Nat × Word × Nat) (ws : List Word) : (firstPart g rtag cmd gid shape ws).parts ≠ [] := List.cons_ne_nil _ _

theorem firstPart_cmds (g : RGroup) (rtag : Word) (cmd gid : Nat) (shape : Nat × Word × Nat) (ws : List Word) : (firstPart g rtag cmd gid shape ws).parts.map (·.cmd) = [cmd] := rfl

/-- The first of several contributions is counted. -/
theorem contribute_first {g : RGroup} {rtag : Word} (hn : 1 < g.n) (hfresh : ∀ x ∈ s.reductions, ¬ (x.rgrp = g.rgrp ∧ x.rtag = rtag)) (cmd gid : Nat) (shape : Nat × Word × Nat)
    (ws : List Word) : s.contribute g none cmd gid rtag shape ws = (s.countDie g.rdie.toNat 8 1).putReduction (firstPart g rtag cmd gid shape ws) := by
  have hat : s.reductionAt g.ctx g.rgrp rtag = ⟨g.rgrp, rtag, g.ctx, [], none, false, []⟩ := by
    unfold State.reductionAt
    rw [List.find?_eq_none.2 (fun x hx hp => by
      rw [Bool.and_eq_true, beq_iff_eq, beq_iff_eq] at hp
      exact hfresh x hx hp)]
    rfl
  unfold State.contribute
  rw [hat]
  refine (if_neg (show ¬ (firstPart g rtag cmd gid shape ws).failed = true from Bool.noConfusion)).trans ?_
  exact if_neg (show ¬ g.n ≤ 1 from Nat.not_le.2 hn)

theorem putReduction_at (r : Reduction) (ctx : Nat) (h : r.parts ≠ []) : (s.putReduction r).reductionAt ctx r.rgrp r.rtag = r := by
  have hkeep : (if r.parts.isEmpty && r.rounds.isEmpty then [] else [r]) = [r] := by
    rw [if_neg]
    rw [List.isEmpty_eq_false_iff.2 h]
    exact Bool.noConfusion
  unfold State.reductionAt State.putReduction
  rw [hkeep, List.find?_append, List.find?_eq_none.2 (fun x hx hp => by
    have hne := (List.mem_filter.1 hx).2
    rw [hp] at hne
    exact Bool.noConfusion hne), List.find?_cons_of_pos (by simp)]
  rfl

/-- The state in which a command's one word has been read. -/
def State.partRead (s : State) (c : Cmd) (w : Word) : State :=
  (s.engWalk c.die c.ctx (vaPair (c.w 0) (c.w 1))).modCmd c.id (fun x => { x with buf := x.buf ++ [w], peer := none })

/-- The command with its contribution. -/
def Cmd.withPart (c : Cmd) (w : Word) : Cmd := { c with buf := [w], peer := none }

theorem partRead_cmd (hc : s.cmd? c.id = some c) (hbuf : c.buf = []) (w : Word) : (s.partRead c w).cmd? c.id = some (c.withPart w) := by
  have hcmds : (s.engWalk c.die c.ctx (vaPair (c.w 0) (c.w 1))).cmds = s.cmds := engWalk_keeps (pi := State.cmds) (fun _ _ _ _ => rfl) s _ _ _
  refine (cmd?_modCmd _ c.id (fun x => { x with buf := x.buf ++ [w], peer := none }) (fun _ => rfl)).trans ?_
  rw [cmd?_congr hcmds, hc, Option.map_some]
  unfold Cmd.withPart
  rw [hbuf]
  rfl

theorem partRead_keeps {β : Type} {pi : State → β} (h : ∀ s t d co cm, pi { s with tlb := t, dies := d, cores := co, cmds := cm } = pi s) (s : State) (c : Cmd) (w : Word) :
    pi (s.partRead c w) = pi s :=
  (h _ _ _ _ _).trans (engWalk_keeps (fun t tl d co => h t tl d co t.cmds) s _ _ _)

theorem credRead_succ {d : Cmd} {id : Nat} (h : s.cmd? id = some d) (k : Nat) (g : RGroup) : s.credRead id (k + 1) g =
    if d.credBytes / 4 ≤ d.buf.length then s.contributeCmd d g
    else match s.engWord d (vaPair (d.w 0) (d.w 1) + 4 * d.buf.length) with
      | (t, some w) => (t.modCmd id (fun x => { x with buf := x.buf ++ [w], peer := none })).credRead id k g
      | (t, none) => t := by
  rw [State.credRead.eq_def]
  simp only [h] <;> rfl

theorem credWrite_succ {d : Cmd} {id : Nat} (h : s.cmd? id = some d) (k : Nat) : s.credWrite id (k + 1) =
    match d.buf[d.progress]? with
    | none => s.endCmd id
    | some w =>
      if (s.engPut d (vaPair (d.w 2) (d.w 3) + 4 * d.progress) w).2 then
        ((s.engPut d (vaPair (d.w 2) (d.w 3) + 4 * d.progress) w).1.modCmd id (fun x => { x with progress := x.progress + 1, peer := none })).credWrite id k
      else (s.engPut d (vaPair (d.w 2) (d.w 3) + 4 * d.progress) w).1 := by
  rw [State.credWrite.eq_def]
  simp only [h] <;> rfl

theorem withPart_bytes (c : Cmd) (w : Word) : (c.withPart w).credBytes = c.credBytes := rfl

theorem exec_contribution {fn pa : Nat} {g : RGroup} (hc : s.cmd? c.id = some c) (hk : c.kind = .cred fn) (hst : c.state = .accepted) (harg : c.arg = 0) (hbuf : c.buf = [])
    (hbytes : c.credBytes = 4) (hg : s.rgroups.find? (fun x => x.rgrp == c.w 6 && x.ctx == c.ctx) = some g) (hlim : g.n ≤ credLimit (c.w 5))
    (ht : s.cmdTrans c (vaPair (c.w 0) (c.w 1)) needR = .ok (.dev pa)) :
    exec (.credContributionArrival c.id) s = .next ((s.partRead c (BitVec.ofNat 32 (s.getN (.dev pa) 4))).contributeCmd (c.withPart (BitVec.ofNat 32 (s.getN (.dev pa) 4))) g) := by
  have hword : s.engWord c (vaPair (c.w 0) (c.w 1) + 4 * c.buf.length) = (s.engWalk c.die c.ctx (vaPair (c.w 0) (c.w 1)), some (BitVec.ofNat 32 (s.getN (.dev pa) 4))) := by
    rw [hbuf, List.length_nil, Nat.mul_zero, Nat.add_zero]
    exact engWord_walked ht
  have hlast : (s.partRead c (BitVec.ofNat 32 (s.getN (.dev pa) 4))).credRead c.id 1 g =
      (s.partRead c (BitVec.ofNat 32 (s.getN (.dev pa) 4))).contributeCmd (c.withPart (BitVec.ofNat 32 (s.getN (.dev pa) 4))) g := by
    rw [credRead_succ (partRead_cmd hc hbuf _) 0, withPart_bytes, hbytes]
    exact if_pos (Nat.le_refl 1)
  change execCredContributionArrival c.id s = _
  unfold execCredContributionArrival
  rw [hc]
  dsimp only
  rw [if_neg (fun h => h hst), if_neg (by rw [harg]; decide), hg]
  dsimp only
  rw [if_neg (Nat.not_lt.2 hlim), hbytes]
  rw [credRead_succ hc (4 / 4), if_neg (by rw [hbytes, hbuf]; decide), hword]
  exact congrArg _ hlast

theorem contributeCmd_here {g : RGroup} (hd : g.rdev = s.dev.id) (d : Cmd) : s.contributeCmd d g =
    (s.modCmd d.id (fun x => { x with state := .waiting })).contribute g none d.id d.gid (d.w 7) d.credShape d.buf := if_pos hd

theorem contributeCmd_far {g : RGroup} (hd : g.rdev ≠ s.dev.id) (d : Cmd) : s.contributeCmd d g = (s.modCmd d.id (fun x => { x with state := .waiting })).say
    (.contribution g.rdev d.id d.gid d.ctx (d.w 6) (d.w 7) d.credShape.1 (d.w 4) (d.w 5) d.buf) := if_neg hd

theorem counted_sameMem (s : State) (die n : Nat) (r : Reduction) : ((s.countDie die n 1).putReduction r).sameMem s := ⟨rfl, rfl⟩

theorem counted_cmd? (s : State) (die n : Nat) (r : Reduction) (id : Nat) : ((s.countDie die n 1).putReduction r).cmd? id = s.cmd? id := rfl

theorem modCmd_sameMem (s : State) (id : Nat) (f : Cmd → Cmd) : (s.modCmd id f).sameMem s := ⟨rfl, rfl⟩

/-- The first contribution of a reduction, at the device that holds the group: it is counted there and its command waits. -/
theorem contributed_here {v : State} {g : RGroup} {d : Cmd} (hd : g.rdev = v.dev.id) (hn : 1 < g.n) (hfresh : ∀ x ∈ v.reductions, ¬ (x.rgrp = g.rgrp ∧ x.rtag = d.w 7)) :
    (v.contributeCmd d g).sameMem v ∧ (v.contributeCmd d g).cmd? d.id = (v.modCmd d.id (fun x => { x with state := .waiting })).cmd? d.id ∧
      ((v.contributeCmd d g).reductionAt g.ctx g.rgrp (d.w 7)).parts.map (·.cmd) = [d.id] := by
  have hcon : v.contributeCmd d g = ((v.modCmd d.id (fun x => { x with state := .waiting })).countDie g.rdie.toNat 8 1).putReduction
      (firstPart g (d.w 7) d.id d.gid d.credShape d.buf) :=
    (contributeCmd_here hd d).trans (contribute_first (s := v.modCmd d.id (fun x => { x with state := .waiting })) hn hfresh _ _ _ _)
  have hat := putReduction_at (s := (v.modCmd d.id (fun x => { x with state := .waiting })).countDie g.rdie.toNat 8 1) (firstPart g (d.w 7) d.id d.gid d.credShape d.buf) g.ctx
    (firstPart_parts g (d.w 7) d.id d.gid d.credShape d.buf)
  rw [hcon]
  refine ⟨sameMem_trans _ _ v (counted_sameMem _ _ _ _) (modCmd_sameMem _ _ _), counted_cmd? _ _ _ _ _, ?_⟩
  exact (congrArg (fun r : Reduction => r.parts.map (·.cmd)) hat).trans (firstPart_cmds g (d.w 7) d.id d.gid d.credShape d.buf)

/-- A contribution to a group that another device holds: it is sent there and its command waits. -/
theorem contributed_far {v : State} {g : RGroup} {d : Cmd} (hd : g.rdev ≠ v.dev.id) :
    (v.contributeCmd d g).sameMem v ∧ (v.contributeCmd d g).cmd? d.id = (v.modCmd d.id (fun x => { x with state := .waiting })).cmd? d.id ∧
      .contribution g.rdev d.id d.gid d.ctx (d.w 6) (d.w 7) d.credShape.1 (d.w 4) (d.w 5) d.buf ∈ (v.contributeCmd d g).out := by
  rw [contributeCmd_far hd]
  exact ⟨modCmd_sameMem v d.id (fun x => { x with state := .waiting }), rfl, List.mem_append_right _ (List.mem_singleton.2 rfl)⟩

theorem contribution_counts {fn pa : Nat} {g : RGroup} (hc : s.cmd? c.id = some c) (hk : c.kind = .cred fn) (hst : c.state = .accepted) (harg : c.arg = 0) (hbuf : c.buf = [])
    (hbytes : c.credBytes = 4) (hg : s.rgroups.find? (fun x => x.rgrp == c.w 6 && x.ctx == c.ctx) = some g) (hlim : g.n ≤ credLimit (c.w 5)) (hn : 1 < g.n)
    (hfresh : ∀ x ∈ s.reductions, ¬ (x.rgrp = c.w 6 ∧ x.rtag = c.w 7)) (ht : s.cmdTrans c (vaPair (c.w 0) (c.w 1)) needR = .ok (.dev pa)) :
    ∃ u x, exec (.credContributionArrival c.id) s = .next u ∧ u.sameMem s ∧ u.cmd? c.id = some x ∧ x.state = .waiting ∧ x.buf = [BitVec.ofNat 32 (s.getN (.dev pa) 4)] ∧
      (g.rdev = s.dev.id → (u.reductionAt g.ctx (c.w 6) (c.w 7)).parts.map (·.cmd) = [c.id]) ∧
      (g.rdev ≠ s.dev.id → .contribution g.rdev c.id c.gid c.ctx (c.w 6) (c.w 7) fn (c.w 4) (c.w 5) x.buf ∈ u.out) := by
  have he := exec_contribution hc hk hst harg hbuf hbytes hg hlim ht
  generalize BitVec.ofNat 32 (s.getN (.dev pa) 4) = w at he
  have hrgrp : g.rgrp = c.w 6 := by
    have hp := List.find?_some hg
    rw [Bool.and_eq_true, beq_iff_eq] at hp
    exact hp.1
  have hfn : (c.withPart w).credShape.1 = fn := by
    unfold Cmd.credShape
    rw [show (c.withPart w).kind = .cred fn from hk]
  have hdev : (s.partRead c w).dev = s.dev := partRead_keeps (pi := State.dev) (fun _ _ _ _ _ => rfl) s c w
  have hreds : (s.partRead c w).reductions = s.reductions := partRead_keeps (pi := State.reductions) (fun _ _ _ _ _ => rfl) s c w
  have hmem : (s.partRead c w).sameMem s := ⟨partRead_keeps (pi := State.mem) (fun _ _ _ _ _ => rfl) s c w, partRead_keeps (pi := State.host) (fun _ _ _ _ _ => rfl) s c w⟩
  have hcmd := partRead_cmd hc hbuf w
  generalize s.partRead c w = v at he hdev hreds hmem hcmd
  have hwait : (v.modCmd c.id (fun x => { x with state := .waiting })).cmd? c.id = some { c.withPart w with state := .waiting } := by
    rw [cmd?_modCmd _ c.id (fun x => { x with state := .waiting }) (fun _ => rfl), hcmd]
    rfl
  by_cases hd : g.rdev = s.dev.id
  · obtain ⟨hm, hx, hparts⟩ := contributed_here (v := v) (d := c.withPart w) (by rw [hdev]; exact hd) hn (by rw [hreds, hrgrp]; exact hfresh)
    rw [hrgrp] at hparts
    exact ⟨_, { c.withPart w with state := .waiting }, he, sameMem_trans _ _ s hm hmem, hx.trans hwait, rfl, rfl, fun _ => hparts, fun h => absurd hd h⟩
  · obtain ⟨hm, hx, hout⟩ := contributed_far (v := v) (d := c.withPart w) (by rw [hdev]; exact hd)
    rw [hfn] at hout
    exact ⟨_, { c.withPart w with state := .waiting }, he, sameMem_trans _ _ s hm hmem, hx.trans hwait, rfl, rfl, fun h => absurd h hd, fun _ => hout⟩

/-- The result of one word is written to the command's destination, which ends it. -/
theorem contribution_writes {fn pa : Nat} {w : Word} (hc : s.cmd? c.id = some c) (hk : c.kind = .cred fn) (hst : c.state = .accepted) (harg : c.arg = 1) (hbuf : c.buf = [w])
    (hprog : c.progress = 0) (ht : s.cmdTrans c (vaPair (c.w 2) (c.w 3)) needW = .ok (.dev pa)) (hpa : pa + 4 ≤ Config.hbmBytes) :
    ∃ u, exec (.credContributionArrival c.id) s = .next u ∧ u.ended c.id ∧ u.getN (.dev pa) 4 = w.toNat ∧
      ∀ l : Loc, l.plain 1 → ¬ l.among (.dev pa) 4 → u.byteAt l = s.byteAt l := by
  let v := ((s.engWalk c.die c.ctx (vaPair (c.w 2) (c.w 3))).putN (.dev pa) w.toNat 4).modCmd c.id (fun x => { x with progress := x.progress + 1, peer := none })
  have hplain : (Loc.dev pa).plain 4 := hpa
  have hwalkmem : (s.engWalk c.die c.ctx (vaPair (c.w 2) (c.w 3))).sameMem s :=
    ⟨engWalk_keeps (pi := State.mem) (fun _ _ _ _ => rfl) s _ _ _, engWalk_keeps (pi := State.host) (fun _ _ _ _ => rfl) s _ _ _⟩
  have hcmds : ((s.engWalk c.die c.ctx (vaPair (c.w 2) (c.w 3))).putN (.dev pa) w.toNat 4).cmds = s.cmds :=
    (putN_plain_keeps State.cmds (fun _ _ _ => rfl) _ hplain _).trans (engWalk_keeps (pi := State.cmds) (fun _ _ _ _ => rfl) s _ _ _)
  have hcmd : v.cmd? c.id = some { c with progress := 1, peer := none } := by
    refine (cmd?_modCmd _ c.id (fun x => { x with progress := x.progress + 1, peer := none }) (fun _ => rfl)).trans ?_
    rw [cmd?_congr hcmds, hc, Option.map_some, hprog]
  have hput : s.engPut c (vaPair (c.w 2) (c.w 3) + 4 * c.progress) w = ((s.engWalk c.die c.ctx (vaPair (c.w 2) (c.w 3))).putN (.dev pa) w.toNat 4, true) := by
    rw [hprog, Nat.mul_zero, Nat.add_zero]
    exact engPut_walked ht w
  have hlast : v.credWrite c.id 1 = v.endCmd c.id := by
    rw [credWrite_succ hcmd 0]
    dsimp only
    rw [hbuf]
    rfl
  have he : exec (.credContributionArrival c.id) s = .next (v.endCmd c.id) := by
    change execCredContributionArrival c.id s = _
    unfold execCredContributionArrival
    rw [hc]
    dsimp only
    rw [if_neg (fun h => h hst), if_pos harg, hbuf]
    rw [credWrite_succ hc [w].length, show c.buf[c.progress]? = some w by rw [hprog, hbuf]; rfl]
    dsimp only
    rw [hput]
    exact congrArg _ hlast
  obtain ⟨hm, hh⟩ := endCmd_sameMem v c.id
  have hputmem := byteAt_putN (s.engWalk c.die c.ctx (vaPair (c.w 2) (c.w 3))) (.dev pa) w.toNat 4 hplain
  refine ⟨_, he, endCmd_ended v c.id, ?_, fun l hl ho => ?_⟩
  · refine (getN_plain_congr hplain hm hh).trans ((getN_putN _ (.dev pa) w.toNat 4 hplain).trans ?_)
    exact Nat.mod_eq_of_lt w.isLt
  · refine (byteAt_plain_congr hl hm hh).trans ((hputmem.2 l hl ho).trans ?_)
    exact byteAt_plain_congr hl hwalkmem.1 hwalkmem.2
end

/-- Settles O56: the end of a group, of a launch and of its completion record, and of a reduction, each by its own lemma. -/
theorem launchEnds : Obligations.LaunchEnds := fun _ =>
  ⟨fun _ hg _ ha hu hs hat hc hp => groupEnd_ends hg ha hu hs hat hc hp, fun _ _ hk hl hc he hn hd hs => launchComplete_ends hk hl hc he hn hd hs,
    fun _ _ _ hr hc hlen => ⟨fun hb h => record_begins hr hlen hb h, fun hb h => record_ends hr hc hlen hb h⟩,
    fun _ _ _ _ hc hk hst harg hbuf hb hg hlim hn hf ht => contribution_counts hc hk hst harg hbuf hb hg hlim hn hf ht,
    fun _ _ _ _ hc hk hst harg hbuf hp ht hpa => contribution_writes hc hk hst harg hbuf hp ht hpa⟩

end Sys2Proof.Machine
end

section
/-!
The walker instructions, invalidations and the answers from outside: O57.
-/
namespace Sys2Proof.Machine

/-! ## Completed walks (R327) -/

/-- A view of the state that sees neither whether a stream waits, nor the commands, the events, the dies, nor what a unit's save waits for. -/
structure WalkBlind {β : Type} (pi : State → β) : Prop where
  cmdsBlind : OverBlind pi
  saves : ∀ s f v, pi { s.mapUnits f with saved := v } = pi s
  dies : ∀ s d, pi { s with dies := d } = pi s

section
variable {β : Type} {pi : State → β}

theorem resumeCmd_keeps (hc : ∀ s x, pi { s with cmds := x } = pi s) (he : ∀ s ev, pi { s with events := ev } = pi s) (s : State) (id : Nat) : pi (s.resumeCmd id) = pi s := by
  have hboth (t : State) (x : List Cmd) (ev : List Instr) : pi { t with cmds := x, events := ev } = pi t := (he { t with cmds := x } ev).trans (hc t x)
  unfold State.resumeCmd
  split
  · rfl
  · refine ite_keeps rfl ?_
    dsimp only
    split <;> exact hboth s _ _

theorem walkRetry_keeps (h : OverBlind pi) (hs : ∀ s f v, pi { s.mapUnits f with saved := v } = pi s) (s : State) (r : WalkReq) (who : List Nat) : pi (s.walkRetry r who) = pi s := by
  have hparked (t : State) (x : Stream) : pi (t.post (.handlerEntryResume x.sid)) = pi t := h.events t _
  have hentry (t : State) (i : Nat) : pi (t.post (.entrySegmentFetch i)) = pi t := h.events t _
  have hgroup (t : State) (i : Nat) : pi (t.post (.groupEnd i)) = pi t := h.events t _
  have hsave (t : State) : pi (t.resumeSaves r.ctx r.page) = pi t := hs t _ _
  have hlast (t : State) : pi ((t.post (.launchFire r.ctx)).post (.launchComplete 0)) = pi t := (h.events _ _).trans (h.events t _)
  unfold State.walkRetry
  dsimp only
  rw [apply_ite pi, hlast, ite_self, foldl_keeps pi hgroup, foldl_keeps pi hentry, wake_dozes h.streams, foldl_keeps pi (resumeCmd_keeps h.cmds h.events), hsave,
    foldl_keeps pi hparked]

theorem completeWalks_keeps (h : WalkBlind pi) (s : State) (die : Nat) (p : WalkReq → Bool) (status : Nat) : pi (s.completeWalks die p status) = pi s := by
  have hone (w : State) (t : State) (r : WalkReq) : pi (t.walkRetry r (w.walkWaiters r)) = pi t := walkRetry_keeps h.cmdsBlind h.saves t r _
  exact (foldl_keeps pi (hone s) _ _).trans ((h.dies _ _).trans (h.dies s _))
end

section
variable {s : State}

theorem dieRec_modDie_eq (s : State) (d : Nat) (f : DieRec → DieRec) (hf : ∀ x, (f x).die = x.die) (h : s.dies.find? (fun x => x.die == d) ≠ none) :
    (s.modDie d f).dieRec d = f (s.dieRec d) := by
  obtain ⟨r, hr⟩ := Option.ne_none_iff_exists'.1 h
  rw [dieRec_modDie s d f hf r hr]
  unfold State.dieRec
  rw [hr]
  rfl

theorem dieRec_none {d : Nat} (h : s.dies.find? (fun x => x.die == d) = none) : (s.dieRec d).walks = [] := by
  unfold State.dieRec
  rw [h]
  rfl

theorem find?_modDie_none {d : Nat} (f : DieRec → DieRec) (hf : ∀ x, (f x).die = x.die) (h : s.dies.find? (fun x => x.die == d) = none) :
    (s.modDie d f).dies.find? (fun x => x.die == d) = none := by
  refine List.find?_eq_none.2 (fun x hx hp => ?_)
  obtain ⟨y, hy, rfl⟩ := List.mem_map.1 hx
  have hne := List.find?_eq_none.1 h y hy
  split at hp
  · rw [hf] at hp
    exact hne hp
  · exact hne hp

/-- The requests of a die after a change to its record. -/
theorem walks_modDie (s : State) (d : Nat) (f : DieRec → DieRec) (g : List WalkReq → List WalkReq) (hf : ∀ x, (f x).die = x.die) (hg : ∀ x, (f x).walks = g x.walks) (hn : g [] = []) :
    ((s.modDie d f).dieRec d).walks = g (s.dieRec d).walks := by
  cases h : s.dies.find? (fun x => x.die == d) with
  | none => rw [dieRec_none h, dieRec_none (find?_modDie_none f hf h), hn]
  | some r => rw [dieRec_modDie_eq s d f hf (by rw [h]; exact Option.some_ne_none r), hg]

theorem walks_modWalk (s : State) (d : Nat) (tag : BitVec 16) (f : WalkReq → WalkReq) :
    ((s.modWalk d tag f).dieRec d).walks = (s.dieRec d).walks.map (fun r => if r.tag = tag then f r else r) :=
  walks_modDie s d (fun x => { x with walks := x.walks.map (fun r => if r.tag = tag then f r else r) }) (fun l : List WalkReq => l.map (fun r : WalkReq => if r.tag = tag then f r else r))
    (fun _ => rfl) (fun _ => rfl) rfl

theorem walks_countDie (s : State) (d src n : Nat) : ((s.countDie d src n).dieRec d).walks = (s.dieRec d).walks :=
  walks_modDie s d (fun x => { x with ecnt := bump src n x.ecsel x.ecnt }) (fun l => l) (fun _ => rfl) (fun _ => rfl) rfl

theorem walks_completeWalks (s : State) (d : Nat) (p : WalkReq → Bool) (status : Nat) : ((s.completeWalks d p status).dieRec d).walks = (s.dieRec d).walks.filter (fun r => !p r) := by
  have hone (w : State) (t : State) (r : WalkReq) : (t.walkRetry r (w.walkWaiters r)).dies = t.dies :=
    walkRetry_keeps (pi := State.dies) ⟨fun _ _ _ => rfl, fun _ _ => rfl, fun _ _ => rfl⟩ (fun _ _ _ => rfl) t r _
  have hdies (t u : State) (h : t.dies = u.dies) : t.dieRec d = u.dieRec d := by unfold State.dieRec; rw [h]
  unfold State.completeWalks
  dsimp only
  rw [hdies _ _ (foldl_keeps State.dies (hone s) _ _)]
  rw [walks_countDie]
  exact walks_modDie s d _ (fun l => l.filter (fun r => !p r)) (fun _ => rfl) (fun _ => rfl) rfl

theorem completeWalks_gone (s : State) (die st : Nat) (tag : BitVec 16) : ∀ x ∈ ((s.completeWalks die (fun x => x.tag == tag) st).dieRec die).walks, x.tag ≠ tag := by
  intro x hx h
  rw [walks_completeWalks] at hx
  have hp := (List.mem_filter.1 hx).2
  rw [h, beq_self_eq_true] at hp
  exact Bool.noConfusion hp

theorem walkBlind_mem : WalkBlind (fun s => (s.mem, s.host)) := ⟨⟨fun _ _ _ => rfl, fun _ _ => rfl, fun _ _ => rfl⟩, fun _ _ _ => rfl, fun _ _ => rfl⟩

theorem completeWalks_sameMem (s : State) (die : Nat) (p : WalkReq → Bool) (st : Nat) : (s.completeWalks die p st).sameMem s :=
  Prod.mk.inj (completeWalks_keeps walkBlind_mem s die p st)
end

/-! ## TLBFILL (R326) -/

section
variable {s : State}

theorem fillWalk_keeps {β : Type} {pi : State → β} (h : ∀ s t d, pi { s with tlb := t, dies := d } = pi s) (s : State) (die : Nat) (tag : BitVec 16) (e : Nat) (form : Word) :
    pi (s.fillWalk die tag e form) = pi s := by
  have hput (t : State) (x : TlbEntry) : pi (t.tlbPut x) = pi t := h t _ t.dies
  unfold State.fillWalk
  split
  · rfl
  · split
    · rfl
    · split
      · exact foldl_keeps pi hput _ s
      · exact h s s.tlb _

theorem fillWalk_stale {die e : Nat} {tag : BitVec 16} {form : Word} {r : WalkReq} (hr : (s.dieRec die).walks.find? (fun x => x.tag == tag) = some r) (hs : r.stale = true) :
    s.fillWalk die tag e form = s := by
  unfold State.fillWalk
  rw [hr]
  exact if_pos hs

theorem fillWalk_filled {die e : Nat} {tag : BitVec 16} {form : Word} {r : WalkReq} {es : List TlbEntry} (hr : (s.dieRec die).walks.find? (fun x => x.tag == tag) = some r)
    (hs : r.stale = false) (hf : r.filled (s.keyOf r.ctx true) e form = some es) : s.fillWalk die tag e form = es.foldl State.tlbPut s := by
  unfold State.fillWalk
  rw [hr]
  dsimp only
  rw [if_neg (by rw [hs]; exact Bool.noConfusion), hf]

theorem leafOf_page {os : Bool} {e : Nat} (h6 : e.testBit 6 = false) (hf : pteFrame e < Config.hbmBytes) :
    leafOf os e 4096 = .page (pteFrame e) 4096 (ptePerms e) false (e.testBit 7) (e.testBit 8) := by
  have hframe : frameOk os (pteFrame e) = true := by
    unfold frameOk
    rw [decide_eq_true hf, Bool.true_or]
  have halign : ¬ pteFrame e % 4096 ≠ 0 := by
    unfold pteFrame
    omega
  unfold leafOf
  rw [if_neg halign, if_neg (by rw [h6]; exact Bool.noConfusion), if_pos hframe]

/-- TLBFILL of a present 4 KiB page of this device. -/
theorem filled_page {r : WalkReq} {e : Nat} (h0 : e.testBit 0 = true) (h5 : e.testBit 5 = false) (h6 : e.testBit 6 = false) (hf : pteFrame e < Config.hbmBytes) (key : Option Nat) :
    r.filled key e 0 = some (r.cores.map (fun core => ⟨core, r.ctx, 0, 4096 * r.page, 4096, devLoc (if e.testBit 8 then key else none) (pteFrame e), ptePerms e⟩)) := by
  have hva : 4096 * r.page / 4096 * 4096 = 4096 * r.page := by omega
  unfold WalkReq.filled
  have hform : ¬ (0 : Word).getLsbD 2 = true := by decide
  have hsize : 2 ^ (12 + 9 * 0) = 4096 := by decide
  have hlevel : (0 : Word).toNat % 4 = 0 := by decide
  simp only [hform, Bool.false_eq_true, if_false, h0, h5, hlevel, Bool.and_false, hsize, leafOf_page h6 hf, hva]
  rfl

theorem filled_absent {r : WalkReq} {e : Nat} {form : Word} (h0 : e.testBit 0 = false) (h2 : form.getLsbD 2 = false) (key : Option Nat) : r.filled key e form = none := by
  unfold WalkReq.filled
  simp only [h2, h0]
  rfl

theorem filled_misplaced {r : WalkReq} {e : Nat} (h5 : e.testBit 5 = true) (hf : pteFrame e / 4096 % 16 ≠ 0) (key : Option Nat) : r.filled key e 0 = none := by
  unfold WalkReq.filled
  have hform : ¬ (0 : Word).getLsbD 2 = true := by decide
  have hlevel : (0 : Word).toNat % 4 = 0 := by decide
  simp only [hform, Bool.false_eq_true, if_false, h5, hlevel, decide_true, Bool.and_self, Bool.true_and, decide_eq_true hf, Bool.or_true, if_true]
end

/-! ## The walker instructions (R325 to R328) -/

section
variable {s : State} {n : Nat} {g : BitVec 4} {a b d : BitVec 6} {i : Instr} {quads : Bool} {fields : List Nat} {f : State → Nat → Verdict}

theorem walker_skips (hk : s.st.kind = .walker n) (hq : quads = true) (hg : s.uniGuard g = false) : s.walker g quads fields f = .next s := by
  unfold State.walker Stream.walkerSlot
  rw [hk, hq, hg]
  rfl

theorem walker_runs (hk : s.st.kind = .walker n) (hq : quads = true) (hg : s.uniGuard g = true) (hb : s.beyondIn s.st.exm fields = 0) : s.walker g quads fields f = f s n := by
  unfold State.walker Stream.walkerSlot
  rw [hk, hq, hg, hb]
  rfl

theorem retires_walker_skipped (he : exec i s = s.run (s.walker g quads fields f)) (hgo : s.goesOn = true) (hk : s.st.kind = .walker n) (hq : quads = true)
    (hg : s.uniGuard g = false) : Retires i s s false :=
  retires_noop (he.trans (congrArg s.run (walker_skips hk hq hg))) hgo

/-- What a walker instruction that goes on with the effect u does. -/
theorem retires_walker {u : State} (he : exec i s = s.run (s.walker g quads fields f)) (hgo : s.goesOn = true) (hk : s.st.kind = .walker n) (hq : quads = true)
    (hg : s.uniGuard g = true) (hb : s.beyondIn s.st.exm fields = 0) (hf : f s n = .next u) (hu : u.standsAs s) : Retires i s u false :=
  retires_run (he.trans (congrArg s.run ((walker_runs hk hq hg hb).trans hf))) (goesOn_landed s hgo) hu.2 (hu.1.trans hgo)

theorem exec_walker_held {u : State} (he : exec i s = s.run (s.walker g quads fields f)) (hgo : s.goesOn = true) (hk : s.st.kind = .walker n) (hq : quads = true)
    (hg : s.uniGuard g = true) (hb : s.beyondIn s.st.exm fields = 0) (hf : f s n = .hold u) : exec i s = .next u := by
  rw [he, walker_runs hk hq hg hb, hf]
  exact run_hold s u (goesOn_landed s hgo)

/-- The requests that a WALKNEXT takes. -/
def State.openWalks (s : State) : List WalkReq := ((s.dieRec s.gr.die).walks.filter (fun r => r.taken.isNone)).take s.st.exm.lanes.length

/-- What a WALKNEXT that finds requests does. -/
def State.walksTaken (s : State) (n : Nat) (d a : BitVec 6) : State :=
  let t := s.modDie s.gr.die (fun x => { x with walks := x.walks.map (fun r => if (s.openWalks.map (·.tag)).contains r.tag then { r with taken := some n } else r) })
  (t.mapLanes s.st.exm (fun l x => x.setRegs s.gr.allot a.toNat (((s.openWalks[s.st.exm.lanes.idxOf l]?).map WalkReq.words).getD (List.replicate 4 0)))).setSreg d.toNat
    (BitVec.ofNat 32 s.openWalks.length)

theorem walksTaken_walks (s : State) (n : Nat) (d a : BitVec 6) : ((s.walksTaken n d a).dieRec s.gr.die).walks =
    (s.dieRec s.gr.die).walks.map (fun r => if (s.openWalks.map (·.tag)).contains r.tag then { r with taken := some n } else r) := by
  have hset (t : State) (k : Nat) (v : Word) : (t.setSreg k v).dieRec s.gr.die = t.dieRec s.gr.die := by
    unfold State.setSreg
    split <;> rfl
  unfold State.walksTaken
  dsimp only
  rw [hset]
  exact walks_modDie s s.gr.die (fun x => { x with walks := x.walks.map (fun r => if (s.openWalks.map (·.tag)).contains r.tag then { r with taken := some n } else r) })
    (fun l : List WalkReq => l.map (fun r : WalkReq => if (s.openWalks.map (·.tag)).contains r.tag then { r with taken := some n } else r)) (fun _ => rfl) (fun _ => rfl) rfl

theorem walknext_takes (hgo : s.goesOn = true) (hk : s.st.kind = .walker n) (hq : isQuad a.toNat = true) (hg : s.uniGuard g = true)
    (hb : s.beyondIn s.st.exm (quadFields a) = 0) (hne : s.openWalks ≠ []) :
    ∃ u, exec (.walknext g d a) s = .next u ∧ u.sameMem s ∧ u.st.pc = s.st.pc + 4 ∧ u.st.sregs = (s.setSreg d.toNat (BitVec.ofNat 32 s.openWalks.length)).st.sregs ∧
      (∀ r ∈ (u.dieRec s.gr.die).walks, r.tag ∈ s.openWalks.map (·.tag) → r.taken = some n) ∧
      u.gr.lanes = (s.mapLanes s.st.exm (fun l x => x.setRegs s.gr.allot a.toNat (((s.openWalks[s.st.exm.lanes.idxOf l]?).map WalkReq.words).getD (List.replicate 4 0)))).gr.lanes := by
  have hempty : ¬ s.openWalks.isEmpty = true := fun h => hne (List.isEmpty_iff.1 h)
  have hstands : (s.walksTaken n d a).standsAs s := standsAs_setSreg _ _ _
  have hret : Retires (.walknext g d a) s (s.walksTaken n d a) false :=
    retires_walker rfl hgo hk hq hg hb (if_neg hempty) hstands
  have hst (t : State) (k : Nat) (v : Word) : (t.setSreg k v).mem = t.mem ∧ (t.setSreg k v).host = t.host ∧ (t.setSreg k v).st.pc = t.st.pc ∧ (t.setSreg k v).gr = t.gr := by
    unfold State.setSreg
    split <;> exact ⟨rfl, rfl, rfl, rfl⟩
  have hsregs (t : State) (k : Nat) (v : Word) (h : t.st = s.st) : (t.setSreg k v).st.sregs = (s.setSreg k v).st.sregs := by
    unfold State.setSreg
    split
    · rw [← h]
    · rw [h]
  obtain ⟨hmem, hhost, hpc, hgr⟩ := hst ((s.modDie s.gr.die (fun x => { x with walks := x.walks.map (fun r =>
    if (s.openWalks.map (·.tag)).contains r.tag then { r with taken := some n } else r) })).mapLanes s.st.exm (fun l x =>
      x.setRegs s.gr.allot a.toNat (((s.openWalks[s.st.exm.lanes.idxOf l]?).map WalkReq.words).getD (List.replicate 4 0)))) d.toNat (BitVec.ofNat 32 s.openWalks.length)
  refine ⟨_, hret, ⟨hmem, hhost⟩, congrArg (· + 4) hpc, hsregs _ _ _ rfl, ?_, congrArg Group.lanes hgr⟩
  intro r hr htag
  have hw : r ∈ ((s.walksTaken n d a).dieRec s.gr.die).walks := hr
  rw [walksTaken_walks] at hw
  obtain ⟨x, -, rfl⟩ := List.mem_map.1 hw
  split at htag
  · next hc => rw [if_pos hc]
  · next hc => exact absurd (List.contains_iff_mem.2 htag) hc

theorem exec_walknext_idle (hgo : s.goesOn = true) (hk : s.st.kind = .walker n) (hq : isQuad a.toNat = true) (hg : s.uniGuard g = true)
    (hb : s.beyondIn s.st.exm (quadFields a) = 0) (he : s.openWalks = []) : exec (.walknext g d a) s = .next s :=
  exec_walker_held rfl hgo hk hq hg hb (if_pos (List.isEmpty_iff.2 he))

theorem retires_tlbfill (hgo : s.goesOn = true) (hk : s.st.kind = .walker n) (ha : isQuad a.toNat = true) (hb : isQuad b.toNat = true) (hg : s.uniGuard g = true)
    (hin : s.beyondIn s.st.exm (quadFields a ++ quadFields b) = 0) :
    Retires (.tlbfill g a b) s (s.st.exm.lanes.foldl (fun u l => match s.recordTag l a with
      | none => u
      | some tag => u.fillWalk s.gr.die tag (s.regPair l b.toNat).toNat (s.reg l (b.toNat + 2))) s) false := by
  have hone (u : State) (l : Nat) : (fun t : State => (t.goesOn, t.st.sid)) (match s.recordTag l a with
      | none => u
      | some tag => u.fillWalk s.gr.die tag (s.regPair l b.toNat).toNat (s.reg l (b.toNat + 2))) = (u.goesOn, u.st.sid) := by
    split
    · rfl
    · exact fillWalk_keeps (pi := fun t : State => (t.goesOn, t.st.sid)) (fun _ _ _ => rfl) u _ _ _ _
  exact retires_walker rfl hgo hk (by rw [ha, hb]; rfl) hg hin rfl (Prod.mk.inj (foldl_keeps (fun t : State => (t.goesOn, t.st.sid)) hone _ s))

theorem goesOn_dozes (s : State) (f : Stream → Stream) (h : ∀ x, (f x).dozing = x.dozing) : (s.mapStreams f).goesOn = s.goesOn := by
  have hx := h s.st
  have hfield {γ : Type} (k : Stream → γ) (hk : ∀ x : Stream, k x.dozing = k x) : k (f s.st) = k s.st := by rw [← hk (f s.st), hx, hk]
  have e : s.goesOn = (decide (s.st.exm ≠ 0) && (s.st.loads.isEmpty && s.atomics.all (fun p => !s.st.owns p.sid p.id || p.ops.all (fun o => o.words.isEmpty))) &&
    !(decide (hdrN s.st.hdr ≤ s.st.pos) && decide ((s.st.pc + 4).toNat % 4096 = 0))) := rfl
  have howns : (f s.st).owns = s.st.owns := hfield Stream.owns (fun _ => rfl)
  have e' : (s.mapStreams f).goesOn = (decide ((f s.st).exm ≠ 0) && ((f s.st).loads.isEmpty && s.atomics.all (fun p => !(f s.st).owns p.sid p.id ||
    p.ops.all (fun o => o.words.isEmpty))) && !(decide (hdrN (f s.st).hdr ≤ (f s.st).pos) && decide (((f s.st).pc + 4).toNat % 4096 = 0))) := rfl
  rw [e, e', howns, hfield Stream.exm (fun _ => rfl), hfield Stream.loads (fun _ => rfl), hfield Stream.hdr (fun _ => rfl), hfield Stream.pos (fun _ => rfl),
    hfield Stream.pc (fun _ => rfl)]

theorem walkBlind_goesOn : WalkBlind State.goesOn := ⟨⟨goesOn_dozes, fun _ _ => rfl, fun _ _ => rfl⟩, fun _ _ _ => rfl, fun _ _ => rfl⟩

theorem walkBlind_sid : WalkBlind (fun s => s.st.sid) :=
  ⟨⟨fun s f h => (congrArg Stream.sid (h s.st) :), fun _ _ => rfl, fun _ _ => rfl⟩, fun _ _ _ => rfl, fun _ _ => rfl⟩

theorem retires_tlbdone (hgo : s.goesOn = true) (hk : s.st.kind = .walker n) (ha : isQuad a.toNat = true) (hg : s.uniGuard g = true)
    (hin : s.beyondIn s.st.exm (quadFields a ++ [b.toNat]) = 0) :
    Retires (.tlbdone g a b) s (s.st.exm.lanes.foldl (fun u l => match s.recordTag l a with
      | none => u
      | some tag => u.completeWalks s.gr.die (fun r => r.tag == tag) (if (s.reg l b.toNat).toNat < 4 then (s.reg l b.toNat).toNat else 2)) s) false := by
  have hone (u : State) (l : Nat) : (fun t : State => (t.goesOn, t.st.sid)) (match s.recordTag l a with
      | none => u
      | some tag => u.completeWalks s.gr.die (fun r => r.tag == tag) (if (s.reg l b.toNat).toNat < 4 then (s.reg l b.toNat).toNat else 2)) = (u.goesOn, u.st.sid) := by
    split
    · rfl
    · exact Prod.ext (completeWalks_keeps walkBlind_goesOn u _ _ _) (completeWalks_keeps walkBlind_sid u _ _ _)
  exact retires_walker rfl hgo hk ha hg hin rfl (Prod.mk.inj (foldl_keeps (fun t : State => (t.goesOn, t.st.sid)) hone _ s))

/-! ATSREQ and PRIREQ -/

/-- ATSREQ's requests. -/
def State.atsAsks (s : State) (a : BitVec 6) : List HostMsg :=
  (s.recordLanes a).map (fun l => HostMsg.atsRequest s.st.sid l ((s.reg l (a.toNat + 3)).toNat % 2 ^ 16) (s.recordVa l a) ((s.reg l (a.toNat + 2)).toNat % 2 ^ 20)
    ((s.reg l a.toNat).extractLsb' 8 3))

theorem atsreq_asks (hgo : s.goesOn = true) (hk : s.st.kind = .walker n) (ha : isQuad a.toNat = true) (hb : isQuad b.toNat = true) (hg : s.uniGuard g = true)
    (hin : s.beyondIn s.st.exm (quadFields a ++ quadFields b) = 0) (hne : s.recordLanes a ≠ []) (hp : s.st.peer = []) :
    ∃ u, exec (.atsreq g a b) s = .next u ∧ u.sameMem s ∧ u.st.pc = s.st.pc ∧ u.st.status = .waitPeer ∧ u.st.peer.map (·.lane) = s.recordLanes a ∧ u.out = s.out ++ s.atsAsks a := by
  have he : exec (.atsreq g a b) s = .next (({ s with out := s.out ++ s.atsAsks a } : State).modSt (fun x =>
      { x with status := .waitPeer, peer := (s.recordLanes a).map (fun l => { lane := l, va := s.recordVa l a, write := false, answer := .none }) })) := by
    refine exec_walker_held rfl hgo hk (by rw [ha, hb]; rfl) hg hin ?_
    refine (if_neg (fun h => hne (List.isEmpty_iff.1 h))).trans (if_pos ?_)
    rw [hp]
    rfl
  refine ⟨_, he, ⟨rfl, rfl⟩, rfl, rfl, ?_, rfl⟩
  exact (List.map_map).trans (List.map_id _)

theorem atsreq_answered {l : Nat} {v : BitVec 128} (hgo : s.goesOn = true) (hk : s.st.kind = .walker n) (ha : isQuad a.toNat = true) (hb : isQuad b.toNat = true)
    (hg : s.uniGuard g = true) (hin : s.beyondIn s.st.exm (quadFields a ++ quadFields b) = 0) (hl : s.recordLanes a = [l]) (hv : s.peerAnswer l false = some (.done v)) :
    ∃ u f, exec (.atsreq g a b) s = .next u ∧ u.sameMem s ∧ u.st.pc = s.st.pc + 4 ∧ u.st.sregs = s.st.sregs ∧
      u.gr.lanes = (s.mapLanes (Mask.one l) (fun _ x => x.setRegs s.gr.allot b.toNat (atsQuad v f))).gr.lanes := by
  have hpeer : ¬ s.st.peer.isEmpty = true := by
    intro h
    unfold State.peerAnswer at hv
    rw [List.isEmpty_iff.1 h] at hv
    exact absurd hv (Option.some_ne_none _).symm
  have hret : Retires (.atsreq g a b) s ((s.mapLanes (Mask.one l) (fun _ x => x.setRegs s.gr.allot b.toNat (atsQuad v (Config.freeWord s.free)))).useFree 1) false := by
    refine retires_walker rfl hgo hk (by rw [ha, hb]; rfl) hg hin ?_ ⟨rfl, rfl⟩
    dsimp only
    rw [hl]
    refine (if_neg Bool.noConfusion).trans ((if_neg hpeer).trans ?_)
    rw [List.foldl_cons, List.foldl_nil, hv]
  exact ⟨_, _, hret, ⟨rfl, rfl⟩, rfl, rfl, rfl⟩

theorem sendPri_idle {l : Nat} (h : s.st.peer.any (fun p => p.lane == l) = true ∨ s.pageRoom = false) : s.sendPri a l = s := by
  unfold State.sendPri
  refine if_pos ?_
  rcases h with h | h
  · rw [h, Bool.true_or]
  · rw [h, Bool.not_false, Bool.or_true]

theorem foldl_sendPri_idle {ls : List Nat} (h : ∀ l ∈ ls, s.st.peer.any (fun p => p.lane == l) = true ∨ s.pageRoom = false) : ls.foldl (fun u l => u.sendPri a l) s = s := by
  induction ls with
  | nil => rfl
  | cons l ls ih =>
    rw [List.foldl_cons, sendPri_idle (h l List.mem_cons_self)]
    exact ih (fun x hx => h x (List.mem_cons_of_mem _ hx))

theorem retires_prireq_sent (hgo : s.goesOn = true) (hk : s.st.kind = .walker n) (ha : isQuad a.toNat = true) (hg : s.uniGuard g = true)
    (hin : s.beyondIn s.st.exm (quadFields a) = 0) (h : ∀ l ∈ s.recordLanes a, s.st.peer.any (fun p => p.lane == l) = true) : Retires (.prireq g a) s s false := by
  refine retires_walker rfl hgo hk ha hg hin ?_ ⟨rfl, rfl⟩
  dsimp only
  rw [foldl_sendPri_idle (fun l hl => Or.inl (h l hl))]
  exact if_pos (List.all_eq_true.2 h)

theorem exec_prireq_full (hgo : s.goesOn = true) (hk : s.st.kind = .walker n) (ha : isQuad a.toNat = true) (hg : s.uniGuard g = true)
    (hin : s.beyondIn s.st.exm (quadFields a) = 0) (hr : s.pageRoom = false) (h : ∃ l ∈ s.recordLanes a, s.st.peer.any (fun p => p.lane == l) = false) :
    exec (.prireq g a) s = .next s := by
  obtain ⟨l, hl, hn⟩ := h
  refine exec_walker_held rfl hgo hk ha hg hin ?_
  dsimp only
  rw [foldl_sendPri_idle (fun l hl => Or.inr hr)]
  refine if_neg (fun hall => ?_)
  have hany := List.all_eq_true.1 hall l hl
  rw [hn] at hany
  exact Bool.noConfusion hany

/-- The one request of a PRIREQ sent. -/
def State.priSent (s : State) (a : BitVec 6) (l : Nat) (tag : BitVec 16) : State :=
  let ctx := (s.reg l (a.toNat + 3)).toNat % 2 ^ 16
  ((({ s with dev := { s.dev with pageReqs := s.dev.pageReqs ++ [(ctx, s.recordVa l a)] } } : State).say
    (.pageRequest ctx (s.recordVa l a) ((s.reg l a.toNat).extractLsb' 8 3))).modWalk s.gr.die tag (fun r => { r with paged := true })).modSt
      (fun x => { x with peer := x.peer ++ [{ lane := l, va := s.recordVa l a, write := false, answer := some (.done 0) }] })

theorem sendPri_sent {l : Nat} {tag : BitVec 16} (hp : s.st.peer = []) (hr : s.pageRoom = true) (ht : s.recordTag l a = some tag) : s.sendPri a l = s.priSent a l tag := by
  unfold State.sendPri State.priSent
  rw [ht]
  refine if_neg ?_
  rw [hp, hr]
  exact Bool.noConfusion

theorem prireq_sends {l : Nat} {tag : BitVec 16} (hgo : s.goesOn = true) (hk : s.st.kind = .walker n) (ha : isQuad a.toNat = true) (hg : s.uniGuard g = true)
    (hin : s.beyondIn s.st.exm (quadFields a) = 0) (hl : s.recordLanes a = [l]) (ht : s.recordTag l a = some tag) (hp : s.st.peer = []) (hr : s.pageRoom = true) :
    ∃ u, exec (.prireq g a) s = .next u ∧ u.sameMem s ∧ u.sameRegs s ∧
      .pageRequest ((s.reg l (a.toNat + 3)).toNat % 2 ^ 16) (s.recordVa l a) ((s.reg l a.toNat).extractLsb' 8 3) ∈ u.out ∧
      u.dev.pageReqs = s.dev.pageReqs ++ [((s.reg l (a.toNat + 3)).toNat % 2 ^ 16, s.recordVa l a)] ∧
      ∀ r ∈ (u.dieRec s.gr.die).walks, r.tag = tag → r.paged = true := by
  have hret : Retires (.prireq g a) s (s.priSent a l tag) false := by
    refine retires_walker rfl hgo hk ha hg hin ?_ ⟨rfl, rfl⟩
    dsimp only
    rw [hl, List.foldl_cons, List.foldl_nil, sendPri_sent hp hr ht]
    refine if_pos ?_
    have hpeer : (s.priSent a l tag).st.peer = s.st.peer ++ [{ lane := l, va := s.recordVa l a, write := false, answer := some (.done 0) }] := rfl
    rw [List.all_cons, List.all_nil, hpeer, hp]
    simp
  refine ⟨_, hret, ⟨rfl, rfl⟩, ⟨rfl, rfl, rfl, rfl, rfl⟩, List.mem_append_right _ (List.mem_singleton.2 rfl), rfl, ?_⟩
  intro r hx htag
  have hw : r ∈ ((s.priSent a l tag).dieRec s.gr.die).walks := hx
  have hwalks : ((s.priSent a l tag).dieRec s.gr.die).walks = (s.dieRec s.gr.die).walks.map (fun r => if r.tag = tag then { r with paged := true } else r) :=
    walks_modWalk { s with dev := { s.dev with pageReqs := s.dev.pageReqs ++ [((s.reg l (a.toNat + 3)).toNat % 2 ^ 16, s.recordVa l a)] } } s.gr.die tag (fun r => { r with paged := true })
  rw [hwalks] at hw
  obtain ⟨y, -, rfl⟩ := List.mem_map.1 hw
  split at htag
  · next hc => rw [if_pos hc]
  · next hc => exact absurd htag hc
end

section
variable {s : State} {n : Nat} {g : BitVec 4} {a b d : BitVec 6}

theorem walkers_skipped (hgo : s.goesOn = true) (hk : s.st.kind = .walker n) (ha : isQuad a.toNat = true) (hg : s.uniGuard g = false) :
    Retires (.walknext g d a) s s false ∧ Retires (.tlbdone g a b) s s false ∧ Retires (.prireq g a) s s false ∧
      (isQuad b.toNat = true → Retires (.tlbfill g a b) s s false ∧ Retires (.atsreq g a b) s s false) := by
  refine ⟨retires_walker_skipped rfl hgo hk ha hg, retires_walker_skipped rfl hgo hk ha hg, retires_walker_skipped rfl hgo hk ha hg, fun hb => ?_⟩
  have hq : (isQuad a.toNat && isQuad b.toNat) = true := by rw [ha, hb]; rfl
  exact ⟨retires_walker_skipped rfl hgo hk hq hg, retires_walker_skipped rfl hgo hk hq hg⟩

theorem retires_atsreq_idle (hgo : s.goesOn = true) (hk : s.st.kind = .walker n) (ha : isQuad a.toNat = true) (hb : isQuad b.toNat = true) (hg : s.uniGuard g = true)
    (hin : s.beyondIn s.st.exm (quadFields a ++ quadFields b) = 0) (hne : s.recordLanes a = []) : Retires (.atsreq g a b) s s false :=
  retires_walker rfl hgo hk (by rw [ha, hb]; rfl) hg hin (if_pos (List.isEmpty_iff.2 hne)) ⟨rfl, rfl⟩
end

/-! ## Invalidations (R174, R329, R362) -/

section
variable {s : State} {mine : Nat → Bool} {host : Bool} {va n : Nat}

theorem invalidate_st (s : State) (mine : Nat → Bool) (host : Bool) (va n : Nat) : (s.invalidate mine host va n).st = { s.st with tb := (s.invalidate mine host va n).st.tb } := by
  unfold State.invalidate State.mapStreams
  dsimp only
  split <;> rfl

theorem mem_invalidate_tlb (e : TlbEntry) : e ∈ (s.invalidate mine host va n).tlb ↔
    e ∈ s.tlb ∧ ¬ (mine e.ctx = true ∧ (host = true → e.pasid ≠ 0) ∧ coversRun va n e.va e.size = true) := by
  refine List.mem_filter.trans (and_congr_right (fun _ => ?_))
  rw [Bool.not_eq_true', ← Bool.not_eq_true]
  refine not_congr ?_
  rw [Bool.and_eq_true, Bool.and_eq_true, Bool.or_eq_true, bne_iff_ne, and_assoc]
  cases host
  · exact and_congr_right (fun _ => and_congr_left (fun _ => ⟨fun _ h => Bool.noConfusion h, fun _ => Or.inl rfl⟩))
  · exact and_congr_right (fun _ => and_congr_left (fun _ => ⟨fun h _ => h.resolve_left Bool.noConfusion, fun h => Or.inr (h rfl)⟩))

theorem invalidate_stale {i : Nat} {t : TransReg} (hm : mine s.gr.ctx = true) (hg : s.st.gid = s.gr.gid) (ht : s.st.tb[i]? = some t) (hb : t.bound = true)
    (hc : coversRun va n t.va t.limit = true) : (s.invalidate mine host va n).st.tb[i]? = some { t with stale := true } := by
  have hown : s.allGroups.any (fun g => g.gid == s.st.gid && mine g.ctx) = true :=
    List.any_eq_true.2 ⟨s.gr, List.mem_cons_self, by rw [hm, hg, beq_self_eq_true, Bool.and_self]⟩
  have htb : (s.invalidate mine host va n).st.tb = s.st.tb.map (fun t => if t.bound && coversRun va n t.va t.limit then { t with stale := true } else t) :=
    congrArg Stream.tb (if_pos hown)
  rw [htb, List.getElem?_map, ht, Option.map_some, hb, hc]
  rfl

theorem invalidate_standsAs (s : State) (mine : Nat → Bool) (host : Bool) (va n : Nat) : (s.invalidate mine host va n).standsAs s := by
  have hst := invalidate_st s mine host va n
  have hat : (s.invalidate mine host va n).atomics = s.atomics := rfl
  refine ⟨?_, by rw [hst]⟩
  unfold State.goesOn State.landed
  rw [hst, hat]
  rfl

theorem flushContext_idle (h : ∀ x ∈ s.allStreams, x.held = []) : s.flushContext mine = s := by
  unfold State.flushContext
  rw [List.filter_eq_nil_iff.2 (fun x hx hp => by
    rw [h x hx] at hp
    exact Bool.noConfusion hp)]
  rfl

theorem flushContext_keeps {β : Type} {pi : State → β} (h : ∀ s f, (∀ x : Stream, (f x).flushed = x.flushed) → pi (s.mapStreams f) = pi s)
    (ha : ∀ s a n e, pi { s with atomics := a, nextId := n, events := e } = pi s) (s : State) (mine : Nat → Bool) : pi (s.flushContext mine) = pi s :=
  foldl_flushHeld_keeps h ha s _

theorem retires_tlbinv {g : BitVec 4} {a b : BitVec 6} (hgo : s.goesOn = true) (hk : s.st.kind = .pair) (hp : s.st.privileged = false) (hq : isQuad a.toNat = true) :
    (s.uniGuard g = false → Retires (.tlbinv g a b) s s false) ∧
    (s.uniGuard g = true → vaPair (s.sreg a.toNat) (s.sreg (a.toNat + 1)) % 2 ^ 57 % 4096 ≠ 0 → Traps (.tlbinv g a b) s .misalign s.st.exm) ∧
    (s.uniGuard g = true → vaPair (s.sreg a.toNat) (s.sreg (a.toNat + 1)) % 2 ^ 57 % 4096 = 0 → s.quiet → (∀ x ∈ s.streams, x.held = []) →
      Retires (.tlbinv g a b) s ((s.invalidate (· == (s.sreg (a.toNat + 2)).toNat) false (vaPair (s.sreg a.toNat) (s.sreg (a.toNat + 1)) % 2 ^ 57) (s.sreg b.toNat).toNat).dropSlots
        (s.sreg (a.toNat + 2)).toNat (vaPair (s.sreg a.toNat) (s.sreg (a.toNat + 1)) % 2 ^ 57) (s.sreg b.toNat).toNat) false) := by
  have hpriv : s.st.isPriv = true := by
    unfold Stream.isPriv
    rw [hk, hp]
    rfl
  have hlegal : ¬ (s.st.kind ≠ .pair ∨ s.st.privileged = true ∨ (!isQuad a.toNat) = true) := by
    rw [hk, hp, hq]
    rintro (h | h | h)
    · exact h rfl
    · exact Bool.noConfusion h
    · exact Bool.noConfusion h
  have he : exec (.tlbinv g a b) s = s.run (
      if !s.uniGuard g then .next s
      else if vaPair (s.sreg a.toNat) (s.sreg (a.toNat + 1)) % 2 ^ 57 % 4096 ≠ 0 then .trap .misalign s.st.exm s
      else s.released (fun s1 =>
        let s2 := s1.flushContext (· == (s.sreg (a.toNat + 2)).toNat)
        if s2.atomics.length ≠ s1.atomics.length then .hold s2
        else .next ((s2.invalidate (· == (s.sreg (a.toNat + 2)).toNat) false (vaPair (s.sreg a.toNat) (s.sreg (a.toNat + 1)) % 2 ^ 57) (s.sreg b.toNat).toNat).dropSlots
          (s.sreg (a.toNat + 2)).toNat (vaPair (s.sreg a.toNat) (s.sreg (a.toNat + 1)) % 2 ^ 57) (s.sreg b.toNat).toNat))) := by
    change execTlbinv g a b s = _
    unfold execTlbinv
    dsimp only
    rw [if_neg (by rw [hpriv]; exact Bool.noConfusion), if_neg hlegal]
  refine ⟨fun hg => ?_, fun hg hva => ?_, fun hg hva hquiet hheld => ?_⟩
  · rw [hg] at he
    exact retires_noop he hgo
  · rw [hg, if_neg (by exact Bool.noConfusion), if_pos hva] at he
    exact traps_run he
  · have hidle : ∀ x ∈ s.allStreams, x.held = [] := fun x hx => by
      rcases List.mem_cons.1 hx with rfl | hx
      · exact hquiet.2
      · exact hheld x hx
    rw [hg, if_neg (by exact Bool.noConfusion), if_neg (fun h => h hva), released_quiet s _ hquiet] at he
    dsimp only at he
    rw [flushContext_idle hidle, if_neg (fun h => h rfl)] at he
    have hstands := invalidate_standsAs s (· == (s.sreg (a.toNat + 2)).toNat) false (vaPair (s.sreg a.toNat) (s.sreg (a.toNat + 1)) % 2 ^ 57) (s.sreg b.toNat).toNat
    exact retires_run he (goesOn_landed s hgo) hstands.2 (hstands.1.trans hgo)

/-- ATS_INVALIDATION_REQUEST: the copies are gone and the completion is owed. -/
theorem atsInvalidation (s : State) (pasid va pages : Nat) : ∃ u, exec (.atsInvalidationRequest pasid va pages) s = .next u ∧ u.sameMem s ∧
    (∀ e ∈ u.tlb, e ∈ s.tlb ∧ ¬ (s.pasidOf e.ctx = pasid ∧ e.pasid ≠ 0 ∧ coversRun va pages e.va e.size = true)) ∧
    ∃ x ∈ u.invals, x.pasid = pasid ∧ x.va = va ∧ x.pages = pages ∧ .invalidationCompletion x.id ∈ u.events := by
  let t := (s.invalidate (fun c => s.pasidOf c == pasid) true va pages).flushContext (fun c => s.pasidOf c == pasid)
  have htlb : t.tlb = (s.invalidate (fun c => s.pasidOf c == pasid) true va pages).tlb := flushContext_keeps (pi := State.tlb) (fun _ _ _ => rfl) (fun _ _ _ _ => rfl) _ _
  have hmem : t.mem = s.mem := flushContext_keeps (pi := State.mem) (fun _ _ _ => rfl) (fun _ _ _ _ => rfl) _ _
  have hhost : t.host = s.host := flushContext_keeps (pi := State.host) (fun _ _ _ => rfl) (fun _ _ _ _ => rfl) _ _
  refine ⟨_, rfl, ⟨hmem, hhost⟩, fun e he => ?_, _, List.mem_append_right _ (List.mem_singleton.2 rfl), rfl, rfl, rfl, List.mem_append_right _ (List.mem_singleton.2 rfl)⟩
  have hin : e ∈ t.tlb := he
  rw [htlb, mem_invalidate_tlb] at hin
  exact ⟨hin.1, fun h => hin.2 ⟨beq_iff_eq.2 h.1, fun _ => h.2.1, h.2.2⟩⟩

theorem invalidationCompletion_done {i : Invalidation} (hi : s.invals.find? (fun x => x.id == i.id) = some i) (hs : ∀ x ∈ s.stores, i.since ≤ x.id)
    (ha : ∀ x ∈ s.atomics, i.since ≤ x.id) (hl : ∀ x ∈ s.allStreams, ∀ y ∈ x.loads, i.since ≤ y.id) :
    ∃ u, exec (.invalidationCompletion i.id) s = .next u ∧ u.sameMem s ∧ .invalidationDone i.id ∈ u.out ∧ ∀ x ∈ u.invals, x.id ≠ i.id := by
  have hstores : s.stores.any (fun x => decide (x.id < i.since)) = false := List.any_eq_false.2 (fun x hx => by simpa using hs x hx)
  have hatomics : s.atomics.any (fun x => decide (x.id < i.since)) = false := List.any_eq_false.2 (fun x hx => by simpa using ha x hx)
  have hloads : s.allStreams.any (fun x => x.loads.any (fun r => decide (r.id < i.since))) = false :=
    List.any_eq_false.2 (fun x hx => by simpa using hl x hx)
  have he : exec (.invalidationCompletion i.id) s = .next (({ s with invals := s.invals.filter (fun x => x.id != i.id) } : State).say (.invalidationDone i.id)) := by
    change execInvalidationCompletion i.id s = _
    unfold execInvalidationCompletion
    rw [hi]
    dsimp only
    rw [hstores, hatomics, hloads]
    rfl
  refine ⟨_, he, ⟨rfl, rfl⟩, List.mem_append_right _ (List.mem_singleton.2 rfl), fun x hx => ?_⟩
  exact bne_iff_ne.1 (List.mem_filter.1 hx).2
end

/-! ## Answers to a lane (R328, R354) -/

section
variable {s : State}

theorem peerReply_answers {l va : Nat} {w sure : Bool} (v : PeerAnswer) (hst : s.st.status = .waitPeer ∨ s.st.status = .waitWalk)
    (hp : s.st.peer = [⟨l, va, w, none, sure⟩]) :
    (s.peerReply s.st.sid l v).st = { s.st with status := .runnable, peer := [⟨l, va, w, some v, sure⟩] } := by
  have hst' : (s.peerReply s.st.sid l v).st = _ := if_pos rfl
  rw [hst']
  simp [hp, hst]

/-- ATS_COMPLETION of a walk that its die served. -/
theorem atsCompletion_walk (s : State) (l : Nat) (addr : BitVec 64) (status : BitVec 32) :
    ∃ u, exec (.atsCompletion 0 l addr status) s = .next u ∧ u.sameMem s ∧ ∀ r ∈ (u.dieRec (l / 65536)).walks, r.tag ≠ BitVec.ofNat 16 l := by
  have hfill : (if status = 0 then s.fillWalk (l / 65536) (BitVec.ofNat 16 l) addr.toNat 4 else s).sameMem s := by
    split
    · exact ⟨fillWalk_keeps (pi := State.mem) (fun _ _ _ => rfl) s _ _ _ _, fillWalk_keeps (pi := State.host) (fun _ _ _ => rfl) s _ _ _ _⟩
    · exact sameMem_refl s
  have he : exec (.atsCompletion 0 l addr status) s = .next ((if status = 0 then s.fillWalk (l / 65536) (BitVec.ofNat 16 l) addr.toNat 4 else s).completeWalks (l / 65536)
      (fun r => r.tag == BitVec.ofNat 16 l) (if status = 0 then 0 else if status = 1 then 3 else 2)) := congrArg Host.Outcome.next (if_neg (fun h => h rfl))
  exact ⟨_, he, sameMem_trans _ _ s (completeWalks_sameMem _ _ _ _) hfill, completeWalks_gone _ _ _ _⟩
end

/-! ## The answers of a pager (R300, R361) -/

section
variable {s : State}

/-- The faults of a context on a page settled, and their streams told. -/
def State.faultsSettled (s : State) (ctx va : Nat) (host ok : Bool) : State :=
  let mine : Stream → Bool := fun x => s.allGroups.any (fun g => g.gid == x.gid && g.ctx == ctx) && x.sid != 0
  let s1 := s.mapStreams (fun x => if mine x then x.settleFaults (va / 4096) host ok else x)
  (s1.allStreams.filter (fun x => mine x && x.repaired (va / 4096) host)).foldl (fun t x => t.post x.resumeEvent) s1

/-- What an answer wakes besides streams and commands. -/
def State.settleRest (s : State) (ctx va : Nat) (host ok : Bool) : State :=
  let ends := s.allGroups.filter (fun g => g.live && g.ctx == ctx && g.alive == 0)
  let s6 := (((ends.foldl (fun t g => t.recheckEnd g.gid) s).post (.launchFire ctx)).post (.launchComplete 0)).resumeSaves ctx (va / 4096)
  let there : PeerFault → Bool := fun f => f.ctx == ctx && f.va / 4096 == va / 4096
  let s7 := (s6.peerFaults.filter there).foldl (fun t f => t.say (.peerSettled f.dev f.ctx f.va ok)) s6
  ({ s7 with peerFaults := s7.peerFaults.filter (fun f => !there f) } : State).answered (fun m => match m with
    | .deviceFault c v _ => !host && c == ctx && v / 4096 == va / 4096
    | _ => false)

theorem faultsSettled_cmds (s : State) (ctx va : Nat) (host ok : Bool) : (s.faultsSettled ctx va host ok).cmds = s.cmds := by
  have hone (t : State) (x : Stream) : (t.post x.resumeEvent).cmds = t.cmds := rfl
  exact foldl_keeps State.cmds hone _ _

theorem faultsSettled_status {ctx va : Nat} {host ok : Bool} {x : Stream} (hx : x ∈ (s.faultsSettled ctx va host ok).allStreams) : ∃ y ∈ s.allStreams, x.status = y.status := by
  have hone (t : State) (x : Stream) : (t.post x.resumeEvent).allStreams = t.allStreams := rfl
  have hall : (s.faultsSettled ctx va host ok).allStreams = s.allStreams.map (fun x =>
      if s.allGroups.any (fun g => g.gid == x.gid && g.ctx == ctx) && x.sid != 0 then x.settleFaults (va / 4096) host ok else x) := foldl_keeps State.allStreams hone _ _
  rw [hall] at hx
  obtain ⟨y, hy, rfl⟩ := List.mem_map.1 hx
  refine ⟨y, hy, ?_⟩
  split <;> rfl

/-- The answer to faults where no command stands parked and no stream waits for its entry segment. -/
theorem settlePage_eq {ctx va : Nat} {host ok : Bool} (hc : s.cmds = []) (hw : ∀ x ∈ s.allStreams, x.status ≠ .waitPlaced) :
    s.settlePage ctx va host ok = (s.faultsSettled ctx va host ok).settleRest ctx va host ok := by
  have hnone : (s.faultsSettled ctx va host ok).entryUnits ctx (va / 4096) = [] := by
    unfold State.entryUnits
    rw [List.filter_eq_nil_iff.2 (fun u _ h => ?_)]
    · rfl
    · rw [Bool.and_eq_true, List.any_eq_true] at h
      obtain ⟨-, x, hx, hp⟩ := h
      rw [Bool.and_eq_true, Bool.and_eq_true, decide_eq_true_iff] at hp
      obtain ⟨y, hy, hxy⟩ := faultsSettled_status hx
      exact hw y hy (hxy.symm.trans hp.1.1)
  have hcmds := (faultsSettled_cmds s ctx va host ok).trans hc
  change (let s2 := s.faultsSettled ctx va host ok
    let parked := s2.cmds.filter (fun c => c.ctx == ctx && (match c.state with
      | .parked v => v / 4096 == va / 4096
      | _ => false))
    let s3 := parked.foldl (fun t c => t.settleCmd c ok (if c.kind = .mmag then c.progress else 0)) s2
    let s4 := (s3.entryUnits ctx (va / 4096)).foldl (fun t u => if ok then t.post (.entrySegmentFetch u) else t.refuseEntry u) s3
    s4.settleRest ctx va host ok) = _
  dsimp only
  rw [hcmds, List.filter_nil, List.foldl_nil, hnone, List.foldl_nil]

theorem settleRest_keeps {β : Type} {pi : State → β} (h : ∀ s e u us sv o d pf, pi { s with events := e, un := u, units := us, saved := sv, out := o, dev := d, peerFaults := pf } = pi s)
    (s : State) (ctx va : Nat) (host ok : Bool) : pi (s.settleRest ctx va host ok) = pi s := by
  have hev (t : State) (e : List Instr) : pi { t with events := e } = pi t := h t e t.un t.units t.saved t.out t.dev t.peerFaults
  have hsay (t : State) (f : PeerFault) : pi (t.say (.peerSettled f.dev f.ctx f.va ok)) = pi t := h t t.events t.un t.units t.saved _ t.dev t.peerFaults
  have hend (t : State) (g : Group) : pi (t.recheckEnd g.gid) = pi t := recheckEnd_keeps pi hev t g.gid
  have hsaves (t : State) : pi (t.resumeSaves ctx (va / 4096)) = pi t := h t t.events _ _ _ t.out t.dev t.peerFaults
  have hlast (t : State) (pf : List PeerFault) (p : HostMsg → Bool) : pi (({ t with peerFaults := pf } : State).answered p) = pi t := h t t.events t.un t.units t.saved t.out _ pf
  refine (hlast _ _ _).trans ((foldl_keeps pi hsay _ _).trans ((hsaves _).trans ?_))
  exact (hev _ _).trans ((hev _ _).trans (foldl_keeps pi hend _ s))

theorem mem_recheckEnd {i : Instr} (h : i ∈ s.events) (gid : Nat) : i ∈ (s.recheckEnd gid).events := by
  unfold State.recheckEnd
  split
  · split
    · exact List.mem_append_left _ h
    · exact h
  · exact h

theorem mem_settleRest {i : Instr} (h : i ∈ s.events) (ctx va : Nat) (host ok : Bool) : i ∈ (s.settleRest ctx va host ok).events := by
  have hsay (t : State) (f : PeerFault) : (t.say (.peerSettled f.dev f.ctx f.va ok)).events = t.events := rfl
  have hends (l : List Group) : i ∈ (l.foldl (fun t g => t.recheckEnd g.gid) s).events :=
    List.foldlRecOn l (motive := fun t : State => i ∈ t.events) _ h (fun t ht g _ => mem_recheckEnd ht g.gid)
  have hevents (t : State) (l : List PeerFault) (hi : i ∈ t.events) : i ∈ (l.foldl (fun t f => t.say (.peerSettled f.dev f.ctx f.va ok)) t).events :=
    (foldl_keeps State.events hsay l t).symm ▸ hi
  exact hevents _ _ (List.mem_append_left _ (List.mem_append_left _ (hends _)))

/-- A parked stream whose one fault is answered. -/
structure State.Parked (s : State) (f : LaneFault) : Prop where
  sid : s.st.sid ≠ 0
  gid : s.st.gid = s.gr.gid
  kind : s.st.kind = .home
  status : s.st.status = .parked
  faults : s.st.faults = [f]
  open_ : f.settled = none
  cmds : s.cmds = []
  placed : ∀ x ∈ s.allStreams, x.status ≠ .waitPlaced

theorem settlePage_parked {f : LaneFault} (h : s.Parked f) (ok : Bool) : (s.settlePage s.gr.ctx f.va f.host ok).sameMem s ∧
    (s.settlePage s.gr.ctx f.va f.host ok).st.faults = [{ f with settled := some ok }] ∧ .fragmentResume s.st.sid ∈ (s.settlePage s.gr.ctx f.va f.host ok).events := by
  have hmine : (s.allGroups.any (fun g => g.gid == s.st.gid && g.ctx == s.gr.ctx) && s.st.sid != 0) = true := by
    rw [Bool.and_eq_true, bne_iff_ne]
    exact ⟨List.any_eq_true.2 ⟨s.gr, List.mem_cons_self, by rw [h.gid, beq_self_eq_true, beq_self_eq_true]; rfl⟩, h.sid⟩
  have hsettled : (s.st.settleFaults (f.va / 4096) f.host ok) = { s.st with faults := [{ f with settled := some ok }] } := by
    unfold Stream.settleFaults
    rw [h.faults, List.map_cons, List.map_nil, if_pos ⟨rfl, rfl, by rw [h.open_]; rfl⟩]
  have hst : (s.mapStreams (fun x => if s.allGroups.any (fun g => g.gid == x.gid && g.ctx == s.gr.ctx) && x.sid != 0 then x.settleFaults (f.va / 4096) f.host ok else x)).st =
      { s.st with faults := [{ f with settled := some ok }] } := (if_pos hmine).trans hsettled
  have hevent : ({ s.st with faults := [{ f with settled := some ok }] } : Stream).resumeEvent = .fragmentResume s.st.sid := by
    unfold Stream.resumeEvent
    dsimp only
    rw [h.status, h.kind]
    rfl
  have hrepaired : ({ s.st with faults := [{ f with settled := some ok }] } : Stream).repaired (f.va / 4096) f.host = true := by
    unfold Stream.repaired
    simp
  have hpost (t : State) (x : Stream) : (t.post x.resumeEvent).st = t.st ∧ (t.post x.resumeEvent).mem = t.mem ∧ (t.post x.resumeEvent).host = t.host := ⟨rfl, rfl, rfl⟩
  rw [settlePage_eq h.cmds h.placed]
  refine ⟨⟨?_, ?_⟩, ?_, mem_settleRest ?_ _ _ _ _⟩
  · exact (settleRest_keeps (pi := State.mem) (fun _ _ _ _ _ _ _ _ => rfl) _ _ _ _ _).trans (foldl_keeps State.mem (fun t x => (hpost t x).2.1) _ _)
  · exact (settleRest_keeps (pi := State.host) (fun _ _ _ _ _ _ _ _ => rfl) _ _ _ _ _).trans (foldl_keeps State.host (fun t x => (hpost t x).2.2) _ _)
  · have hkept := (settleRest_keeps (pi := State.st) (fun _ _ _ _ _ _ _ _ => rfl) (s.faultsSettled s.gr.ctx f.va f.host ok) s.gr.ctx f.va f.host ok).trans
      ((foldl_keeps State.st (fun t x => (hpost t x).1) _ _).trans hst)
    rw [hkept]
  · unfold State.faultsSettled
    dsimp only
    rw [foldl_post]
    refine List.mem_append_right _ (List.mem_map.2 ⟨{ s.st with faults := [{ f with settled := some ok }] }, List.mem_filter.2 ⟨?_, ?_⟩, hevent⟩)
    · rw [← hst]
      exact List.mem_cons_self
    · rw [hrepaired, Bool.and_true]
      exact hmine
end

/-! PAGE_FAULT_REPAIR -/

section
variable {s : State} {f : LaneFault}

theorem repair_fails (h : s.Parked f) (hf : f.host = false) : ∃ u, exec (.pageFaultRepair s.gr.ctx f.va .unrecoverable) s = .next u ∧ u.sameMem s ∧
    u.st.faults = [{ f with settled := some false }] ∧ .fragmentResume s.st.sid ∈ u.events := by
  have hp := settlePage_parked h false
  have he : exec (.pageFaultRepair s.gr.ctx f.va .unrecoverable) s = .next (s.settlePage s.gr.ctx f.va f.host false) := by
    rw [hf]
    rfl
  exact ⟨_, he, hp⟩

theorem invalidate_status {mine : Nat → Bool} {host : Bool} {va n : Nat} {x : Stream} (hx : x ∈ (s.invalidate mine host va n).allStreams) : ∃ y ∈ s.allStreams, x.status = y.status := by
  have hall : (s.invalidate mine host va n).allStreams = s.allStreams.map (fun x => if s.allGroups.any (fun g => g.gid == x.gid && mine g.ctx) then
    { x with tb := x.tb.map (fun t => if t.bound && coversRun va n t.va t.limit then { t with stale := true } else t) } else x) := rfl
  rw [hall] at hx
  obtain ⟨y, hy, rfl⟩ := List.mem_map.1 hx
  refine ⟨y, hy, ?_⟩
  split <;> rfl

theorem Parked_invalidate (h : s.Parked f) (mine : Nat → Bool) (host : Bool) (va n : Nat) : (s.invalidate mine host va n).Parked f := by
  have hst := invalidate_st s mine host va n
  refine ⟨by rw [hst]; exact h.sid, by rw [hst]; exact h.gid, by rw [hst]; exact h.kind, by rw [hst]; exact h.status, by rw [hst]; exact h.faults, h.open_, h.cmds, fun x hx => ?_⟩
  obtain ⟨y, hy, hxy⟩ := invalidate_status hx
  rw [hxy]
  exact h.placed y hy

theorem writeEntry_keeps {β : Type} {pi : State → β}
    (h : ∀ s m ho c g gs u us, pi { s with mem := m, host := ho, chip := c, gr := g, groups := gs, un := u, units := us } = pi s) (s : State) (e : Nat × BitVec 64) :
    pi (s.writeEntry e) = pi s := by
  have hputs (l : Loc) (v n : Nat) : pi (s.putN l v n) = pi s := by
    induction n with
    | zero => rfl
    | succ k ih => exact (putByte_keeps pi h _ _ _).trans ih
  exact hputs _ _ _

/-- What a byte put on chip leaves of the running group. -/
theorem putByte_group (s : State) (l : Loc) (v : Byte) : (s.putByte l v).gr.gid = s.gr.gid ∧ (s.putByte l v).gr.ctx = s.gr.ctx := by
  have hgroup (gid : Nat) (k : Group → Group) (hk : ∀ g, (k g).gid = g.gid ∧ (k g).ctx = g.ctx) : (s.modGroup gid k).gr.gid = s.gr.gid ∧ (s.modGroup gid k).gr.ctx = s.gr.ctx := by
    unfold State.modGroup State.mapGroups
    dsimp only
    split
    · exact hk s.gr
    · exact ⟨rfl, rfl⟩
  cases l with
  | host a => exact ⟨rfl, rfl⟩
  | enc key a => exact ⟨rfl, rfl⟩
  | dev a =>
    unfold State.putByte
    dsimp only
    split
    · exact ⟨rfl, rfl⟩
    · split
      · unfold State.putChip
        split
        · split
          · exact ⟨rfl, rfl⟩
          · split <;> exact ⟨rfl, rfl⟩
        · split
          · exact hgroup _ _ (fun _ => ⟨rfl, rfl⟩)
          · exact ⟨rfl, rfl⟩
        · split
          · exact hgroup _ _ (fun _ => ⟨rfl, rfl⟩)
          · exact ⟨rfl, rfl⟩
      · exact ⟨rfl, rfl⟩

theorem putN_group (s : State) (l : Loc) (v n : Nat) : (s.putN l v n).gr.gid = s.gr.gid ∧ (s.putN l v n).gr.ctx = s.gr.ctx := by
  induction n with
  | zero => exact ⟨rfl, rfl⟩
  | succ k ih =>
    obtain ⟨hg, hc⟩ := putByte_group (s.putN l v k) (l.plus k) (byteOf v k)
    exact ⟨hg.trans ih.1, hc.trans ih.2⟩

theorem Parked_writeEntries (h : s.Parked f) (es : List (Nat × BitVec 64)) :
    (es.foldl State.writeEntry s).Parked f ∧ (es.foldl State.writeEntry s).gr.ctx = s.gr.ctx ∧ (es.foldl State.writeEntry s).st = s.st := by
  have hst : (es.foldl State.writeEntry s).st = s.st := foldl_keeps State.st (writeEntry_keeps (pi := State.st) (fun _ _ _ _ _ _ _ _ => rfl)) es s
  have hall : (es.foldl State.writeEntry s).allStreams = s.allStreams := foldl_keeps State.allStreams (writeEntry_keeps (pi := State.allStreams) (fun _ _ _ _ _ _ _ _ => rfl)) es s
  have hcmds : (es.foldl State.writeEntry s).cmds = s.cmds := foldl_keeps State.cmds (writeEntry_keeps (pi := State.cmds) (fun _ _ _ _ _ _ _ _ => rfl)) es s
  have hone (t : State) (e : Nat × BitVec 64) : (fun t : State => (t.gr.gid, t.gr.ctx)) (t.writeEntry e) = (t.gr.gid, t.gr.ctx) := Prod.ext (putN_group t _ _ _).1 (putN_group t _ _ _).2
  obtain ⟨hgid, hctx⟩ := Prod.mk.inj (foldl_keeps (fun t : State => (t.gr.gid, t.gr.ctx)) hone es s)
  refine ⟨⟨by rw [hst]; exact h.sid, by rw [hst, hgid]; exact h.gid, by rw [hst]; exact h.kind, by rw [hst]; exact h.status, by rw [hst]; exact h.faults, h.open_, hcmds.trans h.cmds, ?_⟩, hctx, hst⟩
  rw [hall]
  exact h.placed

theorem getN_dev_mem (s : State) {a n : Nat} (h : a + n ≤ Config.hbmBytes) : s.getN (.dev a) n = s.mem.getN a n :=
  gatherLE_congr _ _ n (fun i hi => if_pos (show a + i < Config.hbmBytes by omega))

theorem putN_dev_mem (s : State) {a n : Nat} (h : a + n ≤ Config.hbmBytes) (v : Nat) : (s.putN (.dev a) v n).mem = s.mem.putN a v n := by
  induction n with
  | zero => rfl
  | succ k ih =>
    have hput : (s.putN (.dev a) v (k + 1)).mem = (s.putN (.dev a) v k).mem.put (a + k) (byteOf v k) :=
      congrArg State.mem (if_pos (show a + k < Config.hbmBytes by omega))
    rw [hput, ih (by omega)]
    rfl

theorem getN_putN_mem (m : Memory) (a v n : Nat) : (m.putN a v n).getN a n = v % 2 ^ (8 * n) := by
  refine (gatherLE_congr _ (byteOf v) n (fun i hi => ?_)).trans (byteOf_gather v n)
  rw [Memory.get_putN, if_pos ⟨Nat.le_add_right a i, Nat.add_lt_add_left hi a⟩, Nat.add_sub_cancel_left]

theorem repair_maps (h : s.Parked f) (hf : f.host = false) (es : List (Nat × BitVec 64)) : ∃ u, exec (.pageFaultRepair s.gr.ctx f.va (.mapped es)) s = .next u ∧
    u.st.faults = [{ f with settled := some true }] ∧ .fragmentResume s.st.sid ∈ u.events ∧
    (∀ a e, es = [(a, e)] → a + 8 ≤ Config.hbmBytes → u.mem.getN a 8 = e.toNat ∧ ∀ x, x < a ∨ a + 8 ≤ x → u.mem.get x = s.mem.get x) := by
  obtain ⟨hw, hctx, hst⟩ := Parked_writeEntries h es
  have hp := settlePage_parked (Parked_invalidate hw (· == s.gr.ctx) false (f.va / 4096 * 4096) 1) true
  have hctx' : ((es.foldl State.writeEntry s).invalidate (· == s.gr.ctx) false (f.va / 4096 * 4096) 1).gr.ctx = s.gr.ctx := hctx
  have hsid : ((es.foldl State.writeEntry s).invalidate (· == s.gr.ctx) false (f.va / 4096 * 4096) 1).st.sid = s.st.sid := by rw [invalidate_st, hst]
  rw [hctx', hsid] at hp
  obtain ⟨⟨hmem, -⟩, hfaults, hevent⟩ := hp
  have he : exec (.pageFaultRepair s.gr.ctx f.va (.mapped es)) s =
      .next (((es.foldl State.writeEntry s).invalidate (· == s.gr.ctx) false (f.va / 4096 * 4096) 1).settlePage s.gr.ctx f.va f.host true) := by
    rw [hf]
    rfl
  refine ⟨_, he, hfaults, hevent, fun a e hes ha => ?_⟩
  have hmem' : (((es.foldl State.writeEntry s).invalidate (· == s.gr.ctx) false (f.va / 4096 * 4096) 1).settlePage s.gr.ctx f.va f.host true).mem = s.mem.putN a e.toNat 8 := by
    refine hmem.trans ?_
    rw [hes]
    exact putN_dev_mem s ha e.toNat
  rw [hmem']
  refine ⟨?_, fun x hx => ?_⟩
  · rw [getN_putN_mem]
    exact Nat.mod_eq_of_lt e.isLt
  · rw [Memory.get_putN, if_neg (by omega)]
end

/-! PRI_RESPONSE -/

/-- A state in which commands are gone, no stream waits for its entry segment, and the running stream and group are those of another state. -/
structure State.Calm (t s : State) : Prop where
  cmds : t.cmds = []
  st : t.st = s.st
  gr : t.gr = s.gr
  placed : ∀ x ∈ t.allStreams, x.status ≠ .waitPlaced

section
variable {t s : State}

theorem Calm_walkRetry (h : t.Calm s) (hs : s.st.status = .parked) (r : WalkReq) (who : List Nat) : (t.walkRetry r who).Calm s := by
  have hpost (v : State) (i : Instr) (hv : v.Calm s) : (v.post i).Calm s := ⟨hv.cmds, hv.st, hv.gr, hv.placed⟩
  have hresume (v : State) (i : Nat) (hv : v.Calm s) : (v.resumeCmd i).Calm s := by
    unfold State.resumeCmd State.cmd?
    rw [hv.cmds]
    exact hv
  have hwake (v : State) (hv : v.Calm s) : (v.wake (fun x => who.contains x.sid && decide (x.status = .waitWalk))).Calm s := by
    have hst : (v.wake (fun x => who.contains x.sid && decide (x.status = .waitWalk))).st = v.st := by
      refine if_neg (fun hp => ?_)
      obtain ⟨-, hd⟩ := Bool.and_eq_true_iff.1 hp
      rw [hv.st, hs] at hd
      exact absurd (of_decide_eq_true hd) (fun he => StreamStatus.noConfusion he)
    refine ⟨hv.cmds, hst.trans hv.st, hv.gr, fun x hx => ?_⟩
    have hall : (v.wake (fun x => who.contains x.sid && decide (x.status = .waitWalk))).allStreams = v.allStreams.map (fun x =>
      if who.contains x.sid && decide (x.status = .waitWalk) then { x with status := .runnable, woken := x.bwait } else x) := rfl
    rw [hall] at hx
    obtain ⟨y, hy, rfl⟩ := List.mem_map.1 hx
    split
    · exact fun he => StreamStatus.noConfusion he
    · exact hv.placed y hy
  have hfold {α : Type} (k : State → α → State) (l : List α) (v : State) (hv : v.Calm s) (hk : ∀ v x, v.Calm s → (k v x).Calm s) : (l.foldl k v).Calm s :=
    List.foldlRecOn l (motive := fun v : State => v.Calm s) k hv (fun v hv x _ => hk v x hv)
  unfold State.walkRetry
  dsimp only
  have h0 := hfold (fun t (x : Stream) => t.post (.handlerEntryResume x.sid)) (t.allStreams.filter (fun x => who.contains x.sid && decide (x.status = .entryParked))) t h
    (fun v x hv => hpost v _ hv)
  have h1 := hwake _ (hfold State.resumeCmd who _ (show (State.resumeSaves _ r.ctx r.page).Calm s from ⟨h0.cmds, h0.st, h0.gr, h0.placed⟩) hresume)
  generalize (State.wake _ _) = v at h1 ⊢
  have h2 := hfold (fun t (i : Nat) => t.post (.entrySegmentFetch i)) (who.filter (fun i => v.allUnits.any (fun u => u.live && u.uid == i))) v h1 (fun v x hv => hpost v _ hv)
  generalize (List.foldl (fun t (i : Nat) => t.post (.entrySegmentFetch i)) v _) = w at h2 ⊢
  have h3 := hfold (fun t (i : Nat) => t.post (.groupEnd i)) (who.filter (fun i => w.allGroups.any (fun g => g.live && g.uid != 0 && g.gid == i && g.alive == 0))) w h2
    (fun v x hv => hpost v _ hv)
  split
  · exact hpost _ _ (hpost _ _ h3)
  · exact h3

theorem Calm_completeWalks (h : t.Calm s) (hs : s.st.status = .parked) (die : Nat) (p : WalkReq → Bool) (status : Nat) : (t.completeWalks die p status).Calm s := by
  unfold State.completeWalks
  dsimp only
  refine List.foldlRecOn _ (motive := fun v : State => v.Calm s) _ ?_ (fun v hv r _ => Calm_walkRetry hv hs r _)
  exact ⟨h.cmds, h.st, h.gr, h.placed⟩

theorem morePri_keeps {β : Type} {pi : State → β} (h : ∀ s d o, pi { s with dev := d, out := o } = pi s) (fuel : Nat) (s : State) : pi (s.morePri fuel) = pi s := by
  induction fuel generalizing s with
  | zero => rw [State.morePri.eq_def]
  | succ k ih =>
    rw [State.morePri.eq_def]
    split
    · rfl
    · rfl
    · next k' ctx va need r hk _ =>
      obtain rfl := Nat.succ.inj hk
      split
      · refine (ih _).trans ?_
        exact h s _ _
      · rfl

theorem priResponse_settles {f : LaneFault} (h : s.Parked f) (hf : f.host = true) (ok : Bool) : ∃ u, exec (.priResponse s.gr.ctx f.va ok) s = .next u ∧ u.sameMem s ∧
    u.st.faults = [{ f with settled := some ok }] ∧ .fragmentResume s.st.sid ∈ u.events := by
  let s1 : State := { s with dev := { s.dev with pageReqs := s.dev.pageReqs.eraseP (fun r => r.1 == s.gr.ctx && r.2 / 4096 == f.va / 4096) } }
  let s2 := s1.morePri s1.dev.pageWaits.length
  let s3 := (s2.dies.map (·.die)).foldl (fun t d => t.completeWalks d (fun r => r.paged && r.ctx == s.gr.ctx && r.page == f.va / 4096) (if ok then 0 else 4)) s2
  have hst2 : s2.st = s.st := morePri_keeps (pi := State.st) (fun _ _ _ => rfl) _ s1
  have hgr2 : s2.gr = s.gr := morePri_keeps (pi := State.gr) (fun _ _ _ => rfl) _ s1
  have hcmds2 : s2.cmds = s.cmds := morePri_keeps (pi := State.cmds) (fun _ _ _ => rfl) _ s1
  have hall2 : s2.allStreams = s.allStreams := morePri_keeps (pi := State.allStreams) (fun _ _ _ => rfl) _ s1
  have hcalm : s3.Calm s :=
    List.foldlRecOn _ (motive := fun v : State => v.Calm s) _ ⟨hcmds2.trans h.cmds, hst2, hgr2, by rw [hall2]; exact h.placed⟩ (fun v hv d _ => Calm_completeWalks hv h.status d _ _)
  have hwalks (t : State) (d : Nat) : (fun t : State => (t.mem, t.host)) (t.completeWalks d (fun r => r.paged && r.ctx == s.gr.ctx && r.page == f.va / 4096) (if ok then 0 else 4)) = (t.mem, t.host) :=
    completeWalks_keeps walkBlind_mem t d _ _
  have hmem : (s3.mem, s3.host) = (s.mem, s.host) :=
    (foldl_keeps (fun t : State => (t.mem, t.host)) hwalks _ s2).trans (morePri_keeps (pi := fun t : State => (t.mem, t.host)) (fun _ _ _ => rfl) _ s1)
  have he : exec (.priResponse s.gr.ctx f.va ok) s = .next (s3.settlePage s.gr.ctx f.va true ok) := rfl
  clear_value s3
  have hparked : s3.Parked f := by
    refine ⟨?_, ?_, ?_, ?_, ?_, h.open_, hcalm.cmds, hcalm.placed⟩
    · rw [hcalm.st]; exact h.sid
    · rw [hcalm.st, hcalm.gr]; exact h.gid
    · rw [hcalm.st]; exact h.kind
    · rw [hcalm.st]; exact h.status
    · rw [hcalm.st]; exact h.faults
  have hp := settlePage_parked hparked ok
  rw [hcalm.gr, hcalm.st] at hp
  rw [← hf] at he
  exact ⟨_, he, sameMem_trans _ _ s hp.1 (Prod.mk.inj hmem), hp.2⟩
end

/-! ## PAGE_MIGRATION (R171) -/

section
variable {s t : State}

theorem leafEntry_congr (h : ∀ a, t.getN (.dev a) 8 = s.getN (.dev a) 8) (os : Bool) (va level base : Nat) : t.leafEntry os va level base = s.leafEntry os va level base := by
  induction level generalizing base with
  | zero => rfl
  | succ k ih =>
    unfold State.leafEntry
    dsimp only
    rw [h, ih]

theorem leafEntry_page (os : Bool) (va level base : Nat) : s.leafEntry os (va / 4096 * 4096) level base = s.leafEntry os va level base := by
  have hslot (k : Nat) : va / 4096 * 4096 / 2 ^ (12 + 9 * k) = va / 2 ^ (12 + 9 * k) := by
    rw [Nat.pow_add, show (2 : Nat) ^ 12 = 4096 from rfl, ← Nat.div_div_eq_div_mul, ← Nat.div_div_eq_div_mul, Nat.mul_div_cancel _ (by decide)]
  induction level generalizing base with
  | zero =>
    unfold State.leafEntry
    dsimp only
    rw [hslot]
  | succ k ih =>
    unfold State.leafEntry
    dsimp only
    rw [hslot, ih]

theorem leafOfPage_page {ctx va : Nat} (hc : t.ctxRec ctx = s.ctxRec ctx) (h : ∀ a, t.getN (.dev a) 8 = s.getN (.dev a) 8) :
    t.leafOfPage ctx (va / 4096 * 4096) = s.leafOfPage ctx va := by
  unfold State.leafOfPage
  rw [hc]
  exact congrArg (s.ctxRec ctx).bind (funext (fun c => (leafEntry_page _ _ _ _).trans (leafEntry_congr h _ _ _ _)))

theorem copied_mem {frame : Nat} (v : Nat → Nat) (n : Nat) (h : frame + 8 * n ≤ Config.hbmBytes) (x : Nat) :
    ((List.range n).foldl (fun (t : State) i => t.putN ((devLoc none frame).plus (8 * i)) (v i) 8) s).mem.get x =
      if frame ≤ x ∧ x < frame + 8 * n then byteOf (v ((x - frame) / 8)) ((x - frame) % 8) else s.mem.get x := by
  induction n with
  | zero => rw [if_neg (by omega)]; rfl
  | succ k ih =>
    rw [List.range_succ, List.foldl_append, List.foldl_cons, List.foldl_nil]
    refine (congrArg (fun m : Memory => m.get x) (putN_dev_mem _ (show frame + 8 * k + 8 ≤ Config.hbmBytes by omega) (v k))).trans ?_
    refine (Memory.get_putN _ _ _ _ _).trans ?_
    rw [ih (by omega)]
    by_cases hlast : frame + 8 * k ≤ x ∧ x < frame + 8 * k + 8
    · rw [if_pos hlast, if_pos (by omega), show (x - frame) / 8 = k by omega, show (x - frame) % 8 = x - (frame + 8 * k) by omega]
    · rw [if_neg hlast]
      by_cases hin : frame ≤ x ∧ x < frame + 8 * k
      · rw [if_pos hin, if_pos (by omega)]
      · rw [if_neg hin, if_neg (by omega)]

/-- What moving a page without a key does to the memory. -/
theorem movePage_mem {ctx va frame at_ : Nat} (hleaf : s.leafOfPage ctx va = some at_) (hat : at_ + 8 ≤ Config.hbmBytes)
    (hkey : s.keyOf ctx ((s.mem.getN at_ 8).testBit 8) = none) (hframe : frame + 4096 ≤ Config.hbmBytes) (hold : pteFrame (s.mem.getN at_ 8) + 4096 ≤ Config.hbmBytes) (x : Nat) :
    (s.movePage ctx va frame).mem.get x =
      if at_ ≤ x ∧ x < at_ + 8 then byteOf (s.mem.getN at_ 8 - pteFrame (s.mem.getN at_ 8) + frame / 4096 * 4096) (x - at_)
      else if frame ≤ x ∧ x < frame + 4096 then s.mem.get (pteFrame (s.mem.getN at_ 8) + (x - frame)) else s.mem.get x := by
  have hbyte (i j : Nat) (hi : i < 512) (hj : j < 8) : byteOf (s.getN ((devLoc none (pteFrame (s.mem.getN at_ 8))).plus (8 * i)) 8) j =
      s.mem.get (pteFrame (s.mem.getN at_ 8) + 8 * i + j) :=
    (byteOf_gatherLE _ 8 j hj).trans (if_pos (show pteFrame (s.mem.getN at_ 8) + 8 * i + j < Config.hbmBytes by omega))
  unfold State.movePage
  rw [hleaf]
  dsimp only
  rw [getN_dev_mem s hat, hkey, putN_dev_mem _ hat, Memory.get_putN]
  refine if_congr Iff.rfl rfl ?_
  rw [copied_mem (fun i => s.getN ((devLoc none (pteFrame (s.mem.getN at_ 8))).plus (8 * i)) 8) 512 hframe x]
  by_cases hin : frame ≤ x ∧ x < frame + 4096
  · have hindex (o : Nat) : o + 8 * ((x - frame) / 8) + (x - frame) % 8 = o + (x - frame) := by omega
    rw [if_pos hin, if_pos hin, hbyte _ _ (by omega) (Nat.mod_lt _ (by decide)), hindex]
  · rw [if_neg hin, if_neg hin]

theorem pteFrame_moved {e q : Nat} (he : e < 2 ^ 64) (hq : q < 2 ^ 40) : pteFrame ((e - pteFrame e + q * 4096) % 2 ^ 64) = q * 4096 := by
  have hv : (e - pteFrame e + q * 4096) % 2 ^ 64 = e / 2 ^ 52 * 2 ^ 52 + q * 4096 + e % 2 ^ 12 := by
    unfold pteFrame
    omega
  have hd : (e / 2 ^ 52 * 2 ^ 52 + q * 4096 + e % 2 ^ 12) / 2 ^ 12 = e / 2 ^ 52 * 2 ^ 40 + q := by omega
  rw [hv]
  unfold pteFrame
  rw [hd, Nat.mul_add_mod_self_right, Nat.mod_eq_of_lt hq] <;> rfl

theorem testBit_moved {e q k : Nat} (he : e < 2 ^ 64) (hk : k < 12) : ((e - pteFrame e + q * 4096) % 2 ^ 64).testBit k = e.testBit k := by
  have hlow : (e - pteFrame e + q * 4096) % 2 ^ 64 % 2 ^ 12 = e % 2 ^ 12 := by
    unfold pteFrame
    omega
  have hbit (m : Nat) : (m % 2 ^ 12).testBit k = m.testBit k := by rw [Nat.testBit_mod_two_pow, decide_eq_true hk, Bool.true_and]
  rw [← hbit, hlow, hbit]

theorem pageMigration_moves {ctx va frame at_ : Nat} (hleaf : s.leafOfPage ctx va = some at_) (hat : at_ + 8 ≤ Config.hbmBytes)
    (hkey : s.keyOf ctx ((s.mem.getN at_ 8).testBit 8) = none) (h0 : (s.mem.getN at_ 8).testBit 0 = true) (h5 : (s.mem.getN at_ 8).testBit 5 = false)
    (h6 : (s.mem.getN at_ 8).testBit 6 = false) (h7 : (s.mem.getN at_ 8).testBit 7 = false) (hfr : frame % 4096 = 0) (hframe : frame + 4096 ≤ Config.hbmBytes)
    (hold : pteFrame (s.mem.getN at_ 8) + 4096 ≤ Config.hbmBytes) (hapart : at_ + 8 ≤ frame ∨ frame + 4096 ≤ at_) (hs : s.stores = []) (ha : s.atomics = [])
    (hh : ∀ x ∈ s.allStreams, x.held = []) :
    ∃ u, exec (.pageMigration ctx va frame) s = .next u ∧ pteFrame (u.mem.getN at_ 8) = frame ∧ (∀ k, k < 12 → (u.mem.getN at_ 8).testBit k = (s.mem.getN at_ 8).testBit k) ∧
      (∀ i, i < 4096 → u.mem.get (frame + i) = s.mem.get (pteFrame (s.mem.getN at_ 8) + i)) ∧
      ∀ x, (x < frame ∨ frame + 4096 ≤ x) → (x < at_ ∨ at_ + 8 ≤ x) → u.mem.get x = s.mem.get x := by
  let t := s.invalidate (· == ctx) false (va / 4096 * 4096) 1
  have hheld : ∀ x ∈ t.allStreams, x.held = [] := by
    intro x hx
    obtain ⟨y, hy, rfl⟩ := List.mem_map.1 (show x ∈ s.allStreams.map (fun x => if s.allGroups.any (fun g => g.gid == x.gid && g.ctx == ctx) then
      { x with tb := x.tb.map (fun t => if t.bound && coversRun (va / 4096 * 4096) 1 t.va t.limit then { t with stale := true } else t) } else x) from hx)
    split
    · exact hh y hy
    · exact hh y hy
  have hperf : t.performAll = t := by
    unfold State.performAll
    rw [show t.stores = [] from hs, show t.atomics = [] from ha, List.map_nil, List.map_nil, List.append_nil, List.mergeSort_nil]
    rfl
  have hget (a : Nat) : t.getN (.dev a) 8 = s.getN (.dev a) 8 := rfl
  have hleaf' : t.leafOfPage ctx (va / 4096 * 4096) = some at_ := (leafOfPage_page (t := t) (s := s) rfl hget).trans hleaf
  have he : exec (.pageMigration ctx va frame) s = .next (t.movePage ctx (va / 4096 * 4096) frame) := by
    change execPageMigration ctx va frame s = _
    unfold execPageMigration
    rw [hleaf]
    dsimp only
    rw [getN_dev_mem s hat, h0, h5, h6, h7]
    refine congrArg Host.Outcome.next ((if_neg ?_).trans ?_)
    · simp [hfr, Nat.not_lt.2 hframe]
    · change (List.range 1).foldl (fun (t : State) i => t.movePage ctx (va / 4096 * 4096 + 4096 * i) (frame + 4096 * i)) ((t.flushContext (· == ctx)).performAll) = _
      rw [flushContext_idle hheld, hperf, List.range_one, List.foldl_cons, List.foldl_nil, Nat.mul_zero, Nat.add_zero, Nat.add_zero]
  have hmem : t.mem = s.mem := rfl
  have hkey' : t.keyOf ctx ((t.mem.getN at_ 8).testBit 8) = none := hkey
  clear_value t
  have hmoved := movePage_mem (s := t) hleaf' hat hkey' hframe (by rw [hmem]; exact hold)
  rw [hmem] at hmoved
  have hentry : (t.movePage ctx (va / 4096 * 4096) frame).mem.getN at_ 8 = (s.mem.getN at_ 8 - pteFrame (s.mem.getN at_ 8) + frame / 4096 * 4096) % 2 ^ 64 := by
    refine (gatherLE_congr _ (byteOf (s.mem.getN at_ 8 - pteFrame (s.mem.getN at_ 8) + frame / 4096 * 4096)) 8 (fun i hi => ?_)).trans (byteOf_gather _ 8)
    rw [hmoved, if_pos (by omega), Nat.add_sub_cancel_left]
  have hlt : s.mem.getN at_ 8 < 2 ^ 64 := gatherLE_lt _ 8
  have hq : frame / 4096 < 2 ^ 40 := by
    have hb : Config.hbmBytes < 4096 * 2 ^ 40 := by decide
    exact Nat.div_lt_of_lt_mul (Nat.lt_trans (Nat.lt_of_lt_of_le (Nat.lt_add_of_pos_right (by decide)) hframe) hb)
  refine ⟨_, he, ?_, fun k hk => ?_, fun i hi => ?_, fun x hx hxa => ?_⟩
  · rw [hentry, pteFrame_moved hlt hq]
    exact Nat.div_mul_cancel (Nat.dvd_of_mod_eq_zero hfr)
  · rw [hentry]
    exact testBit_moved hlt hk
  · rw [hmoved, if_neg (by omega), if_pos (by omega), Nat.add_sub_cancel_left]
  · rw [hmoved, if_neg (by omega), if_neg (by omega)]

theorem migrationWindow (s : State) : ∃ u, exec .migrationWindowEnd s = .next u ∧ u.sameMem s ∧ u.pageCounts = [] ∧
    ∀ p ∈ s.pageCounts, s.wantsMove p = true → .migrationRequest p.page p.die ∈ u.out := by
  have hone (t : State) (p : PageCount) : (fun t : State => (t.mem, t.host)) ((t.say (.migrationRequest p.page p.die)).countDie (Loc.homeDie (.dev (4096 * p.page))) 7 1) = (t.mem, t.host) := rfl
  have hout (l : List PageCount) (s : State) : (l.foldl (fun t p => (t.say (.migrationRequest p.page p.die)).countDie (Loc.homeDie (.dev (4096 * p.page))) 7 1) s).out =
      s.out ++ l.map (fun p => .migrationRequest p.page p.die) := by
    induction l generalizing s with
    | nil => exact (List.append_nil _).symm
    | cons p l ih =>
      rw [List.foldl_cons, ih, List.map_cons, List.append_cons]
      rfl
  refine ⟨_, rfl, Prod.mk.inj (foldl_keeps (fun t : State => (t.mem, t.host)) hone (s.pageCounts.filter s.wantsMove) s), rfl, fun p hp hw => ?_⟩
  refine (hout _ s).symm ▸ List.mem_append_right _ (List.mem_map.2 ⟨p, List.mem_filter.2 ⟨hp, hw⟩, rfl⟩)
end

/-- Settles O57: the walker instructions in a walker slot, what TLBFILL and TLBDONE do to the requests, TLBINV, the copies that an invalidation drops, and the answers from outside, each by its own lemma. -/
theorem walks : Obligations.Walks := by
  refine ⟨?_, ?_, ?_, ?_, ?_, ?_, ?_, ?_, migrationWindow⟩
  · intro s g d a b n die ls reqs inB hgo hk ha
    refine ⟨fun hg => walkers_skipped hgo hk ha hg, fun hg => ⟨fun hin hne => walknext_takes hgo hk ha hg hin hne, fun hin he => exec_walknext_idle hgo hk ha hg hin he,
      fun hb hin => ⟨retires_tlbfill hgo hk ha hb hg hin, fun hne => retires_atsreq_idle hgo hk ha hb hg hin hne, fun hne hpeer => atsreq_asks hgo hk ha hb hg hin hne hpeer,
        fun l v hl hv => atsreq_answered hgo hk ha hb hg hin hl hv⟩,
      fun hin => retires_tlbdone hgo hk ha hg hin, fun hin => ⟨fun h => retires_prireq_sent hgo hk ha hg hin h, fun hr h => exec_prireq_full hgo hk ha hg hin hr h,
        fun l tag hl ht hpeer hr => prireq_sends hgo hk ha hg hin hl ht hpeer hr⟩⟩⟩
  · exact fun s die e st tag form r => ⟨completeWalks_gone s die st tag, fun hr hs => fillWalk_stale hr hs, fun es hr hs hf => fillWalk_filled hr hs hf,
      fun h0 h5 h6 hf key => filled_page h0 h5 h6 hf key, fun key h0 h2 => filled_absent h0 h2 key, fun key h5 hf => filled_misplaced h5 hf key⟩
  · intro s g a b ctx va n hgo hk hp hq
    exact retires_tlbinv hgo hk hp hq
  · exact fun s mine host va n => ⟨⟨rfl, rfl⟩, rfl, fun e => mem_invalidate_tlb e, fun hm hg i t ht hb hc => invalidate_stale hm hg ht hb hc⟩
  · refine fun s l va w sure addr status v => ⟨fun hsid hst hp => ⟨?_, fun dev => ?_⟩, atsCompletion_walk s l addr status⟩
    · exact ⟨_, congrArg Host.Outcome.next (if_pos hsid), ⟨rfl, rfl⟩, rfl, peerReply_answers _ hst hp⟩
    · exact ⟨_, congrArg Host.Outcome.next (if_pos hsid), ⟨rfl, rfl⟩, rfl, peerReply_answers v hst hp⟩
  · exact fun s pasid va pages i => ⟨atsInvalidation s pasid va pages, fun hi hs ha hl => invalidationCompletion_done hi hs ha hl⟩
  · intro s f es ok hsid hgid hk hst hf hset hc hw
    have hp : s.Parked f := ⟨hsid, hgid, hk, hst, hf, hset, hc, hw⟩
    exact ⟨fun hh => repair_fails hp hh, fun hh => repair_maps hp hh es, fun hh => priResponse_settles hp hh ok⟩
  · intro s ctx va frame at_ e hleaf hat hkey h0 h5 h6 h7 hfr hframe hold hapart hs ha hh
    exact pageMigration_moves hleaf hat hkey h0 h5 h6 h7 hfr hframe hold hapart hs ha hh

end Sys2Proof.Machine
end

section
/-!
The events of an instruction stream: O58.
-/
namespace Sys2Proof.Machine

/-! ## The clause fetch (R18, R44, R45, R129, R309) -/

section
variable {s : State} {o : Overlay} {e : PathEntry} {h : Word}

/-- A restart point set twice is set once, where no CANCEL stops the stream. -/
theorem markRestart_twice (hc : s.st.cancelAt = none) : s.markRestart.markRestart = s.markRestart := by
  unfold State.markRestart State.modSt
  dsimp only
  rw [hc]
  rfl

/-- The stream stands at the first word of the clause. -/
def State.clauseEntered (s : State) (h : Word) : State :=
  (s.slotUsed s.gr.coreId s.gr.ctx (segOf s.st.pc)).modSt (fun x => { x with hdr := h, pc := x.pc + 4, pos := 1, ext := none, fresh := false, marked := false })

theorem markRestart_status (hc : s.st.cancelAt = none) : s.markRestart.st.status = s.st.status := by
  unfold State.markRestart State.modSt
  dsimp only
  rw [hc]
  rfl

theorem enterClause_enters (hc : s.st.cancelAt = none) (hs : s.st.status = .runnable) (hm : s.st.marked = false) (hw : hdrWait h &&& s.st.pending = 0) :
    s.enterClause h = (if hdrMark h = true then s.markRestart else s).clauseEntered h := by
  have hwait : ¬ hdrWait h &&& s.st.pending ≠ 0 := fun hne => hne hw
  have hrun : ¬ s.markRestart.st.status = .stopped := by
    rw [markRestart_status hc, hs]
    exact StreamStatus.noConfusion
  unfold State.enterClause
  dsimp only
  rw [hm, Bool.not_false, Bool.and_true]
  cases hdrMark h with
  | true => exact (if_neg hrun).trans (if_neg hwait)
  | false => exact (if_neg (by rw [if_neg Bool.noConfusion, hs]; exact StreamStatus.noConfusion)).trans (if_neg hwait)

theorem enterClause_waits (hc : s.st.cancelAt = none) (hs : s.st.status = .runnable) (hm : s.st.marked = false) (hw : hdrWait h &&& s.st.pending ≠ 0) :
    s.enterClause h = (if hdrMark h = true then s.markRestart else s).modSt (fun x => { x with status := .waitFlags, marked := hdrMark h }) := by
  have hrun : ¬ s.markRestart.st.status = .stopped := by
    rw [markRestart_status hc, hs]
    exact StreamStatus.noConfusion
  unfold State.enterClause
  dsimp only
  rw [hm, Bool.not_false, Bool.and_true]
  cases hdrMark h with
  | true => exact (if_neg hrun).trans (if_pos hw)
  | false => exact (if_neg (by rw [if_neg Bool.noConfusion, hs]; exact StreamStatus.noConfusion)).trans (if_pos hw)

theorem enterClause_marked (hc : s.st.cancelAt = none) (hs : s.st.status = .runnable) (hm : s.st.marked = false) (hw : hdrWait h &&& s.st.pending = 0) :
    s.markRestart.enterClause h = s.markRestart.clauseEntered h := by
  have he := enterClause_enters (s := s.markRestart) (h := h) hc ((markRestart_status hc).trans hs) hm hw
  rw [he, markRestart_twice hc]
  split <;> rfl

/-- A path outside a handler with an empty stack has nothing to merge. -/
theorem convMerge_empty (hst : s.st.stack = []) (hb : s.st.below = []) (k : Nat) : s.convMerge (k + 1) = .ok (s, false) := by
  have hentries : s.st.entries = [] := by
    unfold Stream.entries
    rw [hst, hb, List.append_nil, List.take_nil]
  rw [State.convMerge.eq_def]
  dsimp only
  rw [hentries]

theorem refillStack_ready (hb : s.st.below = []) : s.refillStack = .ok s := by
  unfold State.refillStack
  rw [hb]
  exact if_neg (by rw [List.isEmpty_nil, Bool.not_true, Bool.and_false]; exact Bool.noConfusion)

theorem convMerge_one (hst : s.st.stack = [e]) (hb : s.st.below = []) (hp : s.st.privileged = false) (hj : e.join = false) (ha : e.addr = s.st.pc) (hd : e.depth = s.st.dep)
    (hf : e.fmt = s.st.fmt) : s.convMerge (s.st.pathd + 1) = .ok (s.modSt (fun x => { x with stack := [], exm := x.exm ||| (e.mask &&& x.base) }), true) := by
  have hpathd : s.st.pathd = 1 := by
    unfold Stream.pathd
    rw [hst, hb]
    rfl
  have hentries : s.st.entries = [e] := by
    unfold Stream.entries Stream.floor
    rw [hpathd, hst, hb, hp]
    rfl
  have hmatch : (!e.join && e.addr == s.st.pc && e.depth == s.st.dep && e.fmt == s.st.fmt) = true := by
    rw [hj, ha, hd, hf, beq_self_eq_true, beq_self_eq_true, beq_self_eq_true]
    rfl
  have hrest : (s.modSt (fun x => { x with stack := [], exm := x.exm ||| (e.mask &&& x.base) })).convMerge 1 =
      .ok (s.modSt (fun x => { x with stack := [], exm := x.exm ||| (e.mask &&& x.base) }), false) :=
    convMerge_empty (s := s.modSt (fun x => { x with stack := [], exm := x.exm ||| (e.mask &&& x.base) })) rfl hb 0
  rw [hpathd, State.convMerge.eq_def]
  dsimp only
  rw [hentries]
  dsimp only
  rw [if_pos hmatch, refillStack_ready hb]
  dsimp only
  rw [hst]
  dsimp only
  rw [hrest]

/-- What a clause fetch does once the segment is there. -/
theorem fetchClause_slot (hx : s.st.exm ≠ 0) (hk : s.st.kind = .home) (hj : s.st.topJoin = none)
    (ho : (if s.st.fresh = true then s.slotFor s.gr.coreId s.gr.ctx (segOf s.st.pc) else s.slotOf s.st s.gr.coreId s.gr.ctx (segOf s.st.pc)) = some o) :
    exec .clauseFetch s = .next (
      let q := s.modSt (fun x => { x with slot := some o.gen })
      let h := sparseGet 0#32 o.words (s.st.pc.toNat % 4096 / 4 * 4)
      if 0xFFC < s.st.pc.toNat % 4096 + 4 * hdrN h then (q.modSt (fun x => { x with hdr := h })).takeTrap .illegal s.st.exm [] TrapInfo.plain
      else if hdrConv h then
        match q.convMerge (s.st.pathd + 1) with
        | .error f => q.parkOn [f]
        | .ok (s1, merged) => (if merged then s1.markRestart else s1).enterClause h
      else q.enterClause h) := by
  refine congrArg Host.Outcome.next ?_
  unfold State.fetchClause
  dsimp only
  rw [hj, hk]
  dsimp only
  rw [if_neg (fun h => h.elim hx (fun h => h.elim Bool.noConfusion Bool.noConfusion)), ho]
  rfl

theorem topJoin_empty (hst : s.st.stack = []) (hb : s.st.below = []) : s.st.topJoin = none := by
  unfold Stream.topJoin Stream.entries
  rw [hst, hb, List.append_nil, List.take_nil]
  rfl

theorem topJoin_pend (hst : s.st.stack = [e]) (hb : s.st.below = []) (hp : s.st.privileged = false) (hj : e.join = false) : s.st.topJoin = none := by
  have hentries : s.st.entries = [e] := by
    unfold Stream.entries Stream.floor Stream.pathd
    rw [hst, hb, hp]
    rfl
  unfold Stream.topJoin
  dsimp only
  rw [hentries, List.dropWhile_cons_of_pos (by rw [hj]; rfl), List.dropWhile_nil]

/-- The clause's header, once its segment is there. -/
def Overlay.header (o : Overlay) (pc : CodeVa) : Word := sparseGet 0#32 o.words (pc.toNat % 4096 / 4 * 4)

/-- The stream notes the slot that it runs from. -/
def State.inSlot (s : State) (o : Overlay) : State := s.modSt (fun x => { x with slot := some o.gen })

/-- A clause that ends beyond its segment is ILLEGAL. -/
theorem clauseFetch_illegal (hx : s.st.exm ≠ 0) (hk : s.st.kind = .home) (hb : s.st.below = [])
    (ho : (if s.st.fresh = true then s.slotFor s.gr.coreId s.gr.ctx (segOf s.st.pc) else s.slotOf s.st s.gr.coreId s.gr.ctx (segOf s.st.pc)) = some o)
    (hlong : 0xFFC < s.st.pc.toNat % 4096 + 4 * hdrN (o.header s.st.pc)) (hst : s.st.stack = []) :
    exec .clauseFetch s = .next (((s.inSlot o).modSt (fun x => { x with hdr := o.header s.st.pc })).takeTrap .illegal s.st.exm [] TrapInfo.plain) :=
  (fetchClause_slot hx hk (topJoin_empty hst hb) ho).trans (congrArg Host.Outcome.next (if_pos hlong))

/-- With an empty stack there is nothing to merge, and the clause is entered. -/
theorem clauseFetch_enters (hx : s.st.exm ≠ 0) (hk : s.st.kind = .home) (hb : s.st.below = [])
    (ho : (if s.st.fresh = true then s.slotFor s.gr.coreId s.gr.ctx (segOf s.st.pc) else s.slotOf s.st s.gr.coreId s.gr.ctx (segOf s.st.pc)) = some o)
    (hfit : s.st.pc.toNat % 4096 + 4 * hdrN (o.header s.st.pc) ≤ 0xFFC) (hst : s.st.stack = []) :
    exec .clauseFetch s = .next ((s.inSlot o).enterClause (o.header s.st.pc)) := by
  have hconv : (s.inSlot o).convMerge (s.st.pathd + 1) = .ok (s.inSlot o, false) := convMerge_empty (s := s.inSlot o) hst hb _
  refine (fetchClause_slot hx hk (topJoin_empty hst hb) ho).trans (congrArg Host.Outcome.next ((if_neg (Nat.not_lt.2 hfit)).trans ?_))
  change (if hdrConv (o.header s.st.pc) = true then (match (s.inSlot o).convMerge (s.st.pathd + 1) with
    | .error f => (s.inSlot o).parkOn [f]
    | .ok (s1, merged) => (if merged then s1.markRestart else s1).enterClause (o.header s.st.pc)) else (s.inSlot o).enterClause (o.header s.st.pc)) = _
  rw [hconv]
  exact ite_self _

/-- CONV merges the PEND that matches, and the merged path has a restart point. -/
theorem clauseFetch_converges (hx : s.st.exm ≠ 0) (hk : s.st.kind = .home) (hp : s.st.privileged = false) (hb : s.st.below = [])
    (ho : (if s.st.fresh = true then s.slotFor s.gr.coreId s.gr.ctx (segOf s.st.pc) else s.slotOf s.st s.gr.coreId s.gr.ctx (segOf s.st.pc)) = some o)
    (hfit : s.st.pc.toNat % 4096 + 4 * hdrN (o.header s.st.pc) ≤ 0xFFC) (hst : s.st.stack = [e]) (hj : e.join = false) (ha : e.addr = s.st.pc) (hd : e.depth = s.st.dep)
    (hf : e.fmt = s.st.fmt) (hc : hdrConv (o.header s.st.pc) = true) :
    exec .clauseFetch s = .next ((((s.inSlot o).modSt (fun x => { x with stack := [], exm := x.exm ||| (e.mask &&& x.base) })).markRestart).enterClause (o.header s.st.pc)) := by
  have hconv : (s.inSlot o).convMerge (s.st.pathd + 1) = .ok ((s.inSlot o).modSt (fun x => { x with stack := [], exm := x.exm ||| (e.mask &&& x.base) }), true) :=
    convMerge_one (s := s.inSlot o) hst hb hp hj ha hd hf
  refine (fetchClause_slot hx hk (topJoin_pend hst hb hp hj) ho).trans (congrArg Host.Outcome.next ((if_neg (Nat.not_lt.2 hfit)).trans ?_))
  change (if hdrConv (o.header s.st.pc) = true then (match (s.inSlot o).convMerge (s.st.pathd + 1) with
    | .error f => (s.inSlot o).parkOn [f]
    | .ok (s1, merged) => (if merged then s1.markRestart else s1).enterClause (o.header s.st.pc)) else (s.inSlot o).enterClause (o.header s.st.pc)) = _
  rw [if_pos hc, hconv]
  rfl
end

/-! ## Promotion and resumption (R141, R300, R301) -/

section
variable {s : State}

theorem promotes (hs : s.st.status = .runnable) (hp : s.st.promoted = none) (hi : 256 ≤ s.st.idle) :
    ∃ u, exec (.streamPromotion s.st.sid) s = .next u ∧ u.sameMem s ∧ u.gr = s.gr ∧ u.st = { s.st with promoted := some s.dev.promotions } ∧ u.dev.promotions = s.dev.promotions + 1 :=
  ⟨_, rfl, ⟨rfl, rfl⟩, rfl, (if_pos rfl).trans (if_pos ⟨hs, hp, hi⟩), rfl⟩

theorem exec_fragmentResume (s : State) : exec (.fragmentResume s.st.sid) s = .next s.resumeParked := by
  change execFragmentResume s.st.sid s = _
  unfold execFragmentResume
  rw [focus_self]
  exact congrArg Host.Outcome.next (if_pos rfl)

theorem resume_settled (hs : s.st.status = .parked) (hf : ∀ f ∈ s.st.faults, f.settled = some true) : exec (.fragmentResume s.st.sid) s =
    .next (({ s with nextId := s.nextId + 1 } : State).modSt (fun x => { x with status := .runnable, repair := s.nextId, fresh := true })) := by
  have hopen : ¬ (s.st.status ≠ .parked ∨ s.st.faults.any (fun f => f.settled.isNone) = true) := by
    rintro (h | h)
    · exact h hs
    · obtain ⟨f, hm, hn⟩ := List.any_eq_true.1 h
      rw [hf f hm] at hn
      exact Bool.noConfusion hn
  have hdead : s.st.faults.filter (fun f => f.settled == some false) = [] := List.filter_eq_nil_iff.2 (fun f hm hn => by
    rw [hf f hm] at hn
    exact Bool.noConfusion hn)
  rw [exec_fragmentResume]
  refine congrArg Host.Outcome.next ?_
  unfold State.resumeParked
  rw [if_neg hopen]
  dsimp only
  rw [hdead]
  rfl

theorem Mask.ofLanes_one (l : Nat) : Mask.ofLanes [l] = Mask.one l := by
  unfold Mask.ofLanes
  rw [List.foldl_cons, List.foldl_nil, BitVec.zero_or]

/-- One lane of a mask alone. -/
theorem Mask.one_and {m : Mask} {l : Nat} (h : m.has l = true) : Mask.one l &&& m = Mask.one l := by
  refine BitVec.eq_of_getLsbD_eq (fun i hi => ?_)
  have hone : (Mask.one l).getLsbD i = decide (i = l) := Mask.has_one l i hi
  rw [BitVec.getLsbD_and, hone]
  by_cases hil : i = l
  · rw [hil, show m.getLsbD l = true from h, Bool.and_true]
  · rw [decide_eq_false hil, Bool.false_and]

theorem Mask.one_ne_zero {l : Nat} (h : l < 64) : Mask.one l ≠ 0 := by
  intro hz
  have hone := Mask.has_one l l h
  rw [hz, decide_eq_true rfl] at hone
  exact Bool.noConfusion (BitVec.getLsbD_zero.symm.trans hone)

theorem resume_unrecoverable {f : LaneFault} (hs : s.st.status = .parked) (ho : s.owedBank = none) (hf : s.st.faults = [f]) (hu : f.settled = some false)
    (hx : s.st.exm.has f.lane = true) : exec (.fragmentResume s.st.sid) s =
      .next ((({ s with nextId := s.nextId + 1 } : State).modSt (fun x => { x with status := .runnable, repair := s.nextId })).takeTrap .prot (Mask.ofLanes [f.lane])
        [(f.lane, faultRecord f.va f.write f.host f.spill 0x03)] TrapInfo.plain) := by
  have hl := Mask.lt_of_has hx
  have hopen : ¬ (s.st.status ≠ .parked ∨ s.st.faults.any (fun f => f.settled.isNone) = true) := by
    rw [hf, List.any_cons, List.any_nil, hu]
    exact fun h => h.elim (fun h => h hs) Bool.noConfusion
  have hdead : s.st.faults.filter (fun f => f.settled == some false) = [f] := by
    rw [hf, List.filter_cons_of_pos (by rw [hu]; rfl), List.filter_nil]
  have hexm : ¬ s.st.exm = 0 := fun hz => by
    rw [hz] at hx
    exact Bool.noConfusion (BitVec.getLsbD_zero.symm.trans hx)
  have hlive : (if Mask.ofLanes [f.lane] &&& s.st.exm = 0 then s.st.exm else Mask.ofLanes [f.lane] &&& s.st.exm) = Mask.ofLanes [f.lane] := by
    rw [Mask.ofLanes_one, Mask.one_and hx, if_neg (Mask.one_ne_zero hl)]
  have hrec : ([f].flatMap (fun g => if g.lane = 64 then (Mask.ofLanes [f.lane]).lanes.map (fun l => (l, g.protRecord)) else [(g.lane, g.protRecord)])) =
      [(f.lane, faultRecord f.va f.write f.host f.spill 0x03)] := by
    rw [List.flatMap_cons, List.flatMap_nil, List.append_nil, if_neg (Nat.ne_of_lt hl)]
    rfl
  rw [exec_fragmentResume]
  refine congrArg Host.Outcome.next ?_
  unfold State.resumeParked
  rw [if_neg hopen]
  dsimp only
  rw [hdead, ho]
  refine (if_neg Bool.noConfusion).trans ((if_neg Bool.noConfusion).trans ((if_neg hexm).trans ?_))
  change State.takeTrap _ .prot (if Mask.ofLanes [f.lane] &&& s.st.exm = 0 then s.st.exm else Mask.ofLanes [f.lane] &&& s.st.exm)
    ([f].flatMap (fun g => if g.lane = 64 then (if Mask.ofLanes [f.lane] &&& s.st.exm = 0 then s.st.exm else Mask.ofLanes [f.lane] &&& s.st.exm).lanes.map (fun l => (l, g.protRecord))
      else [(g.lane, g.protRecord)])) TrapInfo.plain = _
  rw [hlive, hrec] <;> rfl

/-- An entry that stood parked completes. -/
theorem entry_resumes {b : State} (hs : s.st.status = .entryParked) (hf : ∀ f ∈ s.st.faults, f.settled = some true) (hput : s.putBlock s.st.bank = .ok b)
    (hseg : b.segPresent s.st.pc = true) (hc : s.st.cancelAt = none)
    (hfit : ∀ l ∈ s.st.exm.lanes, (b.lane l).fb + 18 + (b.lane l).locals + 58 - b.gr.allot ≤ (b.lane l).lowres) :
    ∃ u, exec (.handlerEntryResume s.st.sid) s = .next u ∧ u.sameMem b ∧ u.st.status = .runnable ∧ u.st.pc = s.st.pc ∧ u.st.pos = 0 ∧ u.st.faults = [] ∧ u.st.bank = [] ∧
      u.gr.lanes = (b.mapLanes s.st.exm (fun _ x => x.enterHandler b.gr.allot)).gr.lanes := by
  obtain ⟨hst, -⟩ := putBlock_still s.st.bank hput
  have hopen : ¬ (s.st.sid ≠ s.st.sid ∨ s.st.status ≠ .entryParked ∨ s.st.faults.any (fun f => f.settled.isNone) = true) := by
    rintro (h | h | h)
    · exact h rfl
    · exact h hs
    · obtain ⟨f, hm, hn⟩ := List.any_eq_true.1 h
      rw [hf f hm] at hn
      exact Bool.noConfusion hn
  have halive : ¬ s.st.faults.any (fun f => f.settled == some false) = true := fun h => by
    obtain ⟨f, hm, hn⟩ := List.any_eq_true.1 h
    rw [hf f hm] at hn
    exact Bool.noConfusion hn
  have hready := completeEntry_ready hput (by rw [hst]; exact hfit) (by rw [hst, hs]; exact StreamStatus.noConfusion) (by rw [hst]; exact hseg)
  have he : exec (.handlerEntryResume s.st.sid) s = .next (b.modSt (fun x => { x with faults := [], bank := [] })).handlerStarted := by
    change execHandlerEntryResume s.st.sid s = _
    unfold execHandlerEntryResume
    rw [focus_self]
    refine congrArg Host.Outcome.next ((if_neg hopen).trans ((if_neg halive).trans hready))
  have hcb : b.st.cancelAt = none := by rw [hst]; exact hc
  refine ⟨_, he, ⟨rfl, rfl⟩, markRestart_status hcb, ?_, rfl, rfl, rfl, ?_⟩
  · exact (congrArg Stream.pc hst :)
  · rw [← hst]
    rfl
end

/-! ## The spill engine's demands (R184) -/

section
variable {s : State}

theorem touchMove_keeps {β : Type} {pi : State → β} (h : ∀ s ls ds, pi { s with lines := ls, dies := ds } = pi s) (s : State) (who : Nat) (g : Group) (write : Bool)
    (rs : List (Nat × Nat × Nat)) : pi (s.touchMove who g write rs) = pi s := by
  have hone (t : State) (va : Nat) : pi (match t.areaLoc who g 0 va write with
      | .ok loc => t.touchLine g.ctx va loc (!write) 0 0
      | .error _ => t) = pi t := by
    split
    · exact touchLine_keeps h t _ _ _ _ _ _
    · rfl
  exact foldl_keeps pi hone _ s

theorem refillWords_keeps {β : Type} {pi : State → β} (h : ∀ s t d c, pi { s with tlb := t, dies := d, cores := c } = pi s) {who l : Nat} {g : Group} {x : Lane} {lo n : Nat} :
    ∀ {t : State} {y : Lane}, s.refillWords who g l x lo n = .ok (t, y) → pi t = pi s := by
  induction n with
  | zero =>
    intro t y he
    rw [State.refillWords.eq_def] at he
    exact congrArg pi (Prod.mk.inj (Except.ok.inj he)).1.symm
  | succ k ih =>
    intro t y he
    rw [State.refillWords.eq_def] at he
    dsimp only at he
    split at he
    · exact nomatch he
    · next s1 y1 h1 =>
      cases ha : s1.areaGet who g l (g.spillVa l (lo + k)) 4 with
      | error f =>
        rw [ha] at he
        exact nomatch (he : (Except.error f : Except LaneFault (State × Lane)) = Except.ok (t, y))
      | ok r =>
        rw [ha] at he
        have ht : r.1 = t := (Prod.mk.inj (Except.ok.inj he)).1
        rw [← ht]
        exact (areaGet_keeps pi h ha).trans (ih h1)

theorem refillTo_succ (who : Nat) (g : Group) (l : Nat) (x : Lane) (need floor k : Nat) : s.refillTo who g l x need floor (k + 1) =
    if x.lowres ≤ need then .ok (s, x)
    else match s.refillWords who g l x (max (x.lowres - 32) floor) (x.lowres - max (x.lowres - 32) floor) with
      | .error f => .error f
      | .ok (s1, y) => (s1.countCore g.coreId 13 1).refillTo who g l { y with lowres := max (x.lowres - 32) floor } need floor k := by
  rfl

theorem refillTo_keeps {β : Type} {pi : State → β} (h : ∀ s t d c, pi { s with tlb := t, dies := d, cores := c } = pi s) {who l : Nat} {g : Group} {need floor : Nat} (fuel : Nat) :
    ∀ {s t : State} {x y : Lane}, s.refillTo who g l x need floor fuel = .ok (t, y) → pi t = pi s := by
  have hcount (u : State) (core src n : Nat) : pi (u.countCore core src n) = pi u := h u u.tlb u.dies _
  induction fuel with
  | zero =>
    intro s t x y he
    have he' : Except.ok (s, x) = (Except.ok (t, y) : Except LaneFault (State × Lane)) := he
    rw [(Prod.mk.inj (Except.ok.inj he')).1]
  | succ k ih =>
    intro s t x y he
    rw [refillTo_succ] at he
    split at he
    · rw [(Prod.mk.inj (Except.ok.inj he)).1]
    · split at he
      · exact nomatch he
      · next s1 y1 h1 => exact (ih he).trans ((hcount s1 _ _ _).trans (refillWords_keeps h h1))

theorem demand_served (hs : s.st.status = .waitSpill) : ∃ u, exec (.demandSpillDone s.st.sid) s = .next u ∧
    (let r := s.modSt (fun x => { x with demand := [], status := .runnable })
     u = r.serveAll s.st.demand ∧
       (∀ d y t, s.st.demand = [d] → d.spill = false → r.refillTo s.st.sid s.gr d.lane (s.lane d.lane) d.need d.bound 128 = .ok (t, y) →
         u.gr.lanes = s.gr.lanes.set d.lane y ∧ u.st.status = .runnable)) := by
  have he : exec (.demandSpillDone s.st.sid) s = .next ((s.modSt (fun x => { x with demand := [], status := .runnable })).serveAll s.st.demand) := by
    change execDemandSpillDone s.st.sid s = _
    unfold execDemandSpillDone
    rw [focus_self]
    exact congrArg Host.Outcome.next (if_neg (fun h => h.elim (fun h => h rfl) (fun h => h hs)))
  refine ⟨_, he, rfl, fun d y t hd hsp hr => ?_⟩
  have hr' : (s.modSt (fun x => { x with demand := [], status := .runnable })).refillTo
      (s.modSt (fun x => { x with demand := [], status := .runnable })).st.sid (s.modSt (fun x => { x with demand := [], status := .runnable })).gr d.lane
      ((s.modSt (fun x => { x with demand := [], status := .runnable })).lane d.lane) d.need d.bound 128 = .ok (t, y) := hr
  have hserve : (s.modSt (fun x => { x with demand := [], status := .runnable })).serve d = t.modGr (fun g => { g with lanes := g.lanes.set d.lane y }) := by
    unfold State.serve
    dsimp only
    rw [hsp, if_neg Bool.noConfusion, hr']
    exact congrArg (fun z => t.modGr (fun g => { g with lanes := g.lanes.set d.lane z })) (if_neg Bool.noConfusion)
  have hgr : t.gr = (s.modSt (fun x => { x with demand := [], status := .runnable })).gr := refillTo_keeps (pi := State.gr) (fun _ _ _ _ => rfl) 128 hr'
  have hstat : t.st.status = (s.modSt (fun x => { x with demand := [], status := .runnable })).st.status :=
    refillTo_keeps (pi := fun t : State => t.st.status) (fun _ _ _ _ => rfl) 128 hr'
  rw [hd]
  unfold State.serveAll
  dsimp only
  rw [List.foldl_cons, List.foldl_nil, hserve]
  refine ⟨?_, ?_⟩
  · refine (touchMove_keeps (pi := fun t : State => t.gr.lanes) (fun _ _ _ => rfl) _ _ _ _ _).trans ((touchMove_keeps (pi := fun t : State => t.gr.lanes) (fun _ _ _ => rfl) _ _ _ _ _).trans ?_)
    exact congrArg (fun g : Group => g.lanes.set d.lane y) hgr
  · exact (touchMove_keeps (pi := fun t : State => t.st.status) (fun _ _ _ => rfl) _ _ _ _ _).trans ((touchMove_keeps (pi := fun t : State => t.st.status) (fun _ _ _ => rfl) _ _ _ _ _).trans hstat)
end

/-! ## The watchdog of a handler (R306, R308) -/

section
variable {s : State}

theorem clearSysFlags_out (s : State) (uid : Nat) : (s.clearSysFlags uid).out = s.out := by
  have hone (t : State) (w : Nat × Nat × Stream) : (if hdrSetB w.2.2.hdr < 12 then t.modStream w.2.2.sid (fun x =>
      { x with flags := x.flags.modify (hdrSetB w.2.2.hdr) (· - 1) }) else t).out = t.out := by
    split <;> rfl
  exact foldl_keeps State.out hone _ s

theorem mem_checkSyscall_out {m : HostMsg} (h : m ∈ s.out) : m ∈ s.checkSyscall.out := by
  unfold State.checkSyscall
  split
  · exact h
  · split
    · exact h
    · split
      · exact h
      · exact List.mem_append_left _ ((clearSysFlags_out s s.un.uid).symm ▸ h)

theorem mem_killGroup_out {m : HostMsg} (h : m ∈ s.out) : m ∈ s.killGroup.out := by
  have hcut : m ∈ s.groupCut.out := by
    have hflush (t : State) (l : List Nat) : (l.foldl State.flushHeld t).out = t.out := foldl_flushHeld_keeps (pi := State.out) (fun _ _ _ => rfl) (fun _ _ _ _ => rfl) t l
    exact (hflush _ _).symm ▸ h
  rw [killGroup_eq]
  split
  · exact mem_checkSyscall_out hcut
  · exact mem_checkSyscall_out hcut

theorem watchdog_doubles (hp : s.st.privileged = true) (hk : s.st.kind = .home) (hc : s.confidential s.gr.ctx = false) :
    ∃ u, exec (.watchdogExpiry s.st.sid) s = .next u ∧ u.sameMem s ∧ u.st = Stream.none ∧ u.gr.alive = 0 ∧ (∀ x ∈ u.streams, x.gid ≠ s.gr.gid) ∧
      .doubleRecord s.gr.ctx s.st.trap.cause.toNat s.st.trap.at_ 0x13 s.instrPc ∈ u.out ∧ (s.gr.alive ≠ 0 → .groupEnd s.gr.gid ∈ u.events) := by
  have he : exec (.watchdogExpiry s.st.sid) s =
      .next ((s.say (.doubleRecord s.gr.ctx s.st.trap.cause.toNat s.st.trap.at_ 0x13 s.instrPc)).launchStatus s.un.launch 3 (BitVec.ofNat 8 s.st.trap.cause.toNat)).killGroup := by
    change execWatchdogExpiry s.st.sid s = _
    unfold execWatchdogExpiry
    rw [focus_self]
    refine congrArg Host.Outcome.next ((if_pos ⟨rfl, hp⟩).trans ?_)
    rw [State.doubleIn, State.double, hk, hc]
    rfl
  have hout : .doubleRecord s.gr.ctx s.st.trap.cause.toNat s.st.trap.at_ 0x13 s.instrPc ∈
      ((s.say (.doubleRecord s.gr.ctx s.st.trap.cause.toNat s.st.trap.at_ 0x13 s.instrPc)).launchStatus s.un.launch 3 (BitVec.ofNat 8 s.st.trap.cause.toNat)).out :=
    List.mem_append_right _ (List.mem_singleton.2 rfl)
  have hmem : ((s.say (.doubleRecord s.gr.ctx s.st.trap.cause.toNat s.st.trap.at_ 0x13 s.instrPc)).launchStatus s.un.launch 3 (BitVec.ofNat 8 s.st.trap.cause.toNat)).sameMem s := ⟨rfl, rfl⟩
  have hgr : ((s.say (.doubleRecord s.gr.ctx s.st.trap.cause.toNat s.st.trap.at_ 0x13 s.instrPc)).launchStatus s.un.launch 3 (BitVec.ofNat 8 s.st.trap.cause.toNat)).gr = s.gr := rfl
  generalize (s.say (.doubleRecord s.gr.ctx s.st.trap.cause.toNat s.st.trap.at_ 0x13 s.instrPc)).launchStatus s.un.launch 3 (BitVec.ofNat 8 s.st.trap.cause.toNat) = t at he hout hmem hgr
  refine ⟨_, he, sameMem_trans _ _ s (killGroup_mem t) hmem, killGroup_st t, congrArg Group.alive (killGroup_gr t), ?_, mem_killGroup_out hout, fun ha => ?_⟩
  · rw [← hgr]
    exact killGroup_streams t
  · rw [← hgr]
    exact groupEnd_mem_killGroup (by rw [hgr]; exact ha)
end

/-! ## The background moves of the spill engine (R183) -/

section
variable {s : State} {l : Nat}

theorem areaPut_near {who lane va v n pa : Nat} {g : Group} (hw : s.window g.ctx va = none) (hloc : s.areaLoc who g lane va true = .ok (.dev pa)) :
    s.areaPut who g lane va v n = .ok ((s.areaWalk g va).putN (.dev pa) v n) := by
  unfold State.areaPut
  rw [hw, hloc]
  exact if_neg (fun h => Bool.noConfusion h.2.1)

theorem areaGet_near {who lane va n pa : Nat} {g : Group} (hw : s.window g.ctx va = none) (hloc : s.areaLoc who g lane va false = .ok (.dev pa)) :
    s.areaGet who g lane va n = .ok (s.areaWalk g va, s.getN (.dev pa) n) := by
  unfold State.areaGet
  rw [hw, hloc]
  exact if_neg (fun h => Bool.noConfusion h.2.1)

/-- The lowest resident word of a lane spilled. -/
def State.wordSpilled (s : State) (l pa : Nat) : State :=
  let x := s.gr.lanes.getD l Lane.start
  (s.areaWalk s.gr (s.gr.spillVa l x.lowres)).putN (.dev pa) (x.word s.gr.allot x.lowres).toNat 4

theorem bgSpill_one {pa : Nat} (hw : s.window s.gr.ctx (s.gr.spillVa l (s.gr.lanes.getD l Lane.start).lowres) = none)
    (hroom : s.gr.allot - (s.gr.lanes.getD l Lane.start).resident < 64) (hfb : (s.gr.lanes.getD l Lane.start).fb = (s.gr.lanes.getD l Lane.start).lowres + 1)
    (hloc : s.areaLoc s.gr.gid s.gr l (s.gr.spillVa l (s.gr.lanes.getD l Lane.start).lowres) true = .ok (.dev pa)) :
    s.bgSpill s.gr l = ((((s.wordSpilled l pa).touchMove s.gr.gid s.gr true [(l, (s.gr.lanes.getD l Lane.start).lowres, (s.gr.lanes.getD l Lane.start).fb)]).countCore s.gr.coreId 12 1).modGroup
      s.gr.gid (fun h => { h with lanes := h.lanes.modify l (fun y => { y with lowres := (s.gr.lanes.getD l Lane.start).fb }) })) := by
  unfold State.bgSpill State.wordSpilled
  dsimp only
  generalize s.gr.lanes.getD l Lane.start = x at hw hroom hfb hloc
  have hmin : min (x.lowres + 32) x.fb = x.fb := by omega
  have hone : min 32 (x.fb - x.lowres) = 1 := by omega
  have hspill : s.spillWords s.gr.gid s.gr l x x.lowres 1 = .ok ((s.areaWalk s.gr (s.gr.spillVa l x.lowres)).putN (.dev pa) (x.word s.gr.allot x.lowres).toNat 4) := by
    rw [State.spillWords, State.spillWords]
    exact areaPut_near hw hloc
  rw [if_pos ⟨hroom, by omega⟩, hone, hmin, hspill]

theorem moved_sameMem (t : State) (core src n gid : Nat) (f : Group → Group) : ((t.countCore core src n).modGroup gid f).sameMem t := ⟨rfl, rfl⟩

theorem lanes_moved {t : State} (h : t.gr = s.gr) (f : List Lane → List Lane) :
    ((t.countCore s.gr.coreId 12 1).modGroup s.gr.gid (fun g => { g with lanes := f g.lanes })).gr.lanes = f s.gr.lanes ∧
      ((t.countCore s.gr.coreId 13 1).modGroup s.gr.gid (fun g => { g with lanes := f g.lanes })).gr.lanes = f s.gr.lanes := by
  have hfield (g : Group) (hg : g = s.gr) : (if g.gid = s.gr.gid then { g with lanes := f g.lanes } else g).lanes = f s.gr.lanes := by
    rw [hg, if_pos rfl]
  exact ⟨hfield t.gr h, hfield t.gr h⟩

theorem backgroundSpill_moves {pa : Nat} (hlive : s.gr.live = true) (hl : l < s.gr.lanes.length)
    (hw : ∀ k, s.window s.gr.ctx (s.gr.spillVa l k) = none) (hroom : s.gr.allot - (s.gr.lanes.getD l Lane.start).resident < 64)
    (hfb : (s.gr.lanes.getD l Lane.start).fb = (s.gr.lanes.getD l Lane.start).lowres + 1)
    (hloc : s.areaLoc s.gr.gid s.gr l (s.gr.spillVa l (s.gr.lanes.getD l Lane.start).lowres) true = .ok (.dev pa)) (hpa : pa + 4 ≤ Config.hbmBytes) :
    ∃ u, exec (.backgroundSpill s.gr.gid l) s = .next u ∧
      u.getN (.dev pa) 4 = ((s.gr.lanes.getD l Lane.start).word s.gr.allot (s.gr.lanes.getD l Lane.start).lowres).toNat ∧
      u.gr.lanes = s.gr.lanes.set l { s.gr.lanes.getD l Lane.start with lowres := (s.gr.lanes.getD l Lane.start).fb } ∧
      ∀ y : Loc, y.plain 1 → ¬ y.among (.dev pa) 4 → u.byteAt y = s.byteAt y := by
  have hplain : (Loc.dev pa).plain 4 := hpa
  have he : exec (.backgroundSpill s.gr.gid l) s = .next (s.bgSpill s.gr l) := by
    change execBackgroundSpill s.gr.gid l s = _
    unfold execBackgroundSpill
    rw [group?_self s hlive]
  rw [bgSpill_one (hw _) hroom hfb hloc] at he
  have hwalkmem : (s.areaWalk s.gr (s.gr.spillVa l (s.gr.lanes.getD l Lane.start).lowres)).sameMem s :=
    ⟨areaWalk_keeps State.mem (fun _ _ _ _ => rfl) s _ _, areaWalk_keeps State.host (fun _ _ _ _ => rfl) s _ _⟩
  have hgr : (s.wordSpilled l pa).gr = s.gr :=
    (putN_plain_keeps State.gr (fun _ _ _ => rfl) _ hplain _).trans (areaWalk_keeps State.gr (fun _ _ _ _ => rfl) s _ _)
  have hget : (s.wordSpilled l pa).getN (.dev pa) 4 = ((s.gr.lanes.getD l Lane.start).word s.gr.allot (s.gr.lanes.getD l Lane.start).lowres).toNat :=
    (getN_putN _ _ _ _ hplain).trans (Nat.mod_eq_of_lt (BitVec.isLt _))
  have hbyte : ∀ y : Loc, y.plain 1 → ¬ y.among (.dev pa) 4 → (s.wordSpilled l pa).byteAt y = s.byteAt y := fun y hy ho =>
    ((byteAt_putN _ _ _ _ hplain).2 y hy ho).trans (byteAt_plain_congr hy hwalkmem.1 hwalkmem.2)
  generalize s.wordSpilled l pa = v at he hgr hget hbyte
  have hlanes : s.gr.lanes.modify l (fun y => { y with lowres := (s.gr.lanes.getD l Lane.start).fb }) =
      s.gr.lanes.set l { s.gr.lanes.getD l Lane.start with lowres := (s.gr.lanes.getD l Lane.start).fb } := by
    rw [List.modify_eq_set_getElem?, List.getElem?_eq_getElem hl, List.getD_eq_getElem _ _ hl]
    rfl
  generalize s.gr.lanes.getD l Lane.start = x at he hget hlanes
  have hmove := (touchMove_keeps (pi := State.gr) (fun _ _ _ => rfl) v s.gr.gid s.gr true [(l, x.lowres, x.fb)]).trans hgr
  have hmem : (v.touchMove s.gr.gid s.gr true [(l, x.lowres, x.fb)]).sameMem v :=
    ⟨touchMove_keeps (pi := State.mem) (fun _ _ _ => rfl) v _ _ _ _, touchMove_keeps (pi := State.host) (fun _ _ _ => rfl) v _ _ _ _⟩
  generalize v.touchMove s.gr.gid s.gr true [(l, x.lowres, x.fb)] = t at he hmove hmem
  have hkept := sameMem_trans _ _ v (moved_sameMem t s.gr.coreId 12 1 s.gr.gid (fun h => { h with lanes := h.lanes.modify l (fun y => { y with lowres := x.fb }) })) hmem
  exact ⟨_, he, (getN_plain_congr hplain hkept.1 hkept.2).trans hget, (lanes_moved hmove (fun ls => ls.modify l (fun y => { y with lowres := x.fb }))).1.trans hlanes,
    fun y hy ho => (byteAt_plain_congr hy hkept.1 hkept.2).trans (hbyte y hy ho)⟩

/-! A refill puts each word back at its place in the column. -/

/-- A lane with n words, from word lo on, put at their places. -/
def Lane.filled (x : Lane) (allot lo : Nat) (w : Nat → Word) (n : Nat) : Lane := (List.range n).foldl (fun y k => y.putWord allot (lo + k) (w k)) x

/-- A lane with its 32 words below the resident ones back in the column. -/
def Lane.refilled (x : Lane) (allot : Nat) (w : Nat → Word) : Lane := { x.filled allot (x.lowres - 32) w 32 with lowres := x.lowres - 32 }

theorem filled_succ (x : Lane) (allot lo : Nat) (w : Nat → Word) (n : Nat) : x.filled allot lo w (n + 1) = (x.filled allot lo w n).putWord allot (lo + n) (w n) := by
  unfold Lane.filled
  rw [List.range_succ, List.foldl_append, List.foldl_cons, List.foldl_nil]

theorem filled_col (x : Lane) (allot lo : Nat) (w : Nat → Word) (n : Nat) : { x.filled allot lo w n with col := x.col } = x := by
  induction n with
  | zero => rfl
  | succ k ih =>
    rw [filled_succ]
    exact ih

theorem atPos_filled_ne (x : Lane) (allot lo : Nat) (w : Nat → Word) (n pos : Nat) (h : ∀ k, k < n → pos ≠ (lo + k) % allot) : (x.filled allot lo w n).atPos pos = x.atPos pos := by
  induction n with
  | zero => rfl
  | succ k ih =>
    rw [filled_succ, atPos_putWord, if_neg (h k (Nat.lt_succ_self k)), ih (fun j hj => h j (Nat.lt_succ_of_lt hj))]

theorem word_filled (x : Lane) {allot : Nat} (lo : Nat) (w : Nat → Word) {n k : Nat} (hk : k < n) (hn : n ≤ allot) : (x.filled allot lo w n).word allot (lo + k) = w k := by
  induction n with
  | zero => exact absurd hk (Nat.not_lt_zero k)
  | succ j ih =>
    unfold Lane.word
    rw [filled_succ, atPos_putWord]
    by_cases hj : k = j
    · rw [hj, if_pos rfl]
    · have hne : ¬ (lo + k) % allot = (lo + j) % allot := fun h => by
        have hmod : (lo + k) ≡ (lo + j) [MOD allot] := h
        have heq := Nat.ModEq.eq_of_lt_of_lt (Nat.ModEq.add_left_cancel' lo hmod) (by omega) (by omega)
        exact hj heq
      rw [if_neg hne]
      exact ih (by omega) (by omega)

theorem areaWalk_hit {g : Group} {va : Nat} (h : g.uid = 0 ∨ (s.tlbHit g.coreId g.ctx va).isSome = true) : s.areaWalk g va = s := by
  unfold State.areaWalk
  by_cases hu : g.uid = 0
  · exact if_pos hu
  · rw [if_neg hu]
    unfold State.noteWalk
    rw [h.resolve_left hu]
    exact if_pos rfl

theorem refillWords_near {g : Group} {x : Lane} {who lo : Nat} {pa : Nat → Nat} (n : Nat) (hw : ∀ k, s.window g.ctx (g.spillVa l k) = none)
    (hloc : ∀ k, k < n → s.areaLoc who g l (g.spillVa l (lo + k)) false = .ok (.dev (pa k))) (hhit : ∀ k, k < n → s.areaWalk g (g.spillVa l (lo + k)) = s) :
    s.refillWords who g l x lo n = .ok (s, x.filled g.allot lo (fun k => BitVec.ofNat 32 (s.getN (.dev (pa k)) 4)) n) := by
  induction n with
  | zero => rfl
  | succ j ih =>
    rw [State.refillWords, ih (fun k hk => hloc k (Nat.lt_succ_of_lt hk)) (fun k hk => hhit k (Nat.lt_succ_of_lt hk))]
    dsimp only
    rw [areaGet_near (hw _) (hloc j (Nat.lt_succ_self j)), hhit j (Nat.lt_succ_self j), filled_succ]
    rfl

theorem bgRefill_words {pa : Nat → Nat} (hw : ∀ k, s.window s.gr.ctx (s.gr.spillVa l k) = none)
    (hroom : (s.gr.lanes.getD l Lane.start).fb - (s.gr.lanes.getD l Lane.start).lowres < 64) (hlow : 32 ≤ (s.gr.lanes.getD l Lane.start).lowres)
    (hallot : 96 ≤ s.gr.allot - (s.gr.lanes.getD l Lane.start).resident)
    (hloc : ∀ k, k < 32 → s.areaLoc s.gr.gid s.gr l (s.gr.spillVa l ((s.gr.lanes.getD l Lane.start).lowres - 32 + k)) false = .ok (.dev (pa k)))
    (hhit : s.gr.uid = 0 ∨ ∀ k, k < 32 → (s.tlbHit s.gr.coreId s.gr.ctx (s.gr.spillVa l ((s.gr.lanes.getD l Lane.start).lowres - 32 + k))).isSome = true) :
    s.bgRefill s.gr l = ((s.touchMove s.gr.gid s.gr false [(l, (s.gr.lanes.getD l Lane.start).lowres - 32, (s.gr.lanes.getD l Lane.start).lowres)]).countCore s.gr.coreId 13 1).modGroup
      s.gr.gid (fun h => { h with lanes := h.lanes.set l ((s.gr.lanes.getD l Lane.start).refilled s.gr.allot (fun k => BitVec.ofNat 32 (s.getN (.dev (pa k)) 4))) }) := by
  unfold State.bgRefill Lane.refilled
  dsimp only
  generalize s.gr.lanes.getD l Lane.start = x at hroom hlow hallot hloc hhit
  have hcount : x.lowres - (x.lowres - 32) = 32 := by omega
  have hwalk : ∀ k, k < 32 → s.areaWalk s.gr (s.gr.spillVa l (x.lowres - 32 + k)) = s := fun k hk => areaWalk_hit (hhit.imp_right (fun h => h k hk))
  rw [if_neg (by omega), if_pos ⟨hroom, by omega, hallot⟩, hcount, refillWords_near 32 hw hloc hwalk]

theorem backgroundRefill_moves {pa : Nat → Nat} (hlive : s.gr.live = true)
    (hw : ∀ k, s.window s.gr.ctx (s.gr.spillVa l k) = none)
    (hroom : (s.gr.lanes.getD l Lane.start).fb - (s.gr.lanes.getD l Lane.start).lowres < 64) (hlow : 32 ≤ (s.gr.lanes.getD l Lane.start).lowres)
    (hallot : 96 ≤ s.gr.allot - (s.gr.lanes.getD l Lane.start).resident)
    (hloc : ∀ k, k < 32 → s.areaLoc s.gr.gid s.gr l (s.gr.spillVa l ((s.gr.lanes.getD l Lane.start).lowres - 32 + k)) false = .ok (.dev (pa k)))
    (hhit : s.gr.uid = 0 ∨ ∀ k, k < 32 → (s.tlbHit s.gr.coreId s.gr.ctx (s.gr.spillVa l ((s.gr.lanes.getD l Lane.start).lowres - 32 + k))).isSome = true) :
    ∃ (u : State) (y : Lane), exec (.backgroundRefill s.gr.gid l) s = .next u ∧ u.sameMem s ∧
      u.gr.lanes = s.gr.lanes.set l { y with lowres := (s.gr.lanes.getD l Lane.start).lowres - 32 } ∧ { y with col := (s.gr.lanes.getD l Lane.start).col } = s.gr.lanes.getD l Lane.start ∧
      (∀ k, k < 32 → y.word s.gr.allot ((s.gr.lanes.getD l Lane.start).lowres - 32 + k) = BitVec.ofNat 32 (s.getN (.dev (pa k)) 4)) ∧
      ∀ pos, (∀ k, k < 32 → pos ≠ ((s.gr.lanes.getD l Lane.start).lowres - 32 + k) % s.gr.allot) → y.atPos pos = (s.gr.lanes.getD l Lane.start).atPos pos := by
  have he : exec (.backgroundRefill s.gr.gid l) s = .next (s.bgRefill s.gr l) := by
    change execBackgroundRefill s.gr.gid l s = _
    unfold execBackgroundRefill
    rw [group?_self s hlive]
  rw [bgRefill_words hw hroom hlow hallot hloc hhit] at he
  generalize s.gr.lanes.getD l Lane.start = x at he hallot
  have hmove : (s.touchMove s.gr.gid s.gr false [(l, x.lowres - 32, x.lowres)]).gr = s.gr := touchMove_keeps (pi := State.gr) (fun _ _ _ => rfl) s _ _ _ _
  have hmem : (s.touchMove s.gr.gid s.gr false [(l, x.lowres - 32, x.lowres)]).sameMem s :=
    ⟨touchMove_keeps (pi := State.mem) (fun _ _ _ => rfl) s _ _ _ _, touchMove_keeps (pi := State.host) (fun _ _ _ => rfl) s _ _ _ _⟩
  generalize s.touchMove s.gr.gid s.gr false [(l, x.lowres - 32, x.lowres)] = t at he hmove hmem
  exact ⟨_, x.filled s.gr.allot (x.lowres - 32) (fun k => BitVec.ofNat 32 (s.getN (.dev (pa k)) 4)) 32, he, hmem,
    (lanes_moved hmove (fun ls => ls.set l (x.refilled s.gr.allot (fun k => BitVec.ofNat 32 (s.getN (.dev (pa k)) 4))))).2, filled_col _ _ _ _ _,
    fun k hk => word_filled _ _ _ hk (by omega), fun pos hp => atPos_filled_ne _ _ _ _ _ _ hp⟩
end

/-- Settles O58: the clause fetch, promotion, resumption, the spill engine's moves and a handler's watchdog, each by its own lemma. -/
theorem pathEvents : Obligations.PathEvents := by
  refine ⟨?_, fun s _ => ⟨promotes, resume_settled, fun f => resume_unrecoverable, fun b => entry_resumes, demand_served, fun hp hk _ hc => watchdog_doubles hp hk hc⟩, ?_⟩
  · intro s o e h q enter hx hk hp hb hs hc hm ho
    have hsq : (s.inSlot o).st.status = .runnable := hs
    refine ⟨fun hlong hst => clauseFetch_illegal hx hk hb ho hlong hst, fun hfit => ⟨fun hst hw => ?_, fun hst hw => ?_, fun hst hj ha hd hf hcv hw => ?_⟩, rfl, rfl, rfl, rfl⟩
    · rw [clauseFetch_enters hx hk hb ho hfit hst, enterClause_enters (s := s.inSlot o) (h := o.header s.st.pc) hc hsq hm hw]
      change _ = Host.Outcome.next (enter (if hdrMark (o.header s.st.pc) = true then (s.inSlot o).markRestart else s.inSlot o))
      by_cases hmark : hdrMark (o.header s.st.pc) = true
      · rw [if_pos hmark] <;> rfl
      · rw [if_neg hmark] <;> rfl
    · rw [clauseFetch_enters hx hk hb ho hfit hst, enterClause_waits (s := s.inSlot o) (h := o.header s.st.pc) hc hsq hm hw]
      rfl
    · rw [clauseFetch_converges hx hk hp hb ho hfit hst hj ha hd hf hcv,
        enterClause_marked (s := (s.inSlot o).modSt (fun x => { x with stack := [], exm := x.exm ||| (e.mask &&& x.base) })) (h := o.header s.st.pc) hc hsq hm hw]
      rfl
  · intro s l pa x hlive hl hw
    exact ⟨fun hroom hfb hloc hpa => backgroundSpill_moves hlive hl hw hroom hfb hloc hpa, fun hroom hlow hallot hloc hhit => backgroundRefill_moves hlive hw hroom hlow hallot hloc hhit⟩

end Sys2Proof.Machine
end

section
/-!
Saving, stopping, restarting and tearing down: O59.
-/
namespace Sys2Proof.Machine

/-! ## What the words of a save leave as it was -/

/-- A view of the state that sees neither bytes nor translations. -/
structure AreaBlind {β : Type} (pi : State → β) : Prop where
  bytes : ∀ s l v, pi (s.putByte l v) = pi s
  walks : ∀ s t d c, pi { s with tlb := t, dies := d, cores := c } = pi s
  lines : ∀ s ls ds, pi { s with lines := ls, dies := ds } = pi s

section
variable {β : Type} {pi : State → β} {s : State}

theorem putN_view (h : ∀ s l v, pi (s.putByte l v) = pi s) (s : State) (l : Loc) (v n : Nat) : pi (s.putN l v n) = pi s := by
  induction n with
  | zero => rfl
  | succ k ih => exact (h _ _ _).trans ih

theorem areaPut_view (h : AreaBlind pi) {who lane va v n : Nat} {g : Group} {u : State} (hu : s.areaPut who g lane va v n = .ok u) : pi u = pi s := by
  unfold State.areaPut at hu
  split at hu
  · cases ha : s.areaAnswer g lane va true v n with
    | error f =>
      rw [ha] at hu
      exact nomatch (hu : (Except.error f : Except LaneFault State) = Except.ok u)
    | ok w =>
      rw [ha] at hu
      have he : s = u := Except.ok.inj hu
      rw [he]
  · split at hu
    · exact nomatch hu
    · rw [← Except.ok.inj hu, putN_view h.bytes, areaWalk_keeps pi h.walks]

theorem touchArea_view (h : AreaBlind pi) (s : State) (who : Nat) (g : Group) (write : Bool) (vas : List Nat) : pi (s.touchArea who g write vas) = pi s := by
  have hone (t : State) (va : Nat) : pi (match t.areaLoc who g 0 va write with
      | .ok loc => t.touchLine g.ctx va loc (!write) 0 0
      | .error _ => t) = pi t := by
    split
    · exact touchLine_keeps h.lines t _ _ _ _ _ _
    · rfl
  exact foldl_keeps pi hone _ s

theorem spillEntries_view (h : AreaBlind pi) {i : Nat} {es : List PathEntry} : ∀ {u : State}, s.spillEntries i es = .ok u → pi u = pi s := by
  induction es with
  | nil =>
    intro u hu
    rw [State.spillEntries] at hu
    rw [Except.ok.inj hu]
  | cons e r ih =>
    intro u hu
    rw [State.spillEntries] at hu
    split at hu
    · exact nomatch hu
    · next s1 h1 =>
      dsimp only at hu
      split at hu
      · exact nomatch hu
      · next s2 h2 =>
        cases h3 : s2.areaPut s2.st.sid s2.gr s2.st.exm.lowest (s1.entryVa (i + r.length) + 16) (e.bits / 2 ^ 128) 16 with
        | error f =>
          rw [h3] at hu
          exact nomatch (hu : (Except.error f : Except LaneFault State) = Except.ok u)
        | ok t =>
          rw [h3] at hu
          rw [← Except.ok.inj (hu : (Except.ok (t.touchArea t.st.sid t.gr true [s1.entryVa (i + r.length)]) : Except LaneFault State) = Except.ok u), touchArea_view h,
            areaPut_view h h3, areaPut_view h h2, ih h1]

theorem spillWords_view (h : AreaBlind pi) {who l lo n : Nat} {g : Group} {x : Lane} : ∀ {u : State}, s.spillWords who g l x lo n = .ok u → pi u = pi s := by
  induction n with
  | zero =>
    intro u hu
    rw [State.spillWords] at hu
    rw [Except.ok.inj hu]
  | succ k ih =>
    intro u hu
    rw [State.spillWords] at hu
    split at hu
    · exact nomatch hu
    · next s1 h1 => exact (areaPut_view h hu).trans (ih h1)

theorem spillLanes_view (h : AreaBlind pi) {ls : List (Group × Nat)} : ∀ {s u : State}, s.spillLanes ls = .ok u → pi u = pi s := by
  induction ls with
  | nil =>
    intro s u hu
    rw [State.spillLanes] at hu
    rw [Except.ok.inj hu]
  | cons p r ih =>
    intro s u hu
    obtain ⟨g, l⟩ := p
    rw [State.spillLanes] at hu
    split at hu
    · exact nomatch hu
    · next t ht => exact (ih hu).trans (spillWords_view h ht)

theorem readBlock_view (h : AreaBlind pi) {u : State} {ws : List (Nat × Word)} (hu : s.readBlock = .ok (u, ws)) : pi u = pi s := by
  unfold State.readBlock at hu
  split at hu
  · next t ws' ht =>
    rw [← (Prod.mk.inj (Except.ok.inj hu)).1]
    exact getBlock_keeps pi h.walks _ ht
  · split at hu
    · rw [(Prod.mk.inj (Except.ok.inj hu)).1]
    · exact nomatch hu

/-- The save of one stream that succeeds: its stack is written, then its save block is read. -/
theorem suspendAll_single_ok {i : Nat} {p : State × List (Nat × List (Nat × Word))} (hu : s.suspendAll [i] = .ok p) :
    ∃ s2 b, ((s.focus i).placeRestart.modSt Stream.suspend).spillStack = .ok s2 ∧ s2.readBlock = .ok (p.1, b) := by
  delta State.suspendAll at hu
  dsimp only [List.brecOn, List.brecOn.go] at hu
  delta State.suspendAll._f at hu
  dsimp only at hu
  split at hu
  · exact nomatch hu
  · next s2 h2 =>
    split at hu
    · exact nomatch hu
    · next s3 b h3 =>
      have hp : (s3, [(i, b)]) = p := Except.ok.inj hu
      exact ⟨s2, b, h2, by rw [← hp, h3]⟩

/-- The save of the one stream that issues. -/
theorem suspendAll_one (h : AreaBlind pi) (hst : ∀ s x, pi { s with st := x } = pi s) {u : State} {bs : List (Nat × List (Nat × Word))}
    (hu : s.suspendAll [s.st.sid] = .ok (u, bs)) : pi u = pi s := by
  have hplace : pi (s.placeRestart.modSt Stream.suspend) = pi s := by
    refine (hst _ _).trans ?_
    unfold State.placeRestart
    split
    · exact hst s _
    · rfl
  obtain ⟨s2, b, h2, h3⟩ := suspendAll_single_ok hu
  rw [focus_self] at h2
  rw [readBlock_view h h3, ← hplace]
  unfold State.spillStack at h2
  split at h2
  · exact nomatch h2
  · next s1 h1 =>
    rw [← Except.ok.inj h2]
    exact (hst _ _).trans (spillEntries_view h h1)
end

/-! ## Saving a unit (R312, R313, R374) -/

/-- The number of the running unit, and whether it lives. -/
def State.unitTag (s : State) : Nat × Bool := (s.un.uid, s.un.live)

section
variable {s : State}

theorem putByte_unit (s : State) (l : Loc) (v : Byte) : (s.putByte l v).un.uid = s.un.uid ∧ (s.putByte l v).un.live = s.un.live := by
  cases l with
  | host a => exact ⟨rfl, rfl⟩
  | enc key a => exact ⟨rfl, rfl⟩
  | dev a =>
    unfold State.putByte
    dsimp only
    split
    · exact ⟨rfl, rfl⟩
    · split
      · unfold State.putChip
        split
        · split
          · exact ⟨rfl, rfl⟩
          · split <;> exact ⟨rfl, rfl⟩
        · split <;> exact ⟨rfl, rfl⟩
        · split <;> exact ⟨rfl, rfl⟩
      · exact ⟨rfl, rfl⟩

theorem unitTag_putByte (s : State) (l : Loc) (v : Byte) : (s.putByte l v).unitTag = s.unitTag := Prod.ext (putByte_unit s l v).1 (putByte_unit s l v).2

theorem areaBlind_unitTag : AreaBlind State.unitTag := ⟨unitTag_putByte, fun _ _ _ _ => rfl, fun _ _ _ => rfl⟩

theorem unit?_of_tag {uid : Nat} (h : s.unitTag = (uid, true)) : s.unit? uid = some s.un := by
  obtain ⟨hu, hl⟩ := Prod.mk.inj h
  exact List.find?_cons_of_pos (by rw [hu, hl, beq_self_eq_true]; rfl)

theorem removeGroup_saved (s : State) (gid : Nat) : (s.removeGroup gid).saved = s.saved := by
  unfold State.removeGroup
  dsimp only
  split <;> split <;> rfl

/-- What stands once a saved unit has left its cores. -/
theorem unitLeft {s5 : State} {gs : List Group} {u1 : UnitRec} {fetches : List Cmd} {m : HostMsg} {uid : Nat} (hu : u1.uid = uid) (hv : ∃ v ∈ s5.saved, v.unit.uid = uid) (who : Nat) :
    m ∈ (((fetches.foldl State.wakeFetch (((gs.foldl (fun t g => t.removeGroup g.gid) s5).removeUnit u1).forgetFar who)).say m).retryPlacement).out ∧
    (((fetches.foldl State.wakeFetch (((gs.foldl (fun t g => t.removeGroup g.gid) s5).removeUnit u1).forgetFar who)).say m).retryPlacement).unit? uid = none ∧
    ∃ v ∈ (((fetches.foldl State.wakeFetch (((gs.foldl (fun t g => t.removeGroup g.gid) s5).removeUnit u1).forgetFar who)).say m).retryPlacement).saved, v.unit.uid = uid := by
  have hgone := removeUnit_gone (gs.foldl (fun t g => t.removeGroup g.gid) s5) u1
  have hsaved : ((gs.foldl (fun t g => t.removeGroup g.gid) s5).removeUnit u1).saved = s5.saved :=
    (removeUnit_keeps (pi := State.saved) (fun _ _ _ _ => rfl) _ u1).trans (foldl_keeps State.saved (fun t g => removeGroup_saved t g.gid) gs s5)
  generalize (gs.foldl (fun t g => t.removeGroup g.gid) s5).removeUnit u1 = w at hgone hsaved ⊢
  have hforget : (w.forgetFar who).unit? u1.uid = none ∧ (w.forgetFar who).saved = s5.saved := ⟨hgone, hsaved⟩
  generalize w.forgetFar who = x at hforget ⊢
  have hwake : (fetches.foldl State.wakeFetch x).unit? u1.uid = none ∧ (fetches.foldl State.wakeFetch x).saved = s5.saved :=
    ⟨(foldl_keeps (fun t : State => t.unit? u1.uid) (fun t c => wakeFetch_keeps (pi := fun t : State => t.unit? u1.uid) (fun _ _ _ => rfl) t c) fetches x).trans hforget.1,
      (foldl_keeps State.saved (fun t c => wakeFetch_keeps (pi := State.saved) (fun _ _ _ => rfl) t c) fetches x).trans hforget.2⟩
  generalize fetches.foldl State.wakeFetch x = y at hwake ⊢
  have hretry {γ : Type} (pi : State → γ) (h : ∀ s ev, pi { s with events := ev } = pi s) : pi (y.say m).retryPlacement = pi (y.say m) := retryPlacement_keeps h _
  refine ⟨?_, ?_, ?_⟩
  · rw [hretry State.out (fun _ _ => rfl)]
    exact List.mem_append_right _ (List.mem_singleton.2 rfl)
  · rw [hretry (fun t => t.unit? uid) (fun _ _ => rfl), ← hu]
    exact hwake.1
  · rw [hretry State.saved (fun _ _ => rfl)]
    exact hwake.2.symm ▸ hv

/-- What a unit's save leaves. -/
theorem saveUnit_saved {u : UnitRec} {uid : Nat} {precise : Bool} {t : State} (htag : s.unitTag = (uid, true)) (hu : u.uid = uid) (hord : s.recordOrder uid = [s.st.sid])
    (ht : s.saveUnit u precise = .ok t) : (if precise = true then HostMsg.stopped uid else .saved uid) ∈ t.out ∧ t.unit? uid = none ∧ ∃ v ∈ t.saved, v.unit.uid = uid := by
  have hdrain (cs : List Cmd) : (cs.foldl State.landDrain s).unitTag = s.unitTag ∧ (cs.foldl State.landDrain s).st = s.st :=
    ⟨landDrains_keeps (fun _ _ _ => rfl) s cs, landDrains_keeps (pi := State.st) (fun _ _ _ => rfl) s cs⟩
  unfold State.saveUnit at ht
  dsimp only at ht
  rw [hu, hord] at ht
  split at ht
  · exact nomatch ht
  · next s1 blocks h1 =>
    obtain ⟨hdtag, hdst⟩ := hdrain (s.cmds.filter (fun c => c.kind = .accrd && decide (c.state = .done) && (s.unitGroups uid).any (fun g => g.gid == c.gid)))
    have htag1 : s1.unitTag = (uid, true) := by
      rw [← hdst] at h1
      exact (suspendAll_one areaBlind_unitTag (fun _ _ => rfl) h1).trans (hdtag.trans htag)
    split at ht
    · exact nomatch ht
    · next s2 h2 =>
      have htag2 : s2.unitTag = (uid, true) := (spillLanes_view areaBlind_unitTag h2).trans htag1
      have hun : s2.unitOf uid = s2.un := by
        unfold State.unitOf
        rw [unit?_of_tag htag2]
        rfl
      split at ht
      · exact nomatch ht
      · exact nomatch ht
      · next s3 _ h3 =>
        have huid : ({ s2.unitOf uid with saving := none, stepping := false } : UnitRec).uid = uid := by
          rw [hun]
          exact (Prod.mk.inj htag2).1
        rw [← Except.ok.inj ht]
        exact unitLeft huid ⟨_, List.mem_append_right _ (List.mem_singleton.2 rfl), huid⟩ uid
end

/-! The save asked for -/

section
variable {s : State} {area page : Nat} {precise : Bool} {t : State}

/-- The running unit with a save asked for. -/
def State.saveAsked (s : State) (area : Nat) (precise : Bool) : State :=
  s.modUnit s.un.uid (fun x => { x with saveVa := area / 4096 * 4096, saving := some precise, saveWait := none })

/-- Its streams at their boundaries, where it is to stop precisely. -/
def State.saveReady (s : State) (area : Nat) (precise : Bool) : State :=
  if precise then (s.saveAsked area precise).boundaries [s.st.sid] else s.saveAsked area precise

theorem boundaries_self (v : State) : v.boundaries [v.st.sid] = if v.st.keepsPlace = false then v.atBoundary else v := by
  unfold State.boundaries
  rw [List.foldl_cons, List.foldl_nil, focus_self]
  refine if_congr ?_ rfl rfl
  rw [Bool.not_eq_true']
  exact and_iff_right rfl

theorem recordOrder_restart (v : State) (r : RestartPoint) (uid : Nat) : (v.modSt (fun x => { x with restart := r })).recordOrder uid = v.recordOrder uid := by
  have hsids (p : Stream → Bool) (hp : p { v.st with restart := r } = p v.st) :
      (((v.modSt (fun x => { x with restart := r })).unitStreams uid).filter p).map (·.sid) = ((v.unitStreams uid).filter p).map (·.sid) := by
    have hmine : (({ v.st with restart := r } : Stream).sid != 0 && (v.unitGroups uid).any (fun g => g.gid == ({ v.st with restart := r } : Stream).gid)) =
      (v.st.sid != 0 && (v.unitGroups uid).any (fun g => g.gid == v.st.gid)) := rfl
    change ((({ v.st with restart := r } :: v.streams).filter (fun x => x.sid != 0 && (v.unitGroups uid).any (fun g => g.gid == x.gid))).filter p).map (·.sid) =
      (((v.st :: v.streams).filter (fun x => x.sid != 0 && (v.unitGroups uid).any (fun g => g.gid == x.gid))).filter p).map (·.sid)
    rw [List.filter_cons, List.filter_cons, hmine]
    split
    · rw [List.filter_cons, List.filter_cons, hp]
      split <;> rfl
    · rfl
  have hpart (p : Stream → Bool) (hp : p { v.st with restart := r } = p v.st) :
      ((v.unitGroups uid).mergeSort (fun a b => decide (a.sgrp ≤ b.sgrp))).flatMap (fun g =>
        (((v.modSt (fun x => { x with restart := r })).unitStreams uid).filter (fun x => x.gid == g.gid && p x)).map (·.sid)) =
      ((v.unitGroups uid).mergeSort (fun a b => decide (a.sgrp ≤ b.sgrp))).flatMap (fun g => ((v.unitStreams uid).filter (fun x => x.gid == g.gid && p x)).map (·.sid)) :=
    congrArg (fun f => ((v.unitGroups uid).mergeSort (fun a b => decide (a.sgrp ≤ b.sgrp))).flatMap f) (funext (fun g => hsids (fun x => x.gid == g.gid && p x) (by rw [hp])))
  exact congrArg₂ (· ++ ·) (hpart (fun x => decide (x.kind = .home)) rfl) (hpart (fun x => decide (x.kind ≠ .home)) rfl)

theorem saveReady_same (s : State) (area : Nat) (precise : Bool) (uid : Nat) : (s.saveReady area precise).un = (s.saveAsked area precise).un ∧
    (s.saveReady area precise).st.sid = s.st.sid ∧ (s.saveReady area precise).recordOrder uid = s.recordOrder uid := by
  unfold State.saveReady
  split
  · have hb : (s.saveAsked area precise).boundaries [s.st.sid] = if s.st.keepsPlace = false then (s.saveAsked area precise).atBoundary else s.saveAsked area precise :=
      boundaries_self (s.saveAsked area precise)
    rw [hb]
    split
    · exact ⟨rfl, rfl, recordOrder_restart (s.saveAsked area precise) _ uid⟩
    · exact ⟨rfl, rfl, rfl⟩
  · exact ⟨rfl, rfl, rfl⟩

theorem saveAsked_un (s : State) (area : Nat) (precise : Bool) : (s.saveAsked area precise).un = { s.un with saveVa := area / 4096 * 4096, saving := some precise, saveWait := none } :=
  if_pos rfl

theorem saveReady_unit (hl : s.un.live = true) : (s.saveReady area precise).unitTag = (s.un.uid, true) ∧
    (s.saveReady area precise).unitOf s.un.uid = { s.un with saveVa := area / 4096 * 4096, saving := some precise, saveWait := none } := by
  have hun := (saveReady_same s area precise s.un.uid).1.trans (saveAsked_un s area precise)
  have htag : (s.saveReady area precise).unitTag = (s.un.uid, true) := by
    unfold State.unitTag
    rw [hun, ← hl]
  refine ⟨htag, ?_⟩
  unfold State.unitOf
  rw [unit?_of_tag htag, hun]
  rfl

/-- A save asked for goes on at once, as far as it can. -/
theorem askSave_tries (hid : s.un.uid ≠ 0) (hl : s.un.live = true) (hs : s.un.saving = none) (hh : s.st.held = []) (hx : s.unitStreams s.un.uid = [s.st]) :
    s.askSave s.un.uid area precise = (s.saveReady area precise).trySave ((s.saveReady area precise).unitOf s.un.uid) := by
  have hunit : s.unit? s.un.uid = some s.un := unit?_of_tag (show s.unitTag = (s.un.uid, true) from by unfold State.unitTag; rw [hl])
  have hflush : (s.saveAsked area precise).flushHeld s.st.sid = s.saveAsked area precise := by
    have hstream : (s.saveAsked area precise).stream? s.st.sid = some s.st := stream?_self (s.saveAsked area precise)
    unfold State.flushHeld
    rw [hstream]
    dsimp only
    rw [hh]
    rfl
  unfold State.askSave
  rw [hunit]
  dsimp only
  rw [hs, if_neg (fun h => h.elim Bool.noConfusion hid), hx, List.map_cons, List.map_nil, List.foldl_cons, List.foldl_nil]
  change (if precise then ((s.saveAsked area precise).flushHeld s.st.sid).boundaries [s.st.sid] else (s.saveAsked area precise).flushHeld s.st.sid).trySave
    ((if precise then ((s.saveAsked area precise).flushHeld s.st.sid).boundaries [s.st.sid] else (s.saveAsked area precise).flushHeld s.st.sid).unitOf s.un.uid) = _
  rw [hflush]
  rfl

/-- What a save that has been asked for does, by what the save finds. -/
theorem trySave_cases {v : State} {u : UnitRec} (hs : u.saving = some precise) (hw : u.saveWait = none) :
    (v.settled u.uid = false → v.trySave u = v) ∧
    (v.settled u.uid = true → v.saveUnit u precise = .ok t → v.trySave u = t) ∧
    (v.settled u.uid = true → v.saveUnit u precise = .error (t, page) → v.trySave u = t.modUnit u.uid (fun x => { x with saveWait := some page })) := by
  have hgo (h : v.settled u.uid = true) : ¬ ((!v.settled u.uid) = true ∨ u.saveWait.isSome = true) := by
    rw [h, hw]
    exact fun h => h.elim Bool.noConfusion Bool.noConfusion
  unfold State.trySave
  rw [hs]
  dsimp only
  refine ⟨fun h => if_pos (Or.inl (by rw [h]; rfl)), fun h hok => ?_, fun h herr => ?_⟩
  · rw [if_neg (hgo h), hok]
  · rw [if_neg (hgo h), herr]

/-- A save asked for by the device OS: what it gives. -/
theorem askSave_cases (hid : s.un.uid ≠ 0) (hl : s.un.live = true) (hs : s.un.saving = none) (hh : s.st.held = []) (hx : s.unitStreams s.un.uid = [s.st])
    (hord : s.recordOrder s.un.uid = [s.st.sid]) :
    ((s.saveReady area precise).settled s.un.uid = false → s.askSave s.un.uid area precise = s.saveReady area precise) ∧
    ((s.saveReady area precise).settled s.un.uid = true → (s.saveReady area precise).saveUnit ((s.saveReady area precise).unitOf s.un.uid) precise = .ok t →
      s.askSave s.un.uid area precise = t ∧ (if precise = true then HostMsg.stopped s.un.uid else .saved s.un.uid) ∈ t.out ∧ t.unit? s.un.uid = none ∧
        ∃ v ∈ t.saved, v.unit.uid = s.un.uid) ∧
    ((s.saveReady area precise).settled s.un.uid = true → (s.saveReady area precise).saveUnit ((s.saveReady area precise).unitOf s.un.uid) precise = .error (t, page) →
      s.askSave s.un.uid area precise = t.modUnit s.un.uid (fun x => { x with saveWait := some page })) := by
  obtain ⟨htag, hu⟩ := saveReady_unit (s := s) (area := area) (precise := precise) hl
  obtain ⟨-, hsid, hrec⟩ := saveReady_same s area precise s.un.uid
  have hask := askSave_tries (area := area) (precise := precise) hid hl hs hh hx
  rw [hu] at hask ⊢
  generalize s.saveReady area precise = v at htag hsid hrec hask ⊢
  obtain ⟨hwait, hdone, herr⟩ := trySave_cases (v := v) (t := t) (page := page) (precise := precise)
    (u := { s.un with saveVa := area / 4096 * 4096, saving := some precise, saveWait := none }) rfl rfl
  refine ⟨fun h => hask.trans (hwait h), fun h hok => ⟨hask.trans (hdone h hok), ?_⟩, fun h he => hask.trans (herr h he)⟩
  exact saveUnit_saved (uid := s.un.uid) htag rfl (by rw [hrec, hord, hsid]) hok
end

/-! ## What a save leaves of a stream (R311 to R315) -/

section
variable {x : Stream}

theorem suspend_discards (h : x.keepsPlace = false) : x.suspend.pc = x.restart.pc ∧ x.suspend.hdr = x.restart.hdr ∧ x.suspend.pos = x.restart.pos ∧
    x.suspend.exm = x.restart.exm ∧ x.suspend.fmt = x.restart.fmt ∧ x.suspend.dep = x.restart.dep ∧
    (x.restart.pathd ≤ x.pathd → x.suspend.pathd = x.restart.pathd) ∧ x.suspend.sregs = x.sregs := by
  have hneg : ¬ x.keepsPlace = true := by rw [h]; exact Bool.noConfusion
  unfold Stream.suspend
  rw [if_neg hneg]
  refine ⟨rfl, rfl, rfl, rfl, rfl, rfl, fun hd => ?_, rfl⟩
  have hlen : x.pathd = (x.stack ++ x.below).length := (List.length_append).symm
  change ((x.stack ++ x.below).drop ((x.stack ++ x.below).length - x.restart.pathd)).length + 0 = x.restart.pathd
  rw [List.length_drop]
  omega

theorem suspend_runs (h : x.keepsPlace = false) (hb : ∀ k, x.status ≠ .waitBarrier k) : x.suspend.status = .runnable := by
  unfold Stream.keepsPlace at h
  rw [Bool.or_eq_false_iff] at h
  obtain ⟨-, hs⟩ := h
  unfold Stream.suspend
  dsimp only
  split at hs
  · next n hn => exact absurd hn (hb n)
  · exact Bool.noConfusion hs
  · exact Bool.noConfusion hs
  · exact Bool.noConfusion hs
  · exact Bool.noConfusion hs
  · exact Bool.noConfusion hs
  · rfl

theorem suspend_joins (h : x.status = .waitJoin) : x.suspend.status = .waitJoin ∧ x.suspend.pc = x.pc ∧ x.suspend.pos = x.pos := by
  have hkeep : x.keepsPlace = true := by
    unfold Stream.keepsPlace
    rw [h, Bool.or_true]
  unfold Stream.suspend
  rw [if_pos hkeep, h]
  exact ⟨rfl, rfl, rfl⟩

theorem record_length (g : Group) (hr : x.sregs.length = 60) (hi : x.ix.length = 4) (ht : x.tb.length = 8) : (x.record g).length = 448 := by
  simp [Stream.record, two, hr, hi, List.length_flatMap, ht, apply_ite List.length]

theorem cmdRecord_length (c : Cmd) (mat : List Word) (n : Nat) : (c.record mat n).length = 32 := by
  unfold Cmd.record
  simp
end

/-! ## Restarting a unit (R316, R317) -/

section
variable {s : State}

theorem map_ok_fst {ε α β γ : Type} {e : Except ε (α × β)} {f : α × β → α × γ} {p : α × γ} (h : e.map f = .ok p) (hf : ∀ q, (f q).1 = q.1) : ∃ q, e = .ok q ∧ q.1 = p.1 := by
  cases e with
  | error x => exact nomatch h
  | ok q => exact ⟨q, rfl, (hf q).symm.trans (congrArg Prod.fst (Except.ok.inj h))⟩

/-- The windows of a lane that are back, then those of the others. -/
theorem restoreLanes_cons_ok {g : Group} {x : Lane} {r : List Lane} {l : Nat} {p : State × List Lane} (hp : s.restoreLanes g (x :: r) l = .ok p) :
    ∃ t y q, s.refillWords g.uid g l { x with col := [], lowres := x.fb } x.fb 58 = .ok (t, y) ∧ t.restoreLanes g r (l + 1) = .ok q ∧ q.1 = p.1 := by
  delta State.restoreLanes at hp ⊢
  dsimp only [List.brecOn, List.brecOn.go] at hp ⊢
  delta State.restoreLanes._f at hp ⊢
  dsimp only at hp ⊢
  split at hp
  · exact nomatch hp
  · next t y ht =>
    obtain ⟨q, hq, he⟩ := map_ok_fst hp (fun _ => rfl)
    exact ⟨t, y, q, ht, hq, he⟩

theorem restoreLanes_keeps {β : Type} {pi : State → β} (h : ∀ s t d c, pi { s with tlb := t, dies := d, cores := c } = pi s) {g : Group} {ls : List Lane} :
    ∀ {s : State} {l : Nat} {p : State × List Lane}, s.restoreLanes g ls l = .ok p → pi p.1 = pi s := by
  induction ls with
  | nil =>
    intro s l p hp
    have he : (s, []) = p := Except.ok.inj hp
    rw [← he]
  | cons x r ih =>
    intro s l p hp
    obtain ⟨t, y, q, ht, hr, hq⟩ := restoreLanes_cons_ok hp
    rw [← hq]
    exact (ih hr).trans (refillWords_keeps h ht)

theorem restoreGroups_keeps {β : Type} {pi : State → β} (h : ∀ s t d c, pi { s with tlb := t, dies := d, cores := c } = pi s) {gs : List Group} :
    ∀ {s : State} {p : State × List Group}, s.restoreGroups gs = .ok p → pi p.1 = pi s := by
  induction gs with
  | nil =>
    intro s p hp
    rw [State.restoreGroups] at hp
    rw [← Except.ok.inj hp]
  | cons g r ih =>
    intro s p hp
    rw [State.restoreGroups] at hp
    split at hp
    · exact nomatch hp
    · next t ls ht =>
      obtain ⟨q, hq, he⟩ := map_ok_fst hp (fun _ => rfl)
      rw [← he]
      exact (ih hq).trans (restoreLanes_keeps h ht)

theorem putBlock_view {β : Type} {pi : State → β} (h : AreaBlind pi) {ws : List (Nat × Word)} : ∀ {s u : State}, s.putBlock ws = .ok u → pi u = pi s := by
  induction ws with
  | nil =>
    intro s u hu
    rw [State.putBlock] at hu
    rw [Except.ok.inj hu]
  | cons w r ih =>
    intro s u hu
    rw [State.putBlock] at hu
    split at hu
    · exact nomatch hu
    · next t ht => exact (ih hu).trans (areaPut_view h ht)

theorem focus_saved (s : State) (sid : Nat) : (s.focus sid).saved = s.saved := by
  unfold State.focus
  split
  · rfl
  · split
    · rfl
    · dsimp only
      split
      · rfl
      · split
        · rfl
        · split <;> rfl

theorem areaBlind_saved : AreaBlind State.saved := ⟨putByte_keeps State.saved (fun _ _ _ _ _ _ _ _ => rfl), fun _ _ _ _ => rfl, fun _ _ _ => rfl⟩

theorem writeBlock_saved {b : List (Nat × Word)} {u : State} (hu : s.writeBlock b = .ok u) : u.saved = s.saved := by
  unfold State.writeBlock at hu
  split at hu
  · next t ht =>
    rw [← Except.ok.inj hu]
    exact putBlock_view areaBlind_saved ht
  · split at hu
    · rw [Except.ok.inj hu]
    · exact nomatch hu

theorem writeBlocks_cons_ok {b : Nat × List (Nat × Word)} {r : List (Nat × List (Nat × Word))} {u : State} (hu : s.writeBlocks (b :: r) = .ok u) :
    s.writeBlocks r = .ok u ∨ ∃ t, (s.focus b.1).rebind.writeBlock b.2 = .ok t ∧ t.writeBlocks r = .ok u := by
  delta State.writeBlocks at hu ⊢
  dsimp only [List.brecOn, List.brecOn.go] at hu ⊢
  delta State.writeBlocks._f at hu
  dsimp only at hu
  split at hu
  · exact Or.inl hu
  · split at hu
    · exact nomatch hu
    · next t ht => exact Or.inr ⟨t, ht, hu⟩

theorem writeBlocks_saved {bs : List (Nat × List (Nat × Word))} : ∀ {s u : State}, s.writeBlocks bs = .ok u → u.saved = s.saved := by
  induction bs with
  | nil =>
    intro s u hu
    have he : s = u := Except.ok.inj hu
    rw [he]
  | cons b r ih =>
    intro s u hu
    rcases writeBlocks_cons_ok hu with h | ⟨t, ht, h⟩
    · exact ih h
    · exact (ih h).trans ((writeBlock_saved ht).trans (focus_saved s b.1))

/-- A unit put back is in the list of the saved no more. -/
theorem restoreUnit_saved {v : SavedUnit} {parts : List (UnitCore × List Group)} {pools : List (Nat × Nat)} {step : Bool} {t : State}
    (ht : s.restoreUnit v parts pools step = .ok t) : t.saved = s.saved.filter (fun w => w.unit.uid != v.unit.uid) := by
  unfold State.restoreUnit at ht
  dsimp only at ht
  split at ht
  · exact nomatch ht
  · next s0 gs h0 =>
    have hsaved : s0.saved = s.saved := restoreGroups_keeps (pi := State.saved) (fun _ _ _ _ => rfl) h0
    have hone (u : State) (c : Cmd) : (if c.isOver || decide (c.kind = .mma) then u
        else match c.state with
          | .retired => u.post (.commandAccept c.id)
          | _ => u.resumeCmd c.id).saved = u.saved := by
      split
      · rfl
      · split
        · rfl
        · exact resumeCmd_keeps (pi := State.saved) (fun _ _ => rfl) (fun _ _ => rfl) u c.id
    have hdrop (u : State) (l : List Nat) : (l.foldl State.dropL1 u).saved = u.saved := foldl_keeps (f := State.dropL1) State.saved (fun _ _ => rfl) l u
    rw [← hsaved]
    generalize hw : State.writeBlocks _ _ = e at ht
    cases e with
    | error f => exact nomatch (ht : (Except.error f : Except (Group × LaneFault) State) = Except.ok t)
    | ok s2 =>
      rw [← Except.ok.inj ht]
      refine (foldl_keeps State.saved hone _ s2).trans ((writeBlocks_saved hw).trans (hdrop _ _))

/-- A restart asked for of the one unit of its number. -/
theorem modSaved_queued {v : SavedUnit} {uid : Nat} {f : SavedUnit → SavedUnit} (hv : s.saved.filter (fun x => x.unit.uid == uid) = [v]) (hd : v.dropped = false) (hf : ∀ x, (f x).unit.uid = x.unit.uid) :
    s.modSaved uid (fun x => if x.dropped then x else f x) = s.modSaved uid f ∧ (s.modSaved uid f).saved.filter (fun x => x.unit.uid == uid) = [f v] ∧
      (s.modSaved uid f).saved.filter (fun x => x.unit.uid != uid) = s.saved.filter (fun x => x.unit.uid != uid) := by
  have honly : ∀ x ∈ s.saved, x.unit.uid = uid → x = v := fun x hx hu => by
    have hin : x ∈ s.saved.filter (fun x => x.unit.uid == uid) := List.mem_filter.2 ⟨hx, beq_iff_eq.2 hu⟩
    rw [hv] at hin
    exact List.mem_singleton.1 hin
  have hkeep (x : SavedUnit) : (if x.unit.uid = uid then f x else x).unit.uid = x.unit.uid := by
    split
    · exact hf x
    · rfl
  have hsame : s.saved.map (fun x => if x.unit.uid = uid then (if x.dropped then x else f x) else x) = s.saved.map (fun x => if x.unit.uid = uid then f x else x) := by
    refine List.map_congr_left (fun x hx => ?_)
    split
    · next hu => rw [honly x hx hu, if_neg (by rw [hd]; exact Bool.noConfusion)]
    · rfl
  refine ⟨congrArg (fun l => { s with saved := l }) hsame, ?_, ?_⟩
  · have hmap : ((s.saved.map (fun x => if x.unit.uid = uid then f x else x)).filter (fun x => x.unit.uid == uid)) =
        (s.saved.filter (fun x => x.unit.uid == uid)).map (fun x => if x.unit.uid = uid then f x else x) := by
      rw [List.filter_map]
      exact congrArg _ (List.filter_congr (fun x _ => by rw [Function.comp, hkeep]))
    have huid : v.unit.uid = uid := by
      have hin : v ∈ s.saved.filter (fun x => x.unit.uid == uid) := by rw [hv]; exact List.mem_singleton.2 rfl
      exact beq_iff_eq.1 (List.mem_filter.1 hin).2
    refine hmap.trans ?_
    rw [hv, List.map_cons, List.map_nil, if_pos huid]
  · have hmap : ((s.saved.map (fun x => if x.unit.uid = uid then f x else x)).filter (fun x => x.unit.uid != uid)) =
        (s.saved.filter (fun x => x.unit.uid != uid)).map (fun x => if x.unit.uid = uid then f x else x) := by
      rw [List.filter_map]
      exact congrArg _ (List.filter_congr (fun x _ => by rw [Function.comp, hkeep]))
    refine hmap.trans ((List.map_congr_left (fun x hx => ?_)).trans (List.map_id _))
    exact if_neg (bne_iff_ne.1 (List.mem_filter.1 hx).2)

theorem restart_cases {v : SavedUnit} {die core : Nat} {step : Bool} {places : List (UnitCore × List Group)} {pools : List (Nat × Nat)} {t : State}
    (hv : s.saved.filter (fun x => x.unit.uid == v.unit.uid) = [v]) (hdbg : s.debuggable v.unit.ctx = true) (hd : v.dropped = false) :
    let s1 := s.modSaved v.unit.uid (fun y => { y with queued := some (die, core, step), unit := { y.unit with saveWait := none } })
    let w : SavedUnit := { v with queued := some (die, core, step), unit := { v.unit with saveWait := none } }
    (s1.restartPlaces w die core = none → exec (if step then .singleStep v.unit.uid die core else .unitRestart v.unit.uid die core) s = .next s1) ∧
    (s1.restartPlaces w die core = some (places, pools) → s1.restoreUnit { w.wakeCmds with queued := none } places pools step = .ok t →
      exec (if step then .singleStep v.unit.uid die core else .unitRestart v.unit.uid die core) s = .next t ∧ t.saved = s.saved.filter (fun x => x.unit.uid != v.unit.uid)) := by
  intro s1 w
  obtain ⟨hmod, hone, hrest⟩ := modSaved_queued (s := s) (f := fun y => { y with queued := some (die, core, step), unit := { y.unit with saveWait := none } }) hv hd (fun _ => rfl)
  have hrestart : s.restart v.unit.uid die core step = s1.tryRestart w := by
    unfold State.restart
    dsimp only
    rw [hmod, hone]
    rfl
  have hany : s.saved.any (fun x => x.unit.uid == v.unit.uid && s.debuggable x.unit.ctx) = true := by
    have hin : v ∈ s.saved.filter (fun x => x.unit.uid == v.unit.uid) := by rw [hv]; exact List.mem_singleton.2 rfl
    exact List.any_eq_true.2 ⟨v, (List.mem_filter.1 hin).1, by rw [beq_self_eq_true, hdbg]; rfl⟩
  have he : exec (if step then .singleStep v.unit.uid die core else .unitRestart v.unit.uid die core) s = .next (s.restart v.unit.uid die core step) := by
    cases step with
    | true => exact congrArg Host.Outcome.next (if_pos hany)
    | false => rfl
  have htry : s1.tryRestart w = match s1.restartPlaces w die core with
      | none => s1
      | some (places, pools) =>
        match s1.restoreUnit { w.wakeCmds with queued := none } places pools step with
        | .ok t => t
        | .error (g, f) => (s1.heldUp g f).1.modSaved v.unit.uid (fun w => { w with unit := { w.unit with saveWait := some (s1.heldUp g f).2 } }) := rfl
  have hsaved (ht : s1.restoreUnit { w.wakeCmds with queued := none } places pools step = .ok t) : t.saved = s.saved.filter (fun x => x.unit.uid != v.unit.uid) :=
    (restoreUnit_saved ht).trans hrest
  rw [he, hrestart, htry]
  clear_value s1 w
  refine ⟨fun hn => by rw [hn], fun hp ht => ?_⟩
  rw [hp]
  dsimp only
  rw [ht]
  exact ⟨rfl, hsaved ht⟩
end

/-! ## Contexts (R254, R317, R318) -/

section
variable {s : State} {ctx : Nat} {c : Ctx}

theorem contextSwitch_resumes (hc : s.ctxRec ctx = some c) (hs : c.suspended = true) (areas : List Nat) : ∃ u, exec (.contextSwitch ctx areas) s = .next u ∧ u.sameMem s ∧
    (u.ctxRec ctx).map (·.suspended) = some false ∧ .launchFire ctx ∈ u.events := by
  have hpost (t : State) (d : Nat) : (fun t : State => (t.mem, t.host, t.ctxs)) (t.post (.conjugatorBatchStart d)) = (t.mem, t.host, t.ctxs) := rfl
  have he : exec (.contextSwitch ctx areas) s = .next (((List.range Config.dies).foldl (fun t d => t.post (.conjugatorBatchStart d)) ((if s.batchesRest ctx then s.mapStreams (fun x =>
      if s.allGroups.any (fun g => g.gid == x.gid && g.ctx == ctx) then x.restartWave else x) else s).modCtx ctx (fun x => { x with suspended := false }))).post
      (.launchFire ctx)).retryPlacement := by
    change execContextSwitch ctx areas s = _
    unfold execContextSwitch
    rw [hc]
    exact congrArg Host.Outcome.next (if_pos hs)
  have hbase : (fun t : State => (t.mem, t.host, t.ctxs)) (if s.batchesRest ctx then s.mapStreams (fun x =>
      if s.allGroups.any (fun g => g.gid == x.gid && g.ctx == ctx) then x.restartWave else x) else s) = (s.mem, s.host, s.ctxs) := by
    split <;> rfl
  generalize (if s.batchesRest ctx then s.mapStreams (fun x => if s.allGroups.any (fun g => g.gid == x.gid && g.ctx == ctx) then x.restartWave else x) else s) = v at he hbase
  obtain ⟨hm, hh⟩ := Prod.mk.inj hbase
  obtain ⟨hh, hctxs⟩ := Prod.mk.inj hh
  have hfold := foldl_keeps (fun t : State => (t.mem, t.host, t.ctxs)) hpost (List.range Config.dies) (v.modCtx ctx (fun x => { x with suspended := false }))
  generalize (List.range Config.dies).foldl (fun t d => t.post (.conjugatorBatchStart d)) (v.modCtx ctx (fun x => { x with suspended := false })) = w at he hfold
  obtain ⟨hwm, hwh⟩ := Prod.mk.inj hfold
  obtain ⟨hwh, hwc⟩ := Prod.mk.inj hwh
  have hretry {γ : Type} (pi : State → γ) (h : ∀ s ev, pi { s with events := ev } = pi s) : pi (w.post (.launchFire ctx)).retryPlacement = pi w :=
    (retryPlacement_keeps h _).trans (h w _)
  have hctx (t u : State) (h : t.ctxs = u.ctxs) : t.ctxRec ctx = u.ctxRec ctx := by unfold State.ctxRec; rw [h]
  refine ⟨_, he, ⟨(hretry State.mem (fun _ _ => rfl)).trans (hwm.trans hm), (hretry State.host (fun _ _ => rfl)).trans (hwh.trans hh)⟩, ?_,
    mem_retryPlacement (List.mem_append_right _ (List.mem_singleton.2 rfl))⟩
  rw [hctx _ _ ((hretry State.ctxs (fun _ _ => rfl)).trans hwc), ctxRec_modCtx v ctx (fun x => { x with suspended := false }) (fun _ => rfl), hctx v s hctxs, hc]
  rfl

theorem contextSwitch_suspends (hc : s.ctxRec ctx = some c) (hs : c.suspended = false) (hu : ∀ u ∈ s.allUnits, u.live = true → u.uid ≠ 0 → u.ctx ≠ ctx) (areas : List Nat) :
    ∃ u, exec (.contextSwitch ctx areas) s = .next u ∧ u.sameMem s ∧ (u.ctxRec ctx).map (·.suspended) = some true := by
  have hnone : s.allUnits.filter (fun u => u.live && u.ctx == ctx && u.uid != 0) = [] := List.filter_eq_nil_iff.2 (fun u hm hp => by
    rw [Bool.and_eq_true, Bool.and_eq_true, beq_iff_eq, bne_iff_ne] at hp
    exact hu u hm hp.1.1 hp.2 hp.1.2)
  have he : exec (.contextSwitch ctx areas) s = .next (s.modCtx ctx (fun x => { x with suspended := true })) := by
    change execContextSwitch ctx areas s = _
    unfold execContextSwitch
    rw [hc]
    dsimp only
    rw [if_neg (by rw [hs]; exact Bool.noConfusion), hnone, List.mergeSort_nil, List.zip_nil_left, List.foldl_nil]
  refine ⟨_, he, ⟨rfl, rfl⟩, ?_⟩
  rw [ctxRec_modCtx s ctx (fun x => { x with suspended := true }) (fun _ => rfl), hc]
  rfl

/-- A CANCEL that no restart point met in time stops its stream. -/
theorem cancelTimeout_stops {n : Nat} (hc : s.st.cancelAt = some n) (hn : n + 65536 ≤ s.dev.clock.toNat) (hr : s.st.status ≠ .waitReplies) (hx : ∀ x ∈ s.streams, x.sid ≠ s.st.sid)
    (hu : ∀ u ∈ (s.modStream s.st.sid (fun x => { x with status := .stopped })).allUnits, (s.modStream s.st.sid (fun x => { x with status := .stopped })).allStopped u = false) :
    exec (.cancelTimeout s.st.sid) s = .next (s.modStream s.st.sid (fun x => { x with status := .stopped })) ∧
      (s.modStream s.st.sid (fun x => { x with status := .stopped })).st.status = .stopped := by
  have howed : s.st.owedReplies = false := by
    unfold Stream.owedReplies
    split
    · next h => exact absurd h hr
    · rfl
  have hstop : (match s.st.cancelAt with
      | some t => if t + 65536 ≤ s.dev.clock.toNat ∧ !s.st.owedReplies then { s.st with status := .stopped } else s.st
      | none => s.st) = { s.st with status := .stopped } := by
    rw [hc, howed]
    exact if_pos ⟨hn, rfl⟩
  have hst : s.modStream s.st.sid (fun x => match x.cancelAt with
      | some t => if t + 65536 ≤ s.dev.clock.toNat ∧ !x.owedReplies then { x with status := .stopped } else x
      | none => x) = s.modStream s.st.sid (fun x => { x with status := .stopped }) := by
    unfold State.modStream State.mapStreams
    dsimp only
    rw [if_pos rfl, if_pos rfl, hstop]
    refine congrArg (fun xs => { s with st := { s.st with status := .stopped }, streams := xs }) (List.map_congr_left (fun x hm => ?_))
    rw [if_neg (hx x hm), if_neg (hx x hm)]
  have hnone : (s.modStream s.st.sid (fun x => { x with status := .stopped })).dropStopped = s.modStream s.st.sid (fun x => { x with status := .stopped }) := by
    unfold State.dropStopped
    rw [List.filter_eq_nil_iff.2 (fun u hm hp => by rw [hu u hm] at hp; exact Bool.noConfusion hp)]
    rfl
  refine ⟨?_, congrArg Stream.status (if_pos rfl)⟩
  refine congrArg Host.Outcome.next ?_
  exact (congrArg State.dropStopped hst).trans hnone

/-- What a torn down context leaves, before the conjugators and the placing go on. -/
theorem contextTeardown_leaves (s : State) (ctx : Nat) : ∃ v : State, exec (.contextTeardown ctx) s = .next ((List.range Config.dies).foldl (fun t d => t.post (.conjugatorBatchStart d)) v).retryPlacement ∧
    v.ctxRec ctx = none ∧ (∀ x ∈ v.launches, x.ctx ≠ ctx) ∧ (∀ x ∈ v.counters, x.ctx ≠ ctx) ∧ (∀ x ∈ v.tlb, x.ctx ≠ ctx) ∧ (∀ x ∈ v.l1, x.ctx ≠ ctx) ∧ (∀ x ∈ v.overlays, x.ctx ≠ ctx) ∧
    (∀ x ∈ v.requests, x.ctx ≠ ctx) ∧ (∀ x ∈ v.records, x.ctx ≠ ctx) ∧ (∀ x ∈ v.reductions, x.ctx ≠ ctx) ∧ (∀ x ∈ v.cmds, x.ctx ≠ ctx) := by
  have hgone {α : Type} (f : α → Nat) (l : List α) : ∀ x ∈ l.filter (fun y => f y != ctx), f x ≠ ctx := fun x hx => bne_iff_ne.1 (List.mem_filter.1 hx).2
  refine ⟨_, rfl, ?_, hgone Launch.ctx _, hgone Counter.ctx _, hgone TlbEntry.ctx _, hgone L1Sector.ctx _, hgone Overlay.ctx _, hgone ObjRequest.ctx _, hgone CompletionRec.ctx _, hgone Reduction.ctx _,
    hgone Cmd.ctx _⟩
  refine List.find?_eq_none.2 (fun x hx hp => ?_)
  exact hgone Ctx.ctx _ x hx (beq_iff_eq.1 hp)

theorem contextTeardown_ends (s : State) (ctx : Nat) : ∃ u, exec (.contextTeardown ctx) s = .next u ∧ u.ctxRec ctx = none ∧ (∀ x ∈ u.launches, x.ctx ≠ ctx) ∧ (∀ x ∈ u.counters, x.ctx ≠ ctx) ∧
    (∀ x ∈ u.tlb, x.ctx ≠ ctx) ∧ (∀ x ∈ u.l1, x.ctx ≠ ctx) ∧ (∀ x ∈ u.overlays, x.ctx ≠ ctx) ∧ (∀ x ∈ u.requests, x.ctx ≠ ctx) ∧
    (∀ x ∈ u.records, x.ctx ≠ ctx) ∧ (∀ x ∈ u.reductions, x.ctx ≠ ctx) ∧ (∀ x ∈ u.cmds, x.ctx ≠ ctx) := by
  obtain ⟨v, he, hleaves⟩ := contextTeardown_leaves s ctx
  have hkeep {γ : Type} (pi : State → γ) (h : ∀ s ev, pi { s with events := ev } = pi s) :
      pi ((List.range Config.dies).foldl (fun t d => t.post (.conjugatorBatchStart d)) v).retryPlacement = pi v :=
    (retryPlacement_keeps h _).trans (foldl_keeps pi (fun t d => h t _) _ v)
  refine ⟨_, he, ?_⟩
  generalize ((List.range Config.dies).foldl (fun t d => t.post (.conjugatorBatchStart d)) v).retryPlacement = u at hkeep
  rw [hkeep (fun t => t.ctxRec ctx) (fun _ _ => rfl), hkeep State.launches (fun _ _ => rfl), hkeep State.counters (fun _ _ => rfl), hkeep State.tlb (fun _ _ => rfl),
    hkeep State.l1 (fun _ _ => rfl), hkeep State.overlays (fun _ _ => rfl), hkeep State.requests (fun _ _ => rfl), hkeep State.records (fun _ _ => rfl),
    hkeep State.reductions (fun _ _ => rfl), hkeep State.cmds (fun _ _ => rfl)]
  exact hleaves
end

/-- Settles O59: a save asked for, what it leaves of a stream, a restart, a context switched out and in, a CANCEL run out and a context torn down, each by its own lemma. -/
theorem preemption : Obligations.Preemption := by
  refine ⟨?_, ?_, ?_, fun s ctx c hc => ⟨contextSwitch_resumes hc, contextSwitch_suspends hc⟩, ?_, contextTeardown_ends⟩
  · intro s t area page uid ask q p hid hl hs _ _ _ hh hx hord _
    obtain ⟨hwait, hdone, herr⟩ := askSave_cases (s := s) (t := t) (area := area) (page := page) (precise := false) hid hl hs hh hx hord
    obtain ⟨pwait, pdone, perr⟩ := askSave_cases (s := s) (t := t) (area := area) (page := page) (precise := true) hid hl hs hh hx hord
    have hunit : (s.unitOf uid).ctx = s.un.ctx := by
      unfold State.unitOf
      rw [unit?_of_tag (show s.unitTag = (uid, true) from by unfold State.unitTag; rw [hl])]
      rfl
    have hstop (hdbg : s.debuggable s.un.ctx = true) : exec (.preciseStop uid area) s = .next (s.askSave uid area true) :=
      congrArg Host.Outcome.next (if_pos (by rw [hunit]; exact hdbg))
    refine ⟨fun h => congrArg Host.Outcome.next (hwait h), fun h hok => ?_, fun h he => congrArg Host.Outcome.next (herr h he),
      fun hdbg => ⟨fun h => (hstop hdbg).trans (congrArg Host.Outcome.next (pwait h)), fun h hok => ?_, fun h he => (hstop hdbg).trans (congrArg Host.Outcome.next (perr h he))⟩,
      fun hdbg => congrArg Host.Outcome.next (if_neg (by rw [hunit, hdbg]; exact Bool.noConfusion))⟩
    · obtain ⟨he, hrest⟩ := hdone h hok
      exact ⟨congrArg Host.Outcome.next he, hrest⟩
    · obtain ⟨he, hrest⟩ := pdone h hok
      exact ⟨(hstop hdbg).trans (congrArg Host.Outcome.next he), hrest⟩
  · exact fun s x g c mat n => ⟨fun h => by
      obtain ⟨h1, h2, h3, h4, h5, h6, h7, h8⟩ := suspend_discards h
      exact ⟨h1, h2, h3, h4, h5, h6, h7, h8, suspend_runs h⟩, suspend_joins, rfl, rfl, rfl, rfl, rfl, rfl, record_length g, cmdRecord_length c mat n⟩
  · intro s t v die core places pools step uid i w s1 hv hdbg hd
    exact restart_cases hv hdbg hd
  · intro s n t hc hn hr hx hu
    exact cancelTimeout_stops hc hn hr hx hu

end Sys2Proof.Machine
end

section
/-!
The device: starts, attestation, confidential contexts, retranslations and code objects (for O60).
-/
namespace Sys2Proof.Machine

/-! ## A start that passes -/

section
variable {s : State} {r : StartReport} {pairs : List Bool}

/-- The leader is the lowest die whose pair works. -/
theorem lowest_pair (pairs : List Bool) : let n := ((List.range Config.dies).find? (fun d => pairs.getD d false)).getD 0
    (∀ d, d < n → pairs.getD d false = false) ∧ ((∃ d, d < 4 ∧ pairs.getD d false = true) → pairs.getD n false = true) := by
  intro n
  cases hf : (List.range Config.dies).find? (fun d => pairs.getD d false) with
  | none =>
    have hn : n = 0 := congrArg (fun o : Option Nat => o.getD 0) hf
    refine ⟨fun d hd => absurd hd (by rw [hn]; exact Nat.not_lt_zero d), fun ⟨d, hd, hp⟩ => ?_⟩
    exact absurd hp (List.find?_eq_none.1 hf d (List.mem_range.2 hd))
  | some k =>
    have hn : n = k := congrArg (fun o : Option Nat => o.getD 0) hf
    obtain ⟨hp, -, hlow⟩ := List.find?_range_eq_some.1 hf
    rw [hn]
    exact ⟨fun d hd => by simpa using hlow d hd, fun _ => hp⟩

theorem started_pairs (d : Nat) (hd : d < 4) : ((s.started r pairs).dieRec d).pairOk = pairs.getD d false := by
  match d, hd with
  | 0, _ => rfl
  | 1, _ => rfl
  | 2, _ => rfl
  | 3, _ => rfl

theorem certificate_started : let key := Config.publicKey (Config.derive r.secret (leBytes 64 (measOf r).toNat))
    .certificate key (measOf r) (Config.sign (Config.derive r.secret []) (leBytes 64 (Config.sha512 (key ++ leBytes 64 (measOf r).toNat)).toNat)) ∈ (s.started r pairs).out :=
  List.mem_append_right _ (List.mem_singleton.2 rfl)

/-- What a start that passes leaves. -/
theorem started_up (s : State) (r : StartReport) (pairs : List Bool) : let u := s.started r pairs
    u.dev.phase = .running ∧ u.dev.failures = 0 ∧ u.dev.boots = s.dev.boots + 1 ∧ u.dev.meas = measOf r ∧ u.dev.secret = r.secret ∧ u.dev.serial = r.serial ∧
      u.mem = [] ∧ u.host = s.host ∧ u.ctxs = [] ∧ u.streams = [] ∧ u.st = Stream.none ∧ u.events = [] ∧ (∀ d, d < 4 → (u.dieRec d).pairOk = pairs.getD d false) ∧
      (∀ d, d < u.dev.leader → pairs.getD d false = false) ∧ ((∃ d, d < 4 ∧ pairs.getD d false = true) → pairs.getD u.dev.leader false = true) ∧
      (let key := Config.publicKey (Config.derive r.secret (leBytes 64 (measOf r).toNat))
       .certificate key (measOf r) (Config.sign (Config.derive r.secret []) (leBytes 64 (Config.sha512 (key ++ leBytes 64 (measOf r).toNat)).toNat)) ∈ u.out) :=
  ⟨rfl, rfl, rfl, rfl, rfl, rfl, rfl, rfl, rfl, rfl, rfl, rfl, started_pairs, (lowest_pair pairs).1, (lowest_pair pairs).2, certificate_started⟩

theorem coldStart_passes (h : startFailure r [] r.pairs = none) : exec (.coldStart r) s = .next (s.started r r.pairs) := by
  change execColdStart r s = _
  unfold execColdStart
  rw [h]

theorem warmStart_passes (h : startFailure r (if s.dev.authMeas = some (measOf r) then [1, 2, 4] else [1, 2]) s.bistPairs = none) :
    exec (.warmStart r) s = .next (s.started r s.bistPairs) := by
  change execWarmStart r s = _
  unfold execWarmStart
  dsimp only
  rw [h]
end

/-! ## A start that fails -/

section
variable {s : State} {r : StartReport} {pairs : List Bool} {warm : Bool} {k : Nat}

/-- How many starts in a row have failed with one more. -/
def State.failuresNow (s : State) : Nat := (if s.dev.phase = .reset then s.dev.failures else 0) + 1

/-- The device of a start that has failed at a step. -/
def Device.failedAt (d : Device) (r : StartReport) (warm : Bool) (k n : Nat) : Device := { d.booting r warm k with
  phase := if decide (3 ≤ n) then .safeMode else .reset, failures := n, trained := if decide (3 ≤ n) then [0] else [], dualRoot := false,
  record := if decide (3 ≤ n) then some (k, r.failedDie, r.cause) else d.record }

/-- A view that no message changes sees of a failed start its emptied device, with memory zero from step 7 on. -/
theorem startFailed_view {β : Type} (pi : State → β) (h : ∀ t m, pi (t.say m) = pi t) :
    pi (s.startFailed r pairs warm k) = pi { s.emptied pairs with mem := if 7 ≤ k then [] else s.mem, dev := s.dev.failedAt r warm k s.failuresNow } := by
  change pi (if decide (3 ≤ s.failuresNow) = true then State.say _ _ else _) = _
  by_cases hn : decide (3 ≤ s.failuresNow) = true
  · rw [if_pos hn]
    exact h _ _
  · rw [if_neg hn]
    rfl

theorem startFailed_ctxs : (s.startFailed r pairs warm k).ctxs = [] := startFailed_view State.ctxs (fun _ _ => rfl)

theorem startFailed_mem : (s.startFailed r pairs warm k).mem = if 7 ≤ k then [] else s.mem := startFailed_view State.mem (fun _ _ => rfl)

theorem startFailed_dev : (s.startFailed r pairs warm k).dev = s.dev.failedAt r warm k s.failuresNow := startFailed_view State.dev (fun _ _ => rfl)

theorem booting_authMeas (d : Device) (h : 4 < k) : (d.booting r warm k).authMeas = some (measOf r) := by
  unfold Device.booting
  dsimp only
  rw [if_pos h]

theorem booting_warm_meas (d : Device) (h : 3 < k) : (d.booting r true k).meas = measOf r := by
  unfold Device.booting
  dsimp only
  rw [if_pos (Or.inr ⟨rfl, h⟩)]
  split
  · rfl
  · rfl

/-- A cold start that fails counts; the third in a row enters safe mode. -/
theorem coldStart_fails (h : startFailure r [] r.pairs = some k) (hp : s.dev.phase = .reset) :
    ∃ u, exec (.coldStart r) s = .next u ∧ u.dev.failures = s.dev.failures + 1 ∧ u.dev.phase = (if 2 ≤ s.dev.failures then .safeMode else .reset) ∧ u.ctxs = [] ∧
      (4 < k → u.dev.authMeas = some (measOf r)) ∧ u.mem = (if 7 ≤ k then [] else s.mem) ∧
      (2 ≤ s.dev.failures → u.dev.record = some (k, r.failedDie, r.cause) ∧ u.dev.trained = [0]) := by
  have he : exec (.coldStart r) s = .next (s.startFailed r r.pairs false k) := by
    change execColdStart r s = _
    unfold execColdStart
    rw [h]
  have hn : s.failuresNow = s.dev.failures + 1 := congrArg (· + 1) (if_pos hp)
  have hthree : decide (3 ≤ s.failuresNow) = true ↔ 2 ≤ s.dev.failures := by rw [decide_eq_true_eq]; omega
  have hdev := startFailed_dev (s := s) (r := r) (pairs := r.pairs) (warm := false) (k := k)
  refine ⟨_, he, ?_, ?_, startFailed_ctxs, fun hk => ?_, startFailed_mem, fun h2 => ?_⟩
  · rw [hdev]
    exact hn
  · rw [hdev]
    exact if_congr hthree rfl rfl
  · rw [hdev]
    exact booting_authMeas s.dev hk
  · rw [hdev]
    exact ⟨if_pos (hthree.2 h2), if_pos (hthree.2 h2)⟩

theorem warmStart_fails (h : startFailure r (if s.dev.authMeas = some (measOf r) then [1, 2, 4] else [1, 2]) s.bistPairs = some k) :
    ∃ u, exec (.warmStart r) s = .next u ∧ u.ctxs = [] ∧ (3 < k → u.dev.meas = measOf r) ∧ u.mem = (if 7 ≤ k then [] else s.mem) := by
  have he : exec (.warmStart r) s = .next (s.startFailed r s.bistPairs true k) := by
    change execWarmStart r s = _
    unfold execWarmStart
    dsimp only
    rw [h]
  refine ⟨_, he, startFailed_ctxs, fun hk => ?_, startFailed_mem⟩
  rw [startFailed_dev]
  exact booting_warm_meas s.dev hk

/-- Whether a start fails at a step that it does not skip. -/
def startFails (r : StartReport) (skip : List Nat) (pairs : List Bool) (k : Nat) : Bool :=
  !skip.contains k && (r.failedStep == some k || (k == 4 && !authenticImages r) || (k == 8 && !pairs.any id))

/-- Images that are not authentic fail step 4 where no step before it has failed. -/
theorem startFailure_unauthentic (h : authenticImages r = false) : ∃ k, startFailure r [] pairs = some k ∧ k ≤ 4 := by
  have h4 : startFails r [] pairs 4 = true := by simp [startFails, h]
  have hf : startFailure r [] pairs = (([1, 2, 3].find? (startFails r [] pairs)).or ((4 :: [7, 8]).find? (startFails r [] pairs))) := List.find?_append (xs := [1, 2, 3]) (ys := [4, 7, 8])
  rw [List.find?_cons_of_pos h4] at hf
  rw [hf]
  cases hl : [1, 2, 3].find? (startFails r [] pairs) with
  | none => exact ⟨4, rfl, Nat.le_refl 4⟩
  | some k =>
    refine ⟨k, rfl, ?_⟩
    have hm := List.mem_of_find?_eq_some hl
    simp only [List.mem_cons, List.not_mem_nil, or_false] at hm
    omega
end

/-! ## Attestation (R385, R386) -/

section
variable {s : State} {ctx : Nat} {c : Ctx}

theorem leBytes_length (n v : Nat) : (leBytes n v).length = n := (List.length_map ..).trans List.length_range

theorem beBytes_length (n v : Nat) : (beBytes n v).length = n := List.length_reverse.trans (leBytes_length n v)

theorem beBytes_getD {n i : Nat} (v : Nat) (h : i < n) : (beBytes n v).getD i 0 = byteOf v (n - 1 - i) := by
  unfold beBytes
  have hl : i < (leBytes n v).reverse.length := by rw [List.length_reverse, leBytes_length]; exact h
  rw [List.getD_eq_getElem _ _ hl, List.getElem_reverse]
  unfold leBytes
  rw [List.getElem_map, List.getElem_range, List.length_map, List.length_range]

theorem reportBytes_length (s : State) (nonce : BitVec 512) (c : Ctx) : (s.reportBytes nonce c).length = 0xE0 := by
  unfold State.reportBytes
  rw [List.length_append, List.length_append, List.length_append, List.length_append, List.length_append, List.length_append,
    leBytes_length, leBytes_length, leBytes_length, leBytes_length, leBytes_length, leBytes_length, leBytes_length]

/-- The two halves of the signature after the report's 0xE0 bytes. -/
theorem sigBytes_at {bs : List Byte} (hb : bs.length = 0xE0) (sig : BitVec 1056) {i : Nat} (hi : i < 66) :
    (bs ++ sigBytes sig).getD (0xE0 + i) 0 = byteOf (sig.toNat / 2 ^ 528) (65 - i) ∧ (bs ++ sigBytes sig).getD (0xE0 + 66 + i) 0 = byteOf (sig.toNat % 2 ^ 528) (65 - i) := by
  unfold sigBytes
  constructor
  · rw [List.getD_append_right _ _ _ _ (by omega), hb, Nat.add_sub_cancel_left, List.getD_append _ _ _ _ (by rw [beBytes_length]; exact hi)]
    exact beBytes_getD _ hi
  · rw [List.getD_append_right _ _ _ _ (by omega), hb, Nat.add_assoc, Nat.add_sub_cancel_left, List.getD_append_right _ _ _ _ (by rw [beBytes_length]; omega), beBytes_length,
      Nat.add_sub_cancel_left]
    exact beBytes_getD _ hi

theorem attestation_signs (nonce : BitVec 512) (hc : s.ctxRec ctx = some c) : ∃ u, exec (.attestationRequest nonce ctx) s = .next u ∧ u.sameMem s ∧ (s.reportBytes nonce c).length = 0xE0 ∧
    (let sig := Config.sign (Config.derive s.dev.secret (leBytes 64 s.dev.meas.toNat)) (leBytes 64 (Config.sha512 (s.reportBytes nonce c)).toNat)
     let bytes := s.reportBytes nonce c ++ sigBytes sig
     .report bytes ∈ u.out ∧ bytes.length = 0x164 ∧
       (∀ i, i < 66 → bytes.getD (0xE0 + i) 0 = byteOf (sig.toNat / 2 ^ 528) (65 - i) ∧ bytes.getD (0xE0 + 66 + i) 0 = byteOf (sig.toNat % 2 ^ 528) (65 - i))) := by
  have hl := reportBytes_length s nonce c
  have he : exec (.attestationRequest nonce ctx) s = .next (s.say (.report (s.reportBytes nonce c ++
      sigBytes (Config.sign s.dev.identity (leBytes 64 (Config.sha512 (s.reportBytes nonce c)).toNat))))) := by
    change execAttestationRequest nonce ctx s = _
    unfold execAttestationRequest
    rw [hc]
  refine ⟨_, he, ⟨rfl, rfl⟩, hl, List.mem_append_right _ (List.mem_singleton.2 rfl), ?_, fun i hi => sigBytes_at hl _ hi⟩
  rw [List.length_append, hl]
  unfold sigBytes
  rw [List.length_append, beBytes_length, beBytes_length]

theorem confidentialRequest_keys (hc : s.ctxRec ctx = some c) : ∃ u, exec (.confidentialContextRequest ctx) s = .next u ∧ u.sameMem s ∧ u.confidential ctx = true := by
  refine ⟨_, rfl, ⟨rfl, rfl⟩, ?_⟩
  have hr := ctxRec_modCtx s ctx (fun c => { c with key := some (c.key.getD s.nextId) }) (fun _ => rfl)
  rw [hc] at hr
  exact congrArg (fun o : Option Ctx => (o.bind (·.key)).isSome) hr
end

/-! ## Retranslations and code objects (R341 to R343, R348) -/

section
variable {s t : State} {ctx base e n : Nat} {c : Ctx} {fs : List Nat} {image : List Byte}

/-- The context with an entry's translation written. -/
def Ctx.retargeted (c : Ctx) (e n k : Nat) : Ctx := { c with translations := c.translations.filter (fun x => x.entry != e) ++ [{ entry := e, target := n, share := k }] }

theorem translated_retargeted (c : Ctx) (e n k : Nat) : (c.retargeted e n k).translated e = n := by
  have hnone : (c.translations.filter (fun x => x.entry != e)).find? (fun t => t.entry == e) = none := by
    refine List.find?_eq_none.2 (fun x hx hp => ?_)
    exact bne_iff_ne.1 (List.mem_filter.1 hx).2 (beq_iff_eq.1 hp)
  unfold Ctx.retargeted Ctx.translated
  dsimp only
  rw [List.find?_append, hnone, Option.none_or]
  simp

theorem ctxRec_retargeted (k : Nat) (hc : t.ctxRec ctx = some c) : ((t.modCtx ctx (fun c => c.retargeted e n k)).ctxRec ctx).map (fun x => x.translated e) = some n := by
  rw [ctxRec_modCtx t ctx (fun c => c.retargeted e n k) (fun _ => rfl), hc]
  exact congrArg some (translated_retargeted c e n k)

theorem retranslation_writes (hc : s.ctxRec ctx = some c) (ht : c.template e = none) :
    ∃ u, exec (.retranslationInstall ctx e ⟨n, fs⟩) s = .next u ∧ u.sameMem s ∧ (u.ctxRec ctx).map (fun x => x.translated e) = some n := by
  have he : exec (.retranslationInstall ctx e ⟨n, fs⟩) s = .next (s.modCtx ctx (fun c => c.retargeted e n 1)) := by
    change execRetranslationInstall ctx e ⟨n, fs⟩ s = _
    unfold execRetranslationInstall
    dsimp only
    rw [hc]
    dsimp only
    rw [ht]
    rfl
  exact ⟨_, he, ⟨rfl, rfl⟩, ctxRec_retargeted 1 hc⟩

theorem retranslation_places {m : Template} {x : Memory × List Nat} (hc : s.ctxRec ctx = some c) (ht : c.template e = some m)
    (hx : placePages (s.mem, fs) c.root (n / 4096 * 4096) 0x15 m.retranslated.2 = some x) :
    ∃ u, exec (.retranslationInstall ctx e ⟨n, fs⟩) s = .next u ∧ u.mem = x.1 ∧ u.host = s.host ∧ u.launches = s.launches ∧ (u.ctxRec ctx).map (fun y => y.translated e) = some n := by
  have he : exec (.retranslationInstall ctx e ⟨n, fs⟩) s = .next (({ s with mem := x.1 } : State).modCtx ctx (fun c => c.retargeted e n m.retranslated.1)) := by
    change execRetranslationInstall ctx e ⟨n, fs⟩ s = _
    unfold execRetranslationInstall
    dsimp only
    rw [hc]
    dsimp only
    rw [ht]
    dsimp only
    rw [hx]
    rfl
  exact ⟨_, he, rfl, rfl, rfl, ctxRec_retargeted (t := { s with mem := x.1 }) _ hc⟩

theorem ctxRec_measured {f : Ctx → Ctx} (hf : ∀ x, (f x).ctx = x.ctx) (hm : ∀ x, (f x).measured = x.measured ++ image) (hc : t.ctxRec ctx = some c) :
    ((t.modCtx ctx f).ctxRec ctx).map (·.measured) = some (c.measured ++ image) := by
  rw [ctxRec_modCtx t ctx f hf, hc]
  exact congrArg some (hm c)

/-- What an installed object adds to its context's measurement. -/
theorem install_measured {h : ObjHeader} (hc : s.ctxRec ctx = some c) (hi : s.install c base fs h image = some t) (hcc : c.ctx = ctx) :
    (t.ctxRec ctx).map (·.measured) = some (c.measured ++ image) := by
  unfold State.install at hi
  dsimp only at hi
  split at hi
  · exact nomatch hi
  · rw [← Option.some.inj hi, hcc]
    exact ctxRec_measured (fun _ => rfl) (fun _ => rfl) hc

theorem check_magic (h : imgWord image 0 ≠ 0x4A424F51) : (ObjHeader.parse image).check image c base = 1 := by
  have hb : (imgWord image 0 == 0x4A424F51) = false := beq_eq_false_iff_ne.2 h
  unfold ObjHeader.check
  dsimp only
  rw [hb]
  simp only [Bool.and_false, Bool.false_and, Bool.not_false, if_true]

theorem codeObjectLoad_refuses (hc : s.ctxRec ctx = some c) (h : (ObjHeader.parse image).check image c (base / 4096 * 4096) ≠ 0) :
    exec (.codeObjectLoad ctx base fs image) s = .next (s.say (.loaded ctx ((ObjHeader.parse image).check image c (base / 4096 * 4096)))) := by
  change execCodeObjectLoad ctx base fs image s = _
  unfold execCodeObjectLoad
  rw [hc]
  dsimp only
  rw [if_pos h]

theorem codeObjectLoad_installs (hc : s.ctxRec ctx = some c) (h : (ObjHeader.parse image).check image c (base / 4096 * 4096) = 0)
    (hi : s.install c (base / 4096 * 4096) fs (ObjHeader.parse image) image = some t) : exec (.codeObjectLoad ctx base fs image) s = .next (t.say (.loaded ctx 0)) := by
  change execCodeObjectLoad ctx base fs image s = _
  unfold execCodeObjectLoad
  rw [hc]
  dsimp only
  rw [if_neg (not_not_intro h), hi]
end

end Sys2Proof.Machine
end

section
/-!
The device: service pairs, errors, gating, power, links: O60.
-/
namespace Sys2Proof.Machine

/-! ## The service pairs and the leader (R387, R389) -/

section
variable {s : State} {d : DieRec}

/-- A view that sees neither groups, streams nor commands. -/
structure CrewBlind {β : Type} (pi : State → β) : Prop where
  crew : ∀ s gs xs cs x g, pi { s with groups := gs, streams := xs, cmds := cs, st := x, gr := g } = pi s

theorem dropPair_keeps {β : Type} {pi : State → β} (h : CrewBlind pi) (s : State) (die : Nat) : pi (s.dropPair die) = pi s := by
  have hone (t : State) (gid : Nat) : pi (t.removeGroup gid) = pi t := by
    rw [removeGroup_eq]
    exact h.crew t _ _ _ _ _
  exact foldl_keeps pi hone _ s

theorem dropPair_mem (s : State) (die : Nat) : (s.dropPair die).sameMem s := ⟨dropPair_keeps (pi := State.mem) ⟨fun _ _ _ _ _ _ => rfl⟩ s die, dropPair_keeps (pi := State.host) ⟨fun _ _ _ _ _ _ => rfl⟩ s die⟩

/-- A view that sees neither messages nor the device's own record sees of a stopped pair its die alone. -/
theorem stopPair_view {β : Type} {pi : State → β} (h : ∀ s out dev, pi { s with out := out, dev := dev } = pi s) (s : State) (die : Nat) :
    pi (s.stopPair die) = pi (s.modDie die (fun d => { d with pairOk := false })) := by
  unfold State.stopPair
  dsimp only
  split
  · split
    · exact h (s.modDie die (fun d => { d with pairOk := false })) _ _
    · exact h (s.modDie die (fun d => { d with pairOk := false })) _ _
  · exact h (s.modDie die (fun d => { d with pairOk := false })) _ _

theorem stopPair_says (s : State) (die : Nat) : .machineCheck 2 die ∈ (s.stopPair die).out := by
  have hm : HostMsg.machineCheck 2 die ∈ ((s.modDie die (fun d => { d with pairOk := false })).say (.machineCheck 2 die)).out := List.mem_append_right _ (List.mem_singleton.2 rfl)
  unfold State.stopPair
  dsimp only
  split
  · split
    · exact hm
    · exact List.mem_append_left _ hm
  · exact hm

/-- A die whose pair has been taken out of service. -/
theorem pairOk_off (s : State) (die : Nat) : ((s.modDie die (fun d => { d with pairOk := false })).dieRec die).pairOk = false := by
  unfold State.dieRec State.modDie
  dsimp only
  rw [find?_map_keep (fun x : DieRec => x.die) die (fun d => { d with pairOk := false }) (fun _ => rfl)]
  cases s.dies.find? (fun x => x.die == die) with
  | none => rfl
  | some x => rfl

theorem dieRec_found (hd : s.dies.find? (fun x => x.die == d.die) = some d) : s.dieRec d.die = d := congrArg (fun o : Option DieRec => o.getD (DieRec.start d.die)) hd

theorem lockstep_stops (hd : s.dies.find? (fun x => x.die == d.die) = some d) (hp : d.pairOk = true) :
    ∃ u, exec (.lockstepMismatch d.die) s = .next u ∧ u.sameMem s ∧ (u.dieRec d.die).pairOk = false ∧ .machineCheck 2 d.die ∈ u.out := by
  have he : exec (.lockstepMismatch d.die) s = .next ((s.dropPair d.die).stopPair d.die) := congrArg Host.Outcome.next (if_pos (by rw [dieRec_found hd]; exact hp))
  have hmem : ((s.dropPair d.die).stopPair d.die).sameMem (s.dropPair d.die) := ⟨stopPair_view (fun _ _ _ => rfl) _ _, stopPair_view (fun _ _ _ => rfl) _ _⟩
  refine ⟨_, he, sameMem_trans _ _ s hmem (dropPair_mem s d.die), ?_, stopPair_says _ _⟩
  exact (stopPair_view (pi := fun t => (t.dieRec d.die).pairOk) (fun _ _ _ => rfl) _ _).trans (pairOk_off _ _)

theorem patrolScrub_counts (hd : s.dies.find? (fun x => x.die == d.die) = some d) (n : Nat) :
    ∃ u, exec (.patrolScrub d.die n) s = .next u ∧ u.sameMem s ∧ (u.dieRec d.die).corrected = d.corrected + n :=
  ⟨_, rfl, ⟨rfl, rfl⟩, congrArg DieRec.corrected (dieRec_modDie s d.die (fun x => { x with corrected := x.corrected + n }) (fun _ => rfl) d hd)⟩

theorem heartbeat_writes (hd : s.dies.find? (fun x => x.die == d.die) = some d) (hl : s.dev.leader = d.die) (hp : d.pairOk = true) :
    ∃ u, exec .heartbeatWrite s = .next u ∧ u.sameMem s ∧ ∀ x ∈ u.dies, x.pairOk = true → x.hb = BitVec.ofNat 64 (s.dev.term.toNat * 2 ^ 32 + (d.hb.toNat + 1) % 2 ^ 32) := by
  have hr : s.dieRec s.dev.leader = d := by rw [hl]; exact dieRec_found hd
  refine ⟨_, congrArg Host.Outcome.next (if_pos (by rw [hr]; exact hp)), ⟨rfl, rfl⟩, fun x hx hok => ?_⟩
  obtain ⟨y, -, rfl⟩ := List.mem_map.1 hx
  rw [hr] at hok ⊢
  split
  · rfl
  · next hy =>
    rw [if_neg hy] at hok
    exact absurd hok hy

/-- The die that a claim leaves: HB written where the pair is in service. -/
def DieRec.claimed (new : Pair) (now : Nat) (x : DieRec) : DieRec := if x.pairOk then { x with hb := new, hbSeen := now } else x

theorem claim_succeeds {old new : Pair} {now : Nat} {ds : List DieRec} (h : ∀ x ∈ ds, x.pairOk = true → x.hb = old) : claim old new now ds = (ds.map (DieRec.claimed new now), true) := by
  induction ds with
  | nil => rfl
  | cons x r ih =>
    have hr := ih (fun y hy => h y (List.mem_cons_of_mem _ hy))
    unfold claim
    rw [hr, List.map_cons]
    unfold DieRec.claimed
    cases hp : x.pairOk with
    | false => rfl
    | true => exact if_pos (h x List.mem_cons_self hp)

theorem takeover_leads (hd : s.dies.find? (fun x => x.die == d.die) = some d) (hc : s.claims d.die = true) (hall : ∀ x ∈ s.dies, x.pairOk = true → x.hb = d.hb) :
    ∃ u, exec (.leaderTakeover d.die) s = .next u ∧ u.sameMem s ∧ u.dev.leader = d.die ∧ u.dev.term = BitVec.ofNat 32 (d.hb.toNat / 2 ^ 32 + 1) ∧
      (u.dieRec s.dev.leader).pairOk = false ∧ .taken d.die ∈ u.out := by
  let term : Word := BitVec.ofNat 32 (d.hb.toNat / 2 ^ 32 + 1)
  let s1 : State := { s with dies := s.dies.map (DieRec.claimed (BitVec.ofNat 64 (term.toNat * 2 ^ 32)) s.dev.clock.toNat) }
  let s2 := (s1.dropPair s.dev.leader).modDie s.dev.leader (fun d => { d with pairOk := false })
  have he : exec (.leaderTakeover d.die) s = .next (({ s2 with dev := { s2.dev with leader := d.die, term := term } } : State).say (.taken d.die)).reroute := by
    change execLeaderTakeover d.die s = _
    unfold execLeaderTakeover
    dsimp only
    rw [hc, dieRec_found hd, claim_succeeds hall]
    rfl
  refine ⟨_, he, sameMem_trans (s1.dropPair s.dev.leader) s1 s (dropPair_mem s1 _) ⟨rfl, rfl⟩, rfl, rfl, pairOk_off (s1.dropPair s.dev.leader) s.dev.leader, ?_⟩
  exact List.mem_append_left _ (List.mem_append_right _ (List.mem_singleton.2 rfl))
end

/-! ## Errors that cannot be corrected (R391) -/

section
variable {s : State}

theorem l1_dropped (s : State) (core pa : Nat) :
    ∃ u, exec (.uncorrectableError (.l1 core pa)) s = .next u ∧ u.sameMem s ∧ ∀ x ∈ u.l1, x.core = core → ∀ a, x.sector.pa = some a → a / 128 ≠ pa / 128 := by
  refine ⟨_, rfl, ⟨rfl, rfl⟩, fun x hx hcore a ha hline => ?_⟩
  have hne := (List.mem_filter.1 (show x ∈ s.l1.filter (fun x => !(x.core == core && x.sector.pa.any (fun a => a / 128 == pa / 128))) from hx)).2
  rw [ha, hcore] at hne
  simp [hline] at hne

/-- The slots of the overlays that hold a segment. -/
def Overlay.holds (core ctx va : Nat) (o : Overlay) : Bool := o.core == core && o.ctx == ctx && o.va == va

theorem holds_iff {core ctx va : Nat} {o : Overlay} : o.holds core ctx va = true ↔ o.core = core ∧ o.ctx = ctx ∧ o.va = va := by
  unfold Overlay.holds
  rw [Bool.and_eq_true, Bool.and_eq_true, beq_iff_eq, beq_iff_eq, beq_iff_eq, and_assoc]

theorem refetch_absent {core ctx va : Nat} (h : s.overlays.any (Overlay.holds core ctx va) = false) : s.refetch core ctx va = s := if_pos (by
  change (!s.overlays.any (Overlay.holds core ctx va)) = true
  rw [h]
  rfl)

/-- What fetches a struck slot again. -/
theorem refetch_present {core ctx va : Nat} (h : s.overlays.any (Overlay.holds core ctx va) = true) : (s.refetch core ctx va).sameMem s ∧
    (s.refetch core ctx va).overlays = s.overlays.filter (fun o => !o.holds core ctx va) ∧ .overlayFetchComplete core ctx va ∈ (s.refetch core ctx va).events ∧
    ∃ c ∈ (s.refetch core ctx va).cmds, c.kind = .cfetch ∧ c.state = .accepted ∧ c.core = core ∧ c.ctx = ctx ∧ c.arg = va := by
  have he : s.refetch core ctx va = _ := if_neg (show ¬(!s.overlays.any (Overlay.holds core ctx va)) = true by rw [h]; exact Bool.noConfusion)
  rw [he]
  exact ⟨⟨rfl, rfl⟩, rfl, List.mem_append_right _ (List.mem_singleton.2 rfl), _, List.mem_append_right _ (List.mem_singleton.2 rfl), rfl, rfl, rfl, rfl, rfl⟩

theorem overlay_refetched (s : State) (core ctx va : Nat) :
    ∃ u, exec (.uncorrectableError (.overlay core ctx va)) s = .next u ∧ u.sameMem s ∧ (∀ o ∈ u.overlays, ¬(o.core = core ∧ o.ctx = ctx ∧ o.va = va / 4096 * 4096)) ∧
      ((∃ o ∈ s.overlays, o.core = core ∧ o.ctx = ctx ∧ o.va = va / 4096 * 4096) → .overlayFetchComplete core ctx (va / 4096 * 4096) ∈ u.events ∧
        ∃ c ∈ u.cmds, c.kind = .cfetch ∧ c.state = .accepted ∧ c.core = core ∧ c.ctx = ctx ∧ c.arg = va / 4096 * 4096) := by
  refine ⟨(s.refetch core ctx (va / 4096 * 4096)).corrected (dieOf core) 1, rfl, ?_⟩
  generalize va / 4096 * 4096 = a
  cases h : s.overlays.any (Overlay.holds core ctx a) with
  | true =>
    obtain ⟨hmem, hover, hev, hcmd⟩ := refetch_present h
    refine ⟨hmem, fun o ho hat => ?_, fun _ => ⟨hev, hcmd⟩⟩
    have hm : o ∈ (s.refetch core ctx a).overlays := ho
    rw [hover] at hm
    have hf := (List.mem_filter.1 hm).2
    rw [holds_iff.2 hat] at hf
    exact Bool.noConfusion hf
  | false =>
    have hnone (o : Overlay) (ho : o ∈ s.overlays) (hat : o.core = core ∧ o.ctx = ctx ∧ o.va = a) : False := by
      have := List.any_eq_false.1 h o ho
      exact this (holds_iff.2 hat)
    rw [refetch_absent h]
    exact ⟨⟨rfl, rfl⟩, fun o ho hat => hnone o ho hat, fun ⟨o, ho, hat⟩ => (hnone o ho hat).elim⟩

/-- A home group struck in its own state ends as DOUBLE ends it. -/
theorem groupState_ends (hid : s.st.sid ≠ 0) (hg : s.st.gid = s.gr.gid) (hk : s.st.kind = .home) (hc : s.confidential s.gr.ctx = false) :
    ∃ u, exec (.uncorrectableError (.groupState s.gr.gid)) s = .next u ∧ u.sameMem s ∧ u.gr.alive = 0 ∧ .machineCheck 6 s.gr.gid ∈ u.out ∧ .doubleRecord s.gr.ctx 3 s.instrPc 0 0 ∈ u.out := by
  let t := ((s.say (.machineCheck 6 s.gr.gid)).say (.doubleRecord s.gr.ctx 3 s.instrPc 0 0)).launchStatus s.un.launch 3 (BitVec.ofNat 8 3)
  have he : exec (.uncorrectableError (.groupState s.gr.gid)) s = .next t.killGroup := by
    have hfind : (s.say (.machineCheck 6 s.gr.gid)).allStreams.find? (fun x => x.gid == s.gr.gid && x.sid != 0) = some s.st :=
      List.find?_cons_of_pos (by rw [Bool.and_eq_true, beq_iff_eq, bne_iff_ne]; exact ⟨hg, hid⟩)
    refine congrArg Host.Outcome.next ?_
    change (s.say (.machineCheck 6 s.gr.gid)).strikeGroup s.gr.gid = _
    unfold State.strikeGroup
    rw [hfind]
    dsimp only
    rw [show (s.say (.machineCheck 6 s.gr.gid)).focus s.st.sid = s.say (.machineCheck 6 s.gr.gid) from focus_self (s.say (.machineCheck 6 s.gr.gid)),
      show (s.say (.machineCheck 6 s.gr.gid)).st.kind = .home from hk]
    dsimp only
    rw [State.double, show (s.say (.machineCheck 6 s.gr.gid)).st.kind = .home from hk, show (s.say (.machineCheck 6 s.gr.gid)).confidential (s.say (.machineCheck 6 s.gr.gid)).gr.ctx = false from hc]
    rfl
  have hcheck : HostMsg.machineCheck 6 s.gr.gid ∈ t.out := List.mem_append_left _ (List.mem_append_right _ (List.mem_singleton.2 rfl))
  have hrec : HostMsg.doubleRecord s.gr.ctx 3 s.instrPc 0 0 ∈ t.out := List.mem_append_right _ (List.mem_singleton.2 rfl)
  have hmem : t.sameMem s := ⟨rfl, rfl⟩
  clear_value t
  exact ⟨_, he, sameMem_trans _ _ s (killGroup_mem t) hmem, congrArg Group.alive (killGroup_gr t), mem_killGroup_out hcheck, mem_killGroup_out hrec⟩
end

/-! ## Trace buffers, gating and counters (R377, R380, R393) -/

section
variable {s : State} {c : Cluster}

/-- The first record of a cluster after a change that keeps clusters' numbers. -/
theorem find?_clusters {f : Cluster → Cluster} (hf : ∀ x, (f x).cluster = x.cluster) {n : Nat} {cs : List Cluster} (hc : cs.find? (fun x => x.cluster == n) = some c) :
    (cs.map f).find? (fun x => x.cluster == n) = some (f c) := by
  have hp : ((fun x : Cluster => x.cluster == n) ∘ f) = fun x => x.cluster == n := funext (fun x => congrArg (· == n) (hf x))
  rw [List.find?_map, hp, hc]
  rfl

theorem find?_modCluster {f : Cluster → Cluster} (hf : ∀ x, (f x).cluster = x.cluster) (hc : s.clusters.find? (fun x => x.cluster == c.cluster) = some c) :
    (s.modCluster c.cluster f).clusters.find? (fun x => x.cluster == c.cluster) = some (f c) := by
  refine (find?_clusters (f := fun x => if x.cluster = c.cluster then f x else x) (fun x => ?_) hc).trans (congrArg some (if_pos rfl))
  split
  · exact hf x
  · rfl

theorem putRecord_clusters (s : State) (pa : Nat) (ws : List Word) : (s.putRecord pa ws).clusters = s.clusters := by
  induction ws generalizing s pa with
  | nil => rfl
  | cons w r ih =>
    unfold State.putRecord
    rw [ih]
    exact putN_view (pi := State.clusters) (putByte_keeps State.clusters (fun _ _ _ _ _ _ _ _ => rfl)) s _ _ _

theorem traceDrain_writes (hc : s.clusters.find? (fun x => x.cluster == c.cluster) = some c) {ws : List Word} {r : List (List Word)} (ht : c.trace = ws :: r) (hcap : c.ringCap ≠ 0) :
    ∃ u, exec (.traceDrain c.cluster) s = .next u ∧ (u.clusters.find? (fun x => x.cluster == c.cluster)) = some { c with trace := r, drained := c.drained + 1 } ∧
      ∀ w, ws = [w] → c.ring + 64 * (c.drained % c.ringCap) + 4 ≤ Config.hbmBytes → u.getN (.dev (c.ring + 64 * (c.drained % c.ringCap))) 4 = w.toNat := by
  have he : exec (.traceDrain c.cluster) s = .next ((s.putRecord (c.ring + 64 * (c.drained % c.ringCap)) ws).modCluster c.cluster (fun x => { x with trace := r, drained := x.drained + 1 })) := by
    change execTraceDrain c.cluster s = _
    unfold execTraceDrain
    rw [hc]
    dsimp only
    rw [ht]
    dsimp only
    rw [if_neg hcap]
  refine ⟨_, he, find?_modCluster (fun _ => rfl) (by rw [putRecord_clusters]; exact hc), fun w hw hb => ?_⟩
  subst hw
  generalize c.ring + 64 * (c.drained % c.ringCap) = pa at hb ⊢
  have hmem : ((s.putRecord pa [w]).modCluster c.cluster (fun x => { x with trace := r, drained := x.drained + 1 })).mem = s.mem.putN pa w.toNat 4 := putN_dev_mem s hb w.toNat
  rw [getN_dev_mem _ hb, hmem, getN_putN_mem]
  exact Nat.mod_eq_of_lt w.isLt

theorem idleGate_gates (hc : s.clusters.find? (fun x => x.cluster == c.cluster) = some c) (hi : s.idle c 6000 = true) (ht : c.trace = []) :
    ∃ u, exec (.clusterIdleGate c.cluster) s = .next u ∧ u.sameMem s ∧ u.clusters.find? (fun x => x.cluster == c.cluster) = some { c with gated := true, wakeAt := 0, loss := min 255 c.loss } := by
  refine ⟨_, rfl, ⟨rfl, rfl⟩, (find?_modCluster (fun x => ?_) hc).trans (congrArg some ?_)⟩
  · split
    · rfl
    · rfl
  · rw [hi, ht]
    unfold Cluster.gate
    rw [ht]
    rfl

theorem gateTimeout_gates (hc : s.clusters.find? (fun x => x.cluster == c.cluster) = some c) (hi : s.idle c 36000 = true) :
    ∃ u, exec (.gateDrainTimeout c.cluster) s = .next u ∧ u.sameMem s ∧
      u.clusters.find? (fun x => x.cluster == c.cluster) = some { c with gated := true, wakeAt := 0, trace := [], loss := min 255 (c.loss + c.trace.length) } := by
  refine ⟨_, rfl, ⟨rfl, rfl⟩, (find?_modCluster (fun x => ?_) hc).trans (congrArg some (if_pos hi))⟩
  split
  · rfl
  · rfl

theorem wake_opens (hc : s.clusters.find? (fun x => x.cluster == c.cluster) = some c) (hg : c.gated = true) (hw : c.wakeAt ≤ s.dev.clock.toNat) :
    ∃ u, exec (.clusterWake c.cluster) s = .next u ∧ u.sameMem s ∧
      u.clusters.find? (fun x => x.cluster == c.cluster) = some { c with gated := false, wakeAt := 0, idleSince := s.dev.clock.toNat } := by
  refine ⟨_, rfl, ⟨rfl, rfl⟩, (find?_modCluster (fun x => ?_) hc).trans (congrArg some (if_pos ?_))⟩
  · split
    · rfl
    · rfl
  · rw [hg]
    exact decide_eq_true hw

theorem forcedGate_gates (s : State) : ∃ u, exec .thermalForcedGate s = .next u ∧ u.sameMem s ∧
    ∀ x ∈ u.clusters, x.gated = true ∧ x.trace = [] ∧ x.wakeAt = (if s.resident x.cluster = true then s.dev.clock.toNat + 1200 else 0) := by
  refine ⟨_, rfl, ⟨rfl, rfl⟩, fun x hx => ?_⟩
  obtain ⟨y, -, rfl⟩ := List.mem_map.1 hx
  exact ⟨rfl, rfl, rfl⟩

/-- A record of type 5 in a cluster's buffer with room. -/
theorem trace_record {core : Nat} (hc : s.clusters.find? (fun x => x.cluster == c.cluster) = some c) (hk : clusterOf core = c.cluster) (hroom : c.trace.length < 256) (ws : List Word) :
    ∃ y rec, (s.trace core 0 5 [0, 0, 0, 0] ws).clusters.find? (fun x => x.cluster == c.cluster) = some y ∧ y.cluster = c.cluster ∧ y.loss = 0 ∧ y.trace = c.trace ++ [rec] ∧
      ∀ i, i < ws.length → rec.getD (7 + i) 1 = ws.getD i 0 := by
  have hmap := find?_clusters (f := fun c => if c.cluster ≠ clusterOf core then c
        else if 256 ≤ c.trace.length then { c with loss := min 255 (c.loss + 1) }
        else { c with trace := c.trace ++ [(BitVec.ofNat 32 (5 * 2 ^ 28 + c.loss * 2 ^ 20 + core % 64 % 6 * 2 ^ 16 + 0 % 2 ^ 16) :: BitVec.ofNat 32 s.dev.clock.toNat ::
              BitVec.ofNat 32 (s.dev.clock.toNat / 2 ^ 32) :: ([0, 0, 0] ++ [0] ++ ws ++ List.replicate (9 - ws.length) 0))], loss := 0 }) (fun x => by
    split
    · rfl
    · split
      · rfl
      · rfl) hc
  rw [if_neg (not_not_intro hk.symm), if_neg (Nat.not_le.2 hroom)] at hmap
  refine ⟨_, _, hmap, rfl, rfl, rfl, fun i hi => ?_⟩
  rw [Nat.add_comm 7 i]
  change (ws ++ List.replicate (9 - ws.length) 0).getD i 1 = ws.getD i 0
  rw [List.getD_append _ _ _ _ hi, List.getD_eq_getElem _ _ hi, List.getD_eq_getElem _ _ hi]

/-- Two records hold the low words of the core's counters. -/
theorem snapshot_records {x : CoreRec} (hc : s.clusters.find? (fun x => x.cluster == c.cluster) = some c) (hx : s.coreRec x.core = some x) (hk : clusterOf x.core = c.cluster)
    (hroom : c.trace.length + 2 ≤ 256) (hn : x.ecnt.length = 16) : ∃ u y, exec (.counterSnapshotRequest ⟨x.core, []⟩) s = .next u ∧ u.sameMem s ∧
      u.clusters.find? (fun z => z.cluster == c.cluster) = some y ∧ y.trace.length = c.trace.length + 2 ∧ y.loss = 0 ∧
        ∀ i, i < 16 → ((y.trace.getD (c.trace.length + i / 9) []).getD (7 + i % 9) 1) = (x.ecnt.getD i 0).setWidth 32 := by
  let ws : List Word := x.ecnt.map (fun v => v.setWidth 32)
  have he : exec (.counterSnapshotRequest ⟨x.core, []⟩) s = .next ((s.trace x.core 0 5 [0, 0, 0, 0] (ws.take 9)).trace x.core 0 5 [0, 0, 0, 0] (ws.drop 9)) := by
    change execCounterSnapshotRequest ⟨x.core, []⟩ s = _
    unfold execCounterSnapshotRequest
    dsimp only [List.foldl_nil]
    rw [hx]
  have hws : ws.length = 16 := (List.length_map ..).trans hn
  have hat (i : Nat) (hi : i < 16) : ws.getD i 0 = (x.ecnt.getD i 0).setWidth 32 := by
    rw [List.getD_eq_getElem _ _ (by rw [hws]; exact hi), List.getD_eq_getElem _ _ (by rw [hn]; exact hi)]
    exact List.getElem_map ..
  clear_value ws
  obtain ⟨y, r1, hy, hyc, -, hyt, hr1⟩ := trace_record hc hk (by omega) (ws.take 9)
  rw [← hyc] at hy
  obtain ⟨z, r2, hz, -, hzl, hzt, hr2⟩ := trace_record hy (hk.trans hyc.symm) (by rw [hyt, List.length_append]; change c.trace.length + 1 < 256; omega) (ws.drop 9)
  rw [hyc] at hz
  have hmem : ((s.trace x.core 0 5 [0, 0, 0, 0] (ws.take 9)).trace x.core 0 5 [0, 0, 0, 0] (ws.drop 9)).sameMem s :=
    ⟨(trace_keeps State.mem (fun _ _ => rfl) _ _ _ _ _ _).trans (trace_keeps State.mem (fun _ _ => rfl) _ _ _ _ _ _),
      (trace_keeps State.host (fun _ _ => rfl) _ _ _ _ _ _).trans (trace_keeps State.host (fun _ _ => rfl) _ _ _ _ _ _)⟩
  have htrace : z.trace = c.trace ++ [r1, r2] := by rw [hzt, hyt, List.append_assoc]; rfl
  refine ⟨_, z, he, hmem, hz, by rw [htrace, List.length_append]; rfl, hzl, fun i hi => ?_⟩
  rw [htrace, List.getD_append_right _ _ _ _ (Nat.le_add_right _ _), Nat.add_sub_cancel_left, ← hat i hi]
  by_cases h9 : i < 9
  · rw [Nat.div_eq_of_lt h9, Nat.mod_eq_of_lt h9]
    change r1.getD (7 + i) 1 = _
    rw [hr1 i (by rw [List.length_take, hws]; exact h9), List.getD_eq_getElem?_getD, List.getElem?_take_of_lt h9, List.getD_eq_getElem?_getD]
  · obtain ⟨j, rfl⟩ : ∃ j, i = 9 + j := ⟨i - 9, by omega⟩
    rw [show (9 + j) / 9 = 1 by omega, show (9 + j) % 9 = j by omega]
    change r2.getD (7 + j) 1 = _
    rw [hr2 j (by rw [List.length_drop, hws]; omega), List.getD_eq_getElem?_getD, List.getElem?_drop, List.getD_eq_getElem?_getD]
end

/-! ## Links (R352) -/

section
variable {s : State} {port n : Nat} {passed : Bool}

theorem linkFlit_ignored (h : 16 ≤ port ∨ port ∈ s.dev.down) : exec (.linkFlitFailure port passed) s = .next s :=
  congrArg Host.Outcome.next (if_pos (h.imp id (fun hm => List.contains_iff_mem.2 hm)))

theorem linkFlit_counts (hp : port < 16) (hd : port ∉ s.dev.down) (hn : n = (if passed then 1 else ((s.dev.ports.find? (fun p => p.1 == port)).map (·.2)).getD 0 + 1)) :
    ∃ u, exec (.linkFlitFailure port passed) s = .next u ∧ u.sameMem s ∧ u.dev.ports.find? (fun p => p.1 == port) = some (port, n) ∧ (16 ≤ n → .portDown port ∈ u.out ∧ port ∈ u.dev.down) ∧
      (n < 16 → u.dev.down = s.dev.down) := by
  let s1 : State := { s with dev := { s.dev with ports := s.dev.ports.filter (fun p => p.1 != port) ++ [(port, n)] } }
  have he : exec (.linkFlitFailure port passed) s = .next (if n < 16 then s1 else { s1 with dev := { s1.dev with down := s1.dev.down ++ [port] } }.say (.portDown port)) := by
    refine (congrArg Host.Outcome.next (if_neg (show ¬(4 * Config.dies ≤ port ∨ s.dev.down.contains port) from ?_))).trans ?_
    · rintro (h | h)
      · exact absurd h (Nat.not_le.2 hp)
      · exact hd (List.contains_iff_mem.1 h)
    · rw [← hn]
  have hfind : s1.dev.ports.find? (fun p => p.1 == port) = some (port, n) := by
    have hnone : (s.dev.ports.filter (fun p => p.1 != port)).find? (fun p => p.1 == port) = none :=
      List.find?_eq_none.2 (fun p hm hb => bne_iff_ne.1 (List.mem_filter.1 hm).2 (beq_iff_eq.1 hb))
    change (s.dev.ports.filter (fun p => p.1 != port) ++ [(port, n)]).find? (fun p => p.1 == port) = _
    rw [List.find?_append, hnone, Option.none_or]
    exact List.find?_cons_of_pos (beq_self_eq_true port)
  by_cases hlt : n < 16
  · rw [if_pos hlt] at he
    exact ⟨_, he, ⟨rfl, rfl⟩, hfind, fun h => absurd h (Nat.not_le.2 hlt), fun _ => rfl⟩
  · rw [if_neg hlt] at he
    refine ⟨_, he, ⟨rfl, rfl⟩, hfind, fun _ => ⟨List.mem_append_right _ (List.mem_singleton.2 rfl), List.mem_append_right _ (List.mem_singleton.2 rfl)⟩, fun h => absurd h hlt⟩
end

/-- Settles O60: starts, attestation, the leader, errors, gating, power, links and code objects, each clause by its own lemma. -/
theorem deviceEvents : Obligations.DeviceEvents := by
  refine ⟨?_, fun s d hd => ⟨lockstep_stops hd, patrolScrub_counts hd, heartbeat_writes hd, takeover_leads hd⟩,
    fun s pa core ctx va die off => ⟨rfl, rfl, ⟨_, _, rfl, ⟨rfl, rfl⟩, rfl, rfl⟩, l1_dropped s core pa, overlay_refetched s core ctx va, groupState_ends⟩,
    fun s c hc => ⟨fun ws r => traceDrain_writes hc, idleGate_gates hc, gateTimeout_gates hc, wake_opens hc, forcedGate_gates s, fun w => rfl,
      fun x hx hk hroom hn => ⟨fun ws => rfl, snapshot_records hc hx hk hroom hn⟩⟩,
    ?_, ?_⟩
  · intro s r nonce ctx c up skip
    refine ⟨fun h => ⟨_, coldStart_passes h, started_up s r r.pairs⟩, fun h => ⟨_, warmStart_passes h, started_up s r s.bistPairs⟩,
      fun k h hp => coldStart_fails h hp, fun k h => warmStart_fails h, fun h k hk => ?_, fun h hk => ?_, attestation_signs nonce, confidentialRequest_keys,
      fun e n fs hc => ⟨retranslation_writes hc, fun t x => retranslation_places hc⟩⟩
    · obtain ⟨j, hj, hle⟩ := startFailure_unauthentic (pairs := r.pairs) h
      rw [hj] at hk
      exact Option.some.inj hk ▸ hle
    · obtain ⟨j, hj, -⟩ := startFailure_unauthentic (pairs := r.pairs) h
      rw [hj] at hk
      exact nomatch hk
  · intro s watts port n passed
    refine ⟨rfl, fun k hk => ?_, linkFlit_ignored, linkFlit_counts⟩
    rw [hk]
    rfl
  · intro s t ctx base fs image c hc k
    exact ⟨codeObjectLoad_refuses hc, check_magic, fun h hi => ⟨codeObjectLoad_installs hc h hi, install_measured hc hi⟩⟩

end Sys2Proof.Machine
end

section
/-!
An LDS whose first lane changes, through an on-chip page table, which bytes a copy is still writing: O31.
-/
namespace Sys2Proof.Machine

/-! ## What LDS does lane by lane (R207) -/

section
variable {s u : State} {g : BitVec 4} {t a : BitVec 6} {z m : BitVec 3} {l k o : Nat}

/-- One lane of an LDS of s. -/
def State.ldsLane (s : State) (t a : BitVec 6) (z : BitVec 3) (u : State) (l : Nat) : State :=
  match s.scratchAt (s.laneOff a l) (sizeOf z) with
  | none => u
  | some (k, o) =>
    (u.landLane u.gr.gid l ((s.laneWords l t.toNat (regsOf z)).zip (loadWords (sizeOf z) (signedSize z) (u.scratchRead k o (sizeOf z))))).useFree
      (if u.unsettledLoc (u.scratchLoc k o) (sizeOf z) then sizeOf z else 0)

theorem exec_lds_passes (hl : sizeBase z t = true) (hp : s.active g ≠ 0) (hb : s.beyondIn (s.active g) (accessFields t.toNat a.toNat (regsOf z)) = 0)
    (hout : Mask.ofPred (fun l => (s.active g).has l && !s.scratchGood (s.laneOff a l) (sizeOf z)) = 0)
    (hodd : Mask.ofPred (fun l => (s.active g).has l && !decide ((s.laneOff a l).toNat % sizeOf z = 0)) = 0) :
    exec (.lds g t a z m) s = s.run (.next ((((s.active g).lanes.foldl (s.ldsLane t a z) s).acquiredIf (decide (m = 1)) (min s.scope 1)).sample s.nextId (s.active g).size (s.active g).size
      ((s.active g).lanes.getLast?.getD 0) (s.bankConflicts (s.active g) a (sizeOf z)))) := by
  have he : exec (.lds g t a z m) s = s.run (s.scratchChecked (s.active g) (sizeBase z t) (accessFields t.toNat a.toNat (regsOf z)) a (sizeOf z) false
      (.next ((((s.active g).lanes.foldl (s.ldsLane t a z) s).acquiredIf (decide (m = 1)) (min s.scope 1)).sample s.nextId (s.active g).size (s.active g).size
        ((s.active g).lanes.getLast?.getD 0) (s.bankConflicts (s.active g) a (sizeOf z))))) := rfl
  rw [he, State.scratchChecked, State.checked, if_neg (by simp [hl]), if_neg hp, if_neg (not_not_intro hb), if_neg (not_not_intro hout), if_neg (not_not_intro hodd)]

theorem ldsLane_settled (hat : s.scratchAt (s.laneOff a l) (sizeOf z) = some (k, o)) (hu : u.unsettledLoc (u.scratchLoc k o) (sizeOf z) = false) :
    s.ldsLane t a z u l =
      (u.landLane u.gr.gid l ((s.laneWords l t.toNat (regsOf z)).zip (loadWords (sizeOf z) (signedSize z) (u.scratchGet k o (sizeOf z))))).useFree 0 := by
  unfold State.ldsLane State.scratchRead
  rw [hat]
  dsimp only
  rw [hu]
  rfl

theorem ldsLane_unsettled (hat : s.scratchAt (s.laneOff a l) (sizeOf z) = some (k, o)) (hu : u.unsettledLoc (u.scratchLoc k o) (sizeOf z) = true) :
    s.ldsLane t a z u l =
      (u.landLane u.gr.gid l ((s.laneWords l t.toNat (regsOf z)).zip (loadWords (sizeOf z) (signedSize z) (u.freeValue (sizeOf z))))).useFree (sizeOf z) := by
  unfold State.ldsLane State.scratchRead
  rw [hat]
  dsimp only
  rw [hu]
  rfl

/-- The first word of lane l's column. -/
def firstWord (ls : List Lane) (l : Nat) : Word := (ls.getD l Lane.start).atPos 0

theorem firstWord_landLane (hl : l < s.gr.lanes.length) (w : Word) : firstWord (s.landLane s.gr.gid l [(some 0, w)]).gr.lanes l = w := by
  have hgr : (s.landLane s.gr.gid l [(some 0, w)]).gr = { s.gr with lanes := s.gr.lanes.modify l (fun x => x.putWord s.gr.allot 0 w) } := if_pos rfl
  unfold firstWord
  rw [hgr]
  dsimp only
  rw [List.getD_eq_getElem _ _ (by rw [List.length_modify]; exact hl), List.getElem_modify, if_pos rfl, atPos_putWord]
  exact if_pos (Nat.zero_mod _).symm

/-- A sample asked for on a core without counters. -/
theorem sample_bare (hr : s.st.replay = none) (hc : s.cores = []) (i n p last extra : Nat) : s.sample i n p last extra = s.untagOps := by
  have hcore : s.coreRec s.gr.coreId = none := by
    unfold State.coreRec
    rw [hc]
    rfl
  unfold State.sample
  rw [hr, hcore]
end

/-! ## The counterexample -/

/-- A copy of the device OS's context that still writes VA 0x404 to 0x407. -/
def osCopy : Cmd :=
  { id := 9, seq := 0, pc := 0, gid := 0, sid := 0, core := 0, ctx := 0, kind := .cfetch, regs := [], fmt := 0, exm := 0, flag := none,
    cbatch := none, mbatch := none, state := .accepted, progress := 0, arg := 0, dests := [], rows := [], joint := [], destVa := [(0x404, 4)],
    destPa := [], fenced := false, buf := [], peer := none, frag := 0 }

/-- Two lanes whose offsets are 0 and 4 in a window that holds 0x00001001 and a byte that b chooses. The root table of the device OS's context is the frame window of lane 0, so that
the word which lane 0 loads is the table's first entry; with it VA 0x404 lies on the window's bytes 4 to 7. -/
def shiftingTable (b : Bool) : State :=
  let s := State.reset.withFetchWord 32 0
  { s with
    st := { s.st with exm := 3 }
    gr := { s.gr with lanes := s.gr.lanes.set 1 { Lane.start with col := [(1, 4)] } }
    un := { s.un with scratch := 8, cores := [⟨0, 0, 0x400, [(0, 1), (1, 0x10), (4, if b then 1 else 2)], [], []⟩] }
    ctxs := [{ Ctx.fresh 0 with root := Config.onChip + 2 ^ 35 }]
    mem := [(0x1000, 1), (0x1001, 0x20), (0x2000, 3), (0x2005, 0x80)]
    cmds := [osCopy] }

/-- What lane 0 leaves. -/
def shiftedTable (b : Bool) : State := ((shiftingTable b).landLane 1 0 [(some 0, 0x1001)]).useFree 0

theorem shiftingTable_goesOn : ∀ b, (shiftingTable b).goesOn = true := by decide +kernel

theorem shiftingTable_lanes : ∀ b, ((shiftingTable b).active 0).lanes = [0, 1] := by decide +kernel

theorem shiftingTable_beyond : ∀ b, (shiftingTable b).beyondIn ((shiftingTable b).active 0) (accessFields (0 : BitVec 6).toNat (1 : BitVec 6).toNat (regsOf 2)) = 0 := by decide +kernel

theorem shiftingTable_good : ∀ b, ∀ l ∈ [0, 1], (shiftingTable b).scratchGood ((shiftingTable b).laneOff 1 l) (sizeOf 2) = true ∧ ((shiftingTable b).laneOff 1 l).toNat % sizeOf 2 = 0 := by
  decide +kernel

theorem shiftingTable_at : ∀ b, ∀ l ∈ [0, 1], (shiftingTable b).scratchAt ((shiftingTable b).laneOff 1 l) (sizeOf 2) = some (0, 4 * l) := by decide +kernel

theorem shiftingTable_settled : ∀ b, ∀ l ∈ [0, 1], (shiftingTable b).unsettledLoc ((shiftingTable b).scratchLoc 0 (4 * l)) (sizeOf 2) = false := by decide +kernel

theorem shiftedTable_unsettled : ∀ b, (shiftedTable b).unsettledLoc ((shiftedTable b).scratchLoc 0 4) (sizeOf 2) = true := by decide +kernel

/-- Lane 0 loads the table's entry. -/
theorem shiftingTable_lane0 (b : Bool) : (shiftingTable b).ldsLane 0 1 2 (shiftingTable b) 0 = shiftedTable b := by
  have hwords : ∀ b, ((shiftingTable b).laneWords 0 (0 : BitVec 6).toNat (regsOf 2)).zip (loadWords (sizeOf 2) (signedSize 2) ((shiftingTable b).scratchGet 0 0 (sizeOf 2))) = [(some 0, 0x1001)] := by
    decide +kernel
  rw [ldsLane_settled (shiftingTable_at b 0 (by decide)) (shiftingTable_settled b 0 (by decide)), hwords]
  rfl

/-- Lane 1 loads a free value: with the table's entry there, its bytes are the copy's. -/
theorem shiftingTable_lane1 (b : Bool) :
    (shiftingTable b).ldsLane 0 1 2 (shiftedTable b) 1 = ((shiftedTable b).landLane 1 1 [(some 0, widen ((shiftedTable b).freeValue 4) 4 false)]).useFree 4 := by
  have hwords : ∀ b, (shiftingTable b).laneWords 1 (0 : BitVec 6).toNat (regsOf 2) = [some 0] := by decide +kernel
  rw [ldsLane_unsettled (shiftingTable_at b 1 (by decide)) (shiftedTable_unsettled b), hwords]
  rfl

theorem shiftedTable_free (b : Bool) : (shiftedTable b).freeValue 4 = (shiftedTable true).freeValue 4 := by
  have hfree : (shiftedTable b).free = (shiftedTable true).free := by
    cases b
    · rfl
    · rfl
  unfold State.freeValue
  rw [hfree]

/-- The word that lane 1 has loaded, whatever stands in the window. -/
theorem shiftingTable_loads (b : Bool) : ∃ u, exec (.lds 0 0 1 2 0) (shiftingTable b) = .next u ∧ firstWord u.gr.lanes 1 = widen ((shiftedTable true).freeValue 4) 4 false := by
  let t := ((shiftedTable b).landLane 1 1 [(some 0, widen ((shiftedTable b).freeValue 4) 4 false)]).useFree 4
  have hfold : ((shiftingTable b).active 0).lanes.foldl ((shiftingTable b).ldsLane 0 1 2) (shiftingTable b) = t := by
    rw [shiftingTable_lanes, List.foldl_cons, List.foldl_cons, List.foldl_nil, shiftingTable_lane0, shiftingTable_lane1]
  have hnone : ∀ b, (shiftingTable b).active 0 ≠ 0 := by decide +kernel
  have hin : ∀ b, Mask.ofPred (fun l => ((shiftingTable b).active 0).has l && !(shiftingTable b).scratchGood ((shiftingTable b).laneOff 1 l) (sizeOf 2)) = 0 := by decide +kernel
  have heven : ∀ b, Mask.ofPred (fun l => ((shiftingTable b).active 0).has l && !decide (((shiftingTable b).laneOff 1 l).toNat % sizeOf 2 = 0)) = 0 := by decide +kernel
  have he := exec_lds_passes (m := 0) (by decide) (hnone b) (shiftingTable_beyond b) (hin b) (heven b)
  rw [hfold, show t.acquiredIf (decide ((0 : BitVec 3) = 1)) (min (shiftingTable b).scope 1) = t from rfl, sample_bare rfl rfl,
    run_next (shiftingTable b) t.untagOps (goesOn_landed _ (shiftingTable_goesOn b)) rfl (shiftingTable_goesOn b)] at he
  refine ⟨_, he, ?_⟩
  rw [← shiftedTable_free b]
  exact firstWord_landLane (s := shiftedTable b) (l := 1) (by cases b <;> decide) _

/-- The word that the statement has lane 1 load. -/
theorem shiftingTable_claimed : ∀ b, firstWord (((shiftingTable b).active 0).lanes.foldl (fun ls l => ls.modify l (fun y => y.land (shiftingTable b).gr.allot
    (((shiftingTable b).laneWords l (0 : BitVec 6).toNat (regsOf 2)).zip (loadWords (sizeOf 2) (signedSize 2)
      ((shiftingTable b).scratchGet (((shiftingTable b).scratchAt ((shiftingTable b).laneOff 1 l) (sizeOf 2)).getD (0, 0)).1
        (((shiftingTable b).scratchAt ((shiftingTable b).laneOff 1 l) (sizeOf 2)).getD (0, 0)).2 (sizeOf 2)))))) (shiftingTable b).gr.lanes) 1 = if b then 1 else 2 := by decide +kernel

/-- Refutes O31: the two windows differ in a byte that the statement has lane 1 load and that LDS, a copy still writing it once lane 0 has changed the page table, gives as a free value. -/
theorem not_scratchAccess : ¬ Obligations.ScratchAccess := by
  unfold Obligations.ScratchAccess
  intro h
  have hbyte (b : Bool) : widen ((shiftedTable true).freeValue 4) 4 false = if b then 1 else 2 := by
    obtain ⟨hload, -⟩ := h.1 (shiftingTable b) 0 0 1 2 0 (shiftingTable_goesOn b) (by decide) (shiftingTable_beyond b) (by rw [shiftingTable_lanes]; exact shiftingTable_good b)
    obtain ⟨u, hu, -, -, -, -, hlanes⟩ := hload (by
      rw [shiftingTable_lanes]
      intro l hl
      dsimp only
      rw [shiftingTable_at b l hl]
      exact shiftingTable_settled b l hl)
    obtain ⟨v, hv, hw⟩ := shiftingTable_loads b
    rw [Host.Outcome.next.inj (hv.symm.trans hu)] at hw
    rw [← hw, hlanes]
    exact shiftingTable_claimed b
  exact absurd ((hbyte true).symm.trans (hbyte false)) (by decide)

end Sys2Proof.Machine
end
